-- ==== Sys2Proof/Word.lean ====
section
/-! DEFINITION. The word types of the block (R6: registers are 32 bits wide, integers are little-endian). -/
namespace Sys2Proof

/-- A byte of media, memory or a packet (R6). -/
abbrev Byte := BitVec 8

/-- A 32-bit register (R6). -/
abbrev Word := BitVec 32

/-- A 64-bit integer of a record or a descriptor (R6). -/
abbrev DWord := BitVec 64

/-- An exact physical quantity. Currents, speeds, times and positions are held exactly; where the
spec fixes a rounding (a register field), the rounding is applied when the field is formed. -/
abbrev Qty := Rat

end Sys2Proof
end

