-- ==== Sys2Proof/Machine/Terms.lean ====
section
/-! DEFINITION. The named alternatives and the records that commands carry and state holds: what the
spec names as kinds, modes, roles, records and entries, chapter by chapter. -/
namespace Sys2Proof.Machine
open Sys2Proof

/-! ## Media records (Joveox, R44 to R69) -/

/-- Leaf kinds of Table 3.6, with the scratch kind 7Fh of R131 and `other` for any kind a reader ignores (R53). -/
inductive LeafKind where
  | data | parity | index | ember | cornerstone | filler | scratch
  | other (code : Byte)
deriving DecidableEq, Repr, Inhabited

/-- Ring roles of Table 3.7. -/
inductive RingRole where
  | data | index | ember | cornerstone | retired
deriving DecidableEq, Repr, Inhabited

/-- A position on the media: surface (actuator × 8 + head, R45), ring and slot. -/
structure Pos where
  surface : Nat
  ring : Nat
  slot : Nat
deriving DecidableEq, Repr, Inhabited

/-- A leaf (R52): its fixed header (bytes 0–47) as fields, the reserved bytes 40–47 among them, and its coded region, bytes
48–32,895. -/
structure Leaf where
  kind : LeafKind
  strength : Nat
  k : Nat
  m : Nat
  piece : Nat
  surface : Nat
  homeKind : LeafKind
  ring : Nat
  slot : Nat
  stripe : Nat
  wseq : Nat
  pieceCheck : DWord
  coded : List Byte
  magic : List Byte := [0x4A, 0x4F, 0x56, 0x58]
  version : Nat := 1
  rsv : List Byte := List.replicate 8 0
deriving DecidableEq, Repr, Inhabited

/-- A frame on the media (R44): its position, the leaf it carries, and its frame bits as written, polarity 1 for the state
called 1 (R39); `whole` is false for a frame abandoned while written (R148). -/
structure Frame where
  pos : Pos
  leaf : Leaf
  bits : List Bool
  whole : Bool
deriving DecidableEq, Repr, Inhabited

/-- One extent of a version record (R66): group, first leaf ordinal, leaf count. -/
structure Extent where
  group : Nat
  first : Nat
  count : Nat
deriving DecidableEq, Repr, Inhabited

/-- A ring group's state (R61). -/
inductive GroupState where
  | opened | full | freed
deriving DecidableEq, Repr, Inhabited

/-- A ring group record (R61). Members are numbered from 0 in list order. -/
structure Group where
  id : Nat
  role : RingRole
  k : Nat
  m : Nat
  state : GroupState
  wseq : Nat
  members : List (Nat × Nat)   -- surface, ring
  next : Nat                   -- next data leaf ordinal to place (R57)
  zone : Option Nat            -- the zone the group was formed for (R415), none for object and index groups
deriving DecidableEq, Repr, Inhabited

/-- A ring of one surface (R58 to R60): role, strength, first servo track, zone index, and the write pointer of R149. -/
structure Ring where
  role : RingRole
  strength : Nat
  firstTrack : Nat
  zone : Nat
  wp : Nat
deriving DecidableEq, Repr, Inhabited

/-- An entry of the defect map (R87): surface, ring, slot, first bit and length. -/
structure Defect where
  pos : Pos
  firstBit : Nat
  len : Nat
deriving DecidableEq, Repr, Inhabited

/-- One soft value of R84. -/
structure Soft where
  erase : Bool
  llr : Int
deriving DecidableEq, Repr, Inhabited

/-- What a copy-forward is for (R246, R250, R254). -/
inductive CopyWhy where
  | reclaim | relocation | reflow
deriving DecidableEq, Repr, Inhabited

/-! ## Heads, lanes, grates -/

/-- Head states of Table 9.2. -/
inductive HeadState where
  | inService | readOnly | out | absent
deriving DecidableEq, Repr, Inhabited

/-- The role of a spare lane (R71). -/
inductive LaneRole where
  | idle | substitute | standIn
deriving DecidableEq, Repr, Inhabited

/-- Where a lane switch stands in the three steps of R72. -/
inductive LaneStep where
  | steady          -- no switch in progress
  | parallel (from_ : Nat)   -- step 1: the new lane in parallel, since this count of wedges
deriving DecidableEq, Repr, Inhabited

/-- A lane's analog front end (R77): gain in steps of 0.125 dB from −6 to +24 dB, cutoff step 0–31 (0.20 to 0.55 of the bit
rate), boost in steps of 0.5 dB, offset in steps of 1/256 of full scale, and how many bit periods more its high-pass corner
stays at 8 MHz after a thermal asperity (R85). -/
structure Afe where
  gain : Int := 0
  cutoff : Nat := 0
  boost : Nat := 0
  offset : Int := 0
  fastHp : Nat := 0
deriving DecidableEq, Repr, Inhabited

/-- One lane (R75, R78): front end; each slice's offset in LSB and gain as measured, which its samples are corrected by; the
usable slices, the eight in use by phase, their skews in bit periods; and its condition. -/
structure Lane where
  afe : Afe := {}
  slices : List (Qty × Qty) := List.replicate 10 (0, 1)
  usable : List Nat := []
  inUse : List Nat := []
  skew : List Qty := []
  faulty : Bool := false
  retired : Bool := false
  recal : Bool := false       -- faulty by the codeword condition of R75, to be calibrated once more
deriving DecidableEq, Repr, Inhabited

/-- A spare lane (R71, R107): its role, the reader it serves (trail or lead), and where its switch stands. -/
structure SpareLane where
  role : LaneRole := .idle
  act : Nat := 0
  trail : Bool := false
  failed : Bool := false
  carries : Bool := false     -- the ACT island takes the reader's samples from the spare
  step : LaneStep := .steady
  back : Bool := false        -- the switch in progress returns the reader to its own lane
  next : Option (Nat × Bool) := none  -- the reader it is to carry as substitute once it has returned its present one (R74)
  used : Bool := false        -- counted as used (R258)
deriving DecidableEq, Repr, Inhabited

/-- One measurement of a lane's calibration items (Table 18.5): offset in LSB, gain in dB, and for each slice its offset in
LSB, its gain, and its skew as a fraction of the bit period at the highest bit rate served. -/
structure LaneMeas where
  offset : Qty
  gain : Qty
  slices : List (Qty × Qty)
  skew : List Qty
deriving DecidableEq, Repr, Inhabited

/-- The values of Table 4.5 held for one reader: gain and offset as R77's steps, asymmetry, the taps of the joint and of the
shadow filter, and the nominal envelope in LSB (R85). Taps adapt in fractions of their unit of 1/256. -/
structure ReaderRec where
  gain : Int := 0
  offset : Int := 0
  asym : Qty := 0
  taps : List Qty := List.replicate 24 0
  shadow : List Qty := List.replicate 24 0
  env : Qty := 0
deriving DecidableEq, Repr, Inhabited

/-- A boost trial in progress (Table 4.5): the boost before it and the error power it must beat by 1 %. -/
structure BoostTrial where
  was : Nat
  err : Qty
deriving DecidableEq, Repr, Inhabited

/-- The adapted values of one head and zone (R101): those of each reader, the target g_1 to g_3, for each of the 32 contexts
the running averages of n_k·n_(k−1), n_(k−1)² and the squared residue, lead delay, cutoff and boost, the bit periods and
trial of the boost, precompensation PC1 to PC3 in 1/64 of a bit period, and the error power. -/
structure ChanRec where
  lead : ReaderRec := {}
  trail : ReaderRec := {}
  target : List Qty := [0, 0, 0]
  noise : List (Qty × Qty × Qty) := List.replicate 32 (0, 1, 1)
  delay : Fin 128 := 0
  cutoff : Nat := 0
  boost : Nat := 0
  trialBits : Nat := 0
  trial : Option BoostTrial := none
  pc : List Nat := [0, 0, 0]
  err : Qty := 0
deriving DecidableEq, Repr, Inhabited

/-- The stages of the data timing loop (Table 4.2, R91): gains of the phase loop alone, gains with the frequency integrator
enabled and the phase gain halved, and tracking gains. -/
inductive TimingStage where
  | phase | frequency | tracking
deriving DecidableEq, Repr, Inhabited

/-- The data timing loop of an actuator: phase in bit periods and residual frequency as a fraction of the bit rate. -/
structure Timing where
  phase : Qty := 0
  freq : Qty := 0
deriving DecidableEq, Repr, Inhabited

/-- Samples of both readers as the slices give them, one of each for each bit period. -/
structure Samples where
  lead : List Int
  trail : List Int
deriving DecidableEq, Repr, Inhabited

/-- An entry of a leaf correctable-error log, ACTn_CE_LOG (R129, R141). -/
structure CeEntry where
  valid : Bool
  surface : Nat
  ring : Nat
  slot : Nat
  hits : Nat
  step : Nat
  iter : Nat
  corrected : Nat
  hours : Nat
deriving DecidableEq, Repr, Inhabited

/-- An entry of HOB_CE_LOG or CCH_CE_LOG (R273, Table 10.11). -/
structure HobCeEntry where
  valid : Bool
  ue : Bool
  fb : Bool
  bank : Nat
  row : Nat
  word : Nat
  syndrome : Nat
  hits : Nat
  hours : Nat
  master : Nat
deriving DecidableEq, Repr, Inhabited

/-- A request's number: a command context 0–4,095 or an internal task 4,096–8,191 (Table 5.2). -/
abbrev ReqId := Nat

/-- A codeword in the shared grate queue or in a grate (R32, R114). -/
structure Codeword where
  req : ReqId
  leafIdx : Nat
  act : Nat
  pos : Pos
  strength : Nat
  step : Nat
  scrub : Bool
  activity : Nat        -- 0 host work; 1 scrub, 2 reclaim, 3 relocation, 4 reflow (Table 2.7)
  soft : List Soft
  unsure : Bool := false  -- its frame was located by the secondary mark alone (R95)
  dead : Bool := false    -- the command it serves was abandoned: its result is discarded (R122)
deriving DecidableEq, Repr, Inhabited

/-- A grate's result record (Table 5.2). -/
structure GrateResult where
  req : ReqId
  leafIdx : Nat
  grate : Nat
  status : Nat        -- 0 converged, 1 iteration limit, 2 undecodable by erased count
  iter : Nat
  step : Nat
  corrected : Nat
  erased : Nat
  info : List Byte    -- the decoded information bytes, written to the cache line when converged (R117)
  cw : Codeword
deriving DecidableEq, Repr, Inhabited

/-- One of the fourteen grates: in service, spare (idle) or retired, with its working codeword, input buffer,
result slot of two entries and the finished result it holds back (R114, R118, R119). -/
structure Grate where
  inService : Bool
  failed : Bool
  working : Option Codeword
  inputBuf : Option Codeword
  slot : List GrateResult
  heldBack : Option GrateResult
  sinceKat : Nat
deriving DecidableEq, Repr, Inhabited

/-- Why a leaf read runs (the process that asked for it, R120, R121, R124, R130, R151). -/
inductive ReadPurpose where
  | host            -- a command's leaf
  | scrub           -- a scrub pass
  | audit           -- an audit, export, or Receipt with AUDIT = 1
  | copy            -- copy-forward
  | verify          -- a verify read after writing
  | restore         -- a banking-state restore
  | source          -- a source piece of a reconstruction
  | readback        -- the shingle read-back of R179
  | test            -- the flip-mask checker test
deriving DecidableEq, Repr, Inhabited

/-- Where one leaf of a request stands between its read and its release (R121, R124). -/
inductive LeafPhase where
  | waiting            -- to be read
  | reading            -- under the head or in the store
  | blind              -- a blind re-read is scheduled (R96)
  | ladder             -- queued for, in, or between decodes
  | rebuilding         -- step 4, stripe reconstruction
  | sharing            -- another request fills its cache line (R280)
  | ready              -- checked
  | unreadable
deriving DecidableEq, Repr, Inhabited

/-- One leaf of a request. -/
structure ReqLeaf where
  idx : Nat
  pos : Pos
  stripe : Option Nat
  piece : Nat
  kinds : List LeafKind    -- kinds expected at the slot (R120)
  phase : LeafPhase
  step : Nat
  lastIter : Nat
  lastCorrected : Nat
  soft : Option (List Soft)         -- its soft values in the store (R117, R125)
  reread : Bool                     -- a step 2 or step 3 read is scheduled
  ahead : Bool                      -- the step 2 read has been taken while step 1 runs (R125)
  grate : Nat                       -- the grate of its last result
  data : Option Leaf
  unsure : Bool := false            -- its last frame was located by the secondary mark alone (R95)
  home : Option (Nat × Nat) := none -- an unstriped leaf whose stripe and piece its reader knows (R120)
deriving DecidableEq, Repr, Inhabited

/-- A read request: a command's or an internal task's leaves, in leaf order. -/
structure Request where
  id : ReqId
  purpose : ReadPurpose
  activity : Nat          -- 0 host work; 1 scrub, 2 reclaim, 3 relocation, 4 reflow
  leaves : List ReqLeaf
  released : Nat          -- leaves released so far, in ascending index (R121)
  abandoned : Bool
deriving DecidableEq, Repr, Inhabited

/-- A source piece that has arrived at the stripe engine: its coded region, how it decoded, and whether it was taken whole
from the hob (R245). -/
structure Arrived where
  piece : Nat
  coded : List Byte
  corrected : Nat
  step : Nat
  held : Bool
deriving DecidableEq, Repr, Inhabited

/-- A reconstruction in the stripe engine (R243 to R245): the leaf it serves, the request that reads its sources, the
first source set, the pieces that replace suspects in turn, the set tried now, the pieces that failed, and what has arrived. -/
structure Rebuild where
  req : ReqId
  leafIdx : Nat
  srcReq : ReqId
  stripe : Nat
  piece : Nat
  sources : List Nat
  extras : List Nat
  sets : Nat
  failed : List Nat
  arrived : List Arrived
deriving DecidableEq, Repr, Inhabited

/-! ## Objects -/

/-- A version's state (R66). -/
inductive VerState where
  | live | deleted
deriving DecidableEq, Repr, Inhabited

/-- One leaf of a session or a zone: the staged leaf's own name in the model, and its stripe and piece once placed. -/
structure LeafRef where
  uid : Nat
  place : Option (Nat × Nat)
deriving DecidableEq, Repr, Inhabited

/-- A committed version (R66, R376): what its version record and the newest state record say. -/
structure Version where
  no : Nat
  state : VerState
  lrange : Nat
  hold : Bool
  retain : Nat
  hours : Nat
  length : Nat
  digest : List Byte
  extents : List Extent
  wseq : Nat
  damaged : Bool
  pinned : Bool           -- in the pin list (R450)
deriving DecidableEq, Repr, Inhabited

/-- An object: every version of one key (R375). -/
structure Obj where
  key : List Byte
  id : Nat
  assigned : Nat          -- highest version number assigned
  versions : List Version -- ascending version number
deriving DecidableEq, Repr, Inhabited

/-- A put session (R386, R387). -/
structure Session where
  key : List Byte
  objectId : Nat
  version : Nat
  lrange : Nat
  hold : Bool
  retain : Nat
  broken : Bool
  damaged : Bool          -- broken by R399
  accepted : Nat          -- accepted length (R388)
  acked : Nat             -- acknowledged length (R387)
  absorbed : List Byte    -- what its digest has absorbed, in plaintext: the digest state (R389)
  leaves : List LeafRef   -- leaf i holds version bytes from 32,768 × i (R390)
  copying : Bool          -- a Copy occupies the slot (R409): no handle names it
deriving DecidableEq, Repr, Inhabited

/-- A session slot (R386). -/
structure SessSlot where
  gen : Nat
  sess : Option Session
deriving DecidableEq, Repr, Inhabited

/-- A read stream (R402). -/
structure Stream where
  tag : Nat
  key : List Byte
  version : Nat
  pos : Nat               -- sum of the LENGTH fields accepted
  lastAccept : Nat
  id : Nat                -- acceptance number of the Get that opened it
  ended : Bool            -- its last Get has been accepted
  got : List (Nat × List Byte)  -- what its Gets have brought, by offset, for the digest
deriving DecidableEq, Repr, Inhabited

/-- A leaf held by the write staging (R289 to R292). -/
structure StagedLeaf where
  uid : Nat               -- the model's own name of the leaf
  kind : LeafKind
  objectId : Nat
  version : Nat
  offset : Nat
  validLen : Nat
  lrange : Nat
  hours : Nat
  payload : List Byte     -- as stored: ciphertext where a locking range applies
  key : List Byte         -- key of the version
  order : Nat             -- acknowledgement order, oldest first (R14, R516)
  accepts : List (List Byte × Nat)  -- keys of the bytes or records it holds, each with one more than its command's acceptance number (R398)
  dirty : Bool            -- counts as dirty data, with its reservation (R289)
  formed : Bool
  place : Option (Nat × Nat)  -- stripe, piece
  emberCopies : List Pos  -- ember copies complete (R69)
  mramGroup : Option Nat
deriving DecidableEq, Repr, Inhabited

/-! ## Host transport -/

/-- A flue descriptor (Table 10.5). -/
structure Desc where
  src : Nat
  dst : Nat
  len : Nat
  srcSpace : Nat
  dstSpace : Nat
  list : Bool
  irq : Bool
  status : Nat
  addr : Nat              -- hob address of the descriptor itself
deriving DecidableEq, Repr, Inhabited

/-- A submission queue entry as the queue engine reads it (Table 13.1 and NVMe), with the bytes the
host holds at KPTR, and the data pointer's blocks. -/
structure SqEntry where
  opc : Byte
  fuse : BitVec 2
  psdt : BitVec 2
  cid : BitVec 16
  nsid : Word
  dw2 : Word
  kptr : DWord
  dw10 : Word
  dw11 : Word
  dw12 : Word
  dw13 : Word
  dw14 : Word
  dw15 : Word
  kbytes : List Byte      -- host memory from KPTR
  sglKindsOk : Bool       -- every SGL descriptor is of a supported type (R355)
  blocks : List (Nat × Nat)  -- host data blocks: address, length; PRP entries or SGL data blocks
deriving DecidableEq, Repr, Inhabited

/-- A completion (NVMe status code type and code, DW0, DW1, and the bytes moved to the host). -/
structure Completion where
  sct : Nat
  sc : Nat
  dw0 : Nat
  dw1 : Nat
  data : List Byte
deriving DecidableEq, Repr, Inhabited

/-- Where a command context stands. -/
inductive CtxPhase where
  | accepted             -- assigned, its command not yet run
  | held                 -- a write held at submission (R354)
  | reading (oid ver : Nat) -- waits for the leaves of a version it has resolved (a zone: its version)
  | moving (slot : Nat)  -- a Copy that holds a session slot and waits for its source leaves (R409)
  | waitDurable (uids : List Nat)  -- Sync, Flush: the leaves covered (R363, R398)
  | outstanding          -- an Asynchronous Event Request, a commit action 011b, and the like
  | done (c : Completion)
deriving DecidableEq, Repr, Inhabited

/-- A part of what a read returns: bytes already at hand (`place` none), or valid bytes of a placed leaf from `start`. -/
structure ReadPart where
  place : Option (Nat × Nat)
  start : Nat
  len : Nat
  bytes : List Byte
deriving DecidableEq, Repr, Inhabited

/-- A command context (R352). -/
structure Ctx where
  sq : Nat
  pooled : Bool          -- drawn from the shared pool
  accept : Nat           -- acceptance number (R353)
  entry : SqEntry
  phase : CtxPhase
  staged : Bool          -- its completion waits in the completion staging (R351)
  inflight : List Nat    -- acceptance numbers not yet posted when it was fetched (R363, R398)
  ends : Bool            -- a stream Get that reaches the end of its version (R402)
  lines : List (Nat × Nat)  -- cache lines it reads: stripe and piece (R279)
  clock : Nat            -- the retention clock at its acceptance (R377)
  parts : List ReadPart  -- what it returns, fixed when it took effect
  recheck : Bool         -- the leaves are being rebuilt after a failed digest check (R403)
  stream : Option Nat    -- the stream it belongs to
  checked : Bool         -- its digest check has passed (R412)
deriving DecidableEq, Repr, Inhabited

/-- An I/O or admin submission queue. -/
structure SubQueue where
  size : Nat
  head : Nat
  tail : Nat
  cq : Nat
  prio : Nat             -- 0 urgent, 1 high, 2 medium, 3 low
  deleting : Option Nat  -- the context of a Delete that waits (R367)
  aborts : List (BitVec 16)  -- identifiers of unfetched entries still to complete with 08h (R367)
deriving DecidableEq, Repr, Inhabited

/-- A completion queue entry: submission queue, command identifier, completion. -/
structure CqEntry where
  sq : Nat
  cid : BitVec 16
  c : Completion
deriving DecidableEq, Repr, Inhabited

/-- A completion queue. -/
structure CompQueue where
  size : Nat
  head : Nat
  tail : Nat
  vector : Nat
  irq : Bool
  entries : List CqEntry -- posted, not yet consumed
deriving DecidableEq, Repr, Inhabited

/-- PCIe link state. -/
structure LinkState where
  up : Bool
  rate : Nat
  width : Nat
  retrains : Nat
deriving DecidableEq, Repr, Inhabited

/-! ## Zones -/

/-- Zone states the Nelvar uses (R422). -/
inductive ZoneState where
  | empty | implicitOpen | explicitOpen | closed | full
deriving DecidableEq, Repr, Inhabited

/-- A zone (R414 to R418); `wp` and `zcap` are in LBAs from the zone's start. -/
structure Zone where
  state : ZoneState
  wp : Nat
  zcap : Nat
  resets : Nat
  leaves : List LeafRef    -- leaf i holds zone bytes from 32,768 × i
  written : Nat            -- bytes written; below wp only after Finish (R423)
  absorbed : List Byte     -- the plaintext its digest has absorbed (R417)
  recordWseq : Nat         -- WSEQ of the newest zone record, 0 for none
  recLen : Nat             -- bytes that record covers
  recHours : Nat           -- its HOURS
  damaged : List Nat       -- leaves that are damaged (R399, R421)
deriving DecidableEq, Repr, Inhabited

/-! ## Cyzon -/

/-- The two paths of Cyzon packets, with the command context on the NVMe path. -/
inductive CyzonPath where
  | nvme (ctx : Nat)
  | mctp
deriving DecidableEq, Repr, Inhabited

/-- A held reply (R428, R430). -/
structure CyzonReply where
  mctp : Bool
  tag : Nat
  group : Nat
  op : Nat
  status : Nat
  reason : Nat
  body : List Byte
  final : Bool
  delivered : Bool
deriving DecidableEq, Repr, Inhabited

/-- An audit's or export's scope (R444). -/
inductive Scope where
  | all
  | keyPrefix (p : List Byte)
  | one (key : List Byte) (version : Nat)
  | zones (first last : Nat)
deriving DecidableEq, Repr, Inhabited

/-- One audited or exported item: an object version or a zone. -/
structure Item where
  key : List Byte
  objectId : Nat
  version : Nat
  zone : Option Nat
deriving DecidableEq, Repr, Inhabited

/-- A running fixity audit (R444 to R448). -/
structure Audit where
  id : Nat
  mctp : Bool
  tag : Nat
  scope : Scope
  keep : Bool
  snapWseq : Nat
  startHours : Nat
  todo : List Item
  checked : Nat
  counts : List Nat         -- RESULT 00h, 01h, 02h, and 03h with 04h together
  hashed : List Byte        -- the entries absorbed so far
  kept : List (Item × List Byte)  -- held entries, at most 1,024, each with what it is of
  rebuilt : Bool            -- the version being checked has had a leaf rebuilt (R19)
  recheck : Bool            -- its first digest check has failed, and it is being rebuilt
deriving DecidableEq, Repr, Inhabited

/-- A signed (or waiting) audit summary (Table 15.6). -/
structure Summary where
  kind : Nat
  auditId : Nat
  bytes : List Byte
  signed : Bool
deriving DecidableEq, Repr, Inhabited

/-- Where the container of an export stands after a whole record group: records, chain, bytes and counts so far. -/
structure ExportMark where
  seqNo : Nat
  chain : List Byte
  absorbed : List Byte      -- the container bytes so far, for the End digest
  exported : Nat
  noticed : Nat
  plain : Nat
deriving DecidableEq, Repr, Inhabited

/-- An open export (R451 to R453). `mark` is what the ember records; the records being returned (the header, one version's,
or the end) have `left` bytes still to be read and lead to `next`. -/
structure Export where
  id : Nat
  scope : Scope
  snapWseq : Nat
  todo : List Item
  mark : ExportMark
  left : List Byte
  next : Option ExportMark
  stage : Nat               -- 0 header, 1 versions, 2 end record, 3 over: what the records being returned are, or come next
  recheck : Bool            -- the version being exported has failed its first digest check, and is being rebuilt
  got : Option (List Byte)  -- its plaintext, checked, while its receipt is signed
deriving DecidableEq, Repr, Inhabited

/-- The media progress record (Table 15.5). -/
structure MediaProgress where
  op : Nat
  state : Nat
  pass : Nat
  passes : Nat
  ringsDone : Nat
  ringsTotal : Nat
  startHours : Nat
  pattern : Word
deriving DecidableEq, Repr, Inhabited

/-- A profile activation held while a banking sequence or a firmware activation runs (R437): its path and tag. -/
structure HeldActivate where
  path : CyzonPath
  tag : Nat
deriving DecidableEq, Repr, Inhabited

/-! ## Security -/

/-- Life-cycle states of Table 16.8; `unread` before kindling has read the fuses (STN_LC 000b). -/
inductive LifeCycle where
  | unread | manufacture | factoryTest | provisioned | deployed | diagnostic | decommissioned
deriving DecidableEq, Repr, Inhabited

/-- Why the firebrick was last wiped (R478). -/
inductive WipeCause where
  | none | lifeCycle | tamper | class3
deriving DecidableEq, Repr, Inhabited

/-- A locking range row (R470 to R474). -/
structure RangeRow where
  start : Nat
  length : Nat
  readLockEnabled : Bool
  writeLockEnabled : Bool
  readLocked : Bool
  writeLocked : Bool
  lockOnReset : Bool
  wrappedKey : Option (List Byte)
  slot : Option (List Byte)   -- the key in its XTS key slot (R474)
deriving DecidableEq, Repr, Inhabited

/-- A signed firmware image as its header gives it (R463, R464, R371, R546): version, security version, whether it needs a reset, the BASE
and CRC of its sequencer stores, the stores, and the digest of the image. -/
structure FwImage where
  ver : Nat
  svn : Nat
  needsReset : Bool
  base : BitVec 16
  crc : Word
  micro : List (Nat × BitVec 24)
  nano : List (Nat × BitVec 128)
  digest : List Byte
deriving DecidableEq, Repr, Inhabited

/-- Where an activation without reset stands (R370, R371). -/
inductive Activation where
  | waiting (slot : Nat)  -- a banking sequence runs
  | running (slot : Nat)  -- fetching stopped, sequencers recalled
deriving DecidableEq, Repr, Inhabited

/-- Operations of hearthstone that last (Table 16.13), with the command context they serve. -/
inductive HsOp where
  | rangeUnwrap (ctx : Nat) | signing (ctx : Option Nat) | drbg (ctx : Nat)
deriving DecidableEq, Repr, Inhabited

/-- Opal security providers (R472). -/
inductive OpalSp where
  | admin | locking
deriving DecidableEq, Repr, Inhabited

/-- Opal authorities (R472): SID, Admin1 and PSID of the Admin SP; Admin1–Admin4 and User1–User64 of the Locking SP. -/
inductive Authority where
  | anybody | sid | psid | adminSpAdmin1
  | lockAdmin (n : Nat) | user (n : Nat)
deriving DecidableEq, Repr, Inhabited

/-- What Opal methods answer (R472, R473): success with the values returned, or a failure by its TCG status. -/
inductive OpalReply where
  | properties | success (values : List (List Byte))
  | notAuthorized | invalidParameter | fail | authorityLockedOut | noSessionsAvailable | spBusy
deriving DecidableEq, Repr, Inhabited

/-- An Opal session (R472). -/
structure OpalSession where
  sp : OpalSp
  write : Bool
  authed : List Authority
deriving DecidableEq, Repr, Inhabited

/-- A cell that Opal Get or Set names. -/
inductive OpalCell where
  | rangeStart (r : Nat) | rangeLength (r : Nat)
  | readLockEnabled (r : Nat) | writeLockEnabled (r : Nat)
  | readLocked (r : Nat) | writeLocked (r : Nat)
  | lockOnReset (r : Nat)
  | cpin (a : Authority)
  | rangeUser (r n : Nat)
  | mbrEnable
  | other (table row column : Nat)
deriving DecidableEq, Repr, Inhabited

/-- A C_PIN verifier: 16-byte salt and the 32-byte SHAKE256 of salt ‖ PIN (Table 16.2), with the failures since power-up. -/
structure CPin where
  authority : Authority
  salt : List Byte
  hash : List Byte
  tries : Nat
deriving DecidableEq, Repr, Inhabited

/-! ## Faults and the ash log -/

/-- The judgement of an error pair (Table 17.1). -/
inductive Judgement where
  | noError | error | broken
deriving DecidableEq, Repr, Inhabited

/-- Elements behind error pairs and in SOURCE (Tables 9.5 and 17.8). -/
inductive Element where
  | none
  | lane (n : Nat) | grate (n : Nat) | sequencer (n : Nat) | damper (n : Nat)
  | flue (n : Nat) | hobBank (n : Nat) | way (n : Nat) | head (surface : Nat)
  | actuator (n : Nat) | island (n : Nat) | lockstep (n : Nat)
  | hearthstone | firebrick | lpddr | configStore
deriving DecidableEq, Repr, Inhabited

/-- The sideband mode that SB_SEL chooses (R558). -/
inductive Sideband where
  | smbus | i3c
deriving DecidableEq, Repr, Inhabited

/-- Three measurements of one quantity; the third counts where the first two do not agree (R523). -/
abbrev Trio := Qty × Qty × Qty

/-- A current sense measured (Table 18.5): its gain, and its offset in A. -/
structure Sense where
  gain : Trio
  offset : Trio
deriving DecidableEq, Repr, Inhabited

/-- The items of Table 18.5 that are measured at power-up beside the lanes': the current senses of the voice coils and of the
spindle, the thermal diodes in °C, and each island's canary delay, in delay steps from its setting. -/
structure CalMeas where
  vc : Vector Sense 4
  spn : Sense
  diodes : Vector Trio 2
  canary : Vector Trio 10
deriving DecidableEq, Repr, Inhabited

/-- What a start-up finds (R478, R482, R520, R527): the operand of the commands that reset the Nelvar. -/
structure Boot where
  kindling : Nat                  -- the kindling result of the record 0001h
  selfTest : Bool                 -- hearthstone's self-tests pass (R482)
  straps : BitVec 2               -- LC_STRAP1, LC_STRAP0
  sbSel : Bool                    -- SB_SEL
  hobCopy : Bool                  -- core reset: the firmware copy in the hob matches M1 (R527)
  spindleD4 : Bool                -- D4 passes its self-test (R225)
  failed : List Element           -- elements that fail their power-up tests (R126, R300, R332)
  lanes : List (Fin 10 × LaneMeas × LaneMeas × LaneMeas)  -- calibration of the lanes (R523)
  items : CalMeas                 -- calibration of the other items (R523)
  integrity : Bool                -- hearthstone's integrity checks of its code and of the public-key digests pass (R480)
  dramOk : Bool                   -- the LPDDR5X trains (R301)
  vmot : Qty                      -- VMOT, V
  crc1 : Option Word              -- the CRC found at the first reading of overlay and reference, where it is not the committed one
  crc2 : Option Word              -- and at the second (R440)
  badItems : List (Option Nat)    -- wrapped items that fail their check (R459): a range, or none for the identity
deriving DecidableEq, Repr, Inhabited

/-- One error-pair input of the collector: what it last saw, its judgement, and whether it is masked. -/
structure PairIn where
  t : Bool
  c : Bool
  judged : Judgement
  masked : Bool
deriving DecidableEq, Repr, Inhabited

/-- An ash record before and after it is written (Table 17.6). -/
structure AshRec where
  seq : Nat
  trigger : Nat
  cls : Nat
  snaps : List Word
  hours : Nat
  cycles : Nat
  uptimeMs : Nat
  source : Element
  suppressed : Nat
  dropped : Nat
  detail : List Nat       -- the items of Table 17.7, in the table's order
  pversion : Nat
  listCrc : Word
deriving DecidableEq, Repr, Inhabited

/-- What the health log notes (the log's entry form is not stated; each entry is named). -/
inductive HealthEvent where
  | spareUsed (e : Element)
  | headState (surface : Nat) (st : HeadState)
  | actuatorLeft (act cause : Nat)
  | redundancyRestored
  | reflowShort
  | lostServo (act : Nat)
  | recatch
  | restart
  | startFailed
  | vcapBanked
  | degraded
  | microactuator (head : Nat)
  | accelerometer (n : Nat)
  | damaged (objectId version : Nat)
  | checker (kind : Nat)
  | bankNoted (bank : Nat)
  | blockRefused (block reason ofs : Nat)
  | class1 (e : Element)
  | class2 (e : Element)
  | prior3 (cause : Nat)
  | dip
deriving DecidableEq, Repr, Inhabited

/-- What started a banking sequence (R515). -/
inductive BankCause where
  | marginWarn | vmotLoss | failStop | slowRotor
deriving DecidableEq, Repr, Inhabited

/-- Where the dirty leaves go (R516). -/
inductive BankDest where
  | rings | mram
deriving DecidableEq, Repr, Inhabited

/-- Where a banking of the spindle stands (R217): waiting for the dirty data, unloading, decelerating, phases shorted. -/
inductive BankPhase where
  | none | waitDirty | unloading | decel | shorted
deriving DecidableEq, Repr, Inhabited

/-- The window a register access comes through: the BAR2 window (R533), or the firmware of the hearth. -/
inductive Port where
  | bar2 | hearth
deriving DecidableEq, Repr, Inhabited

/-- What a register write brings beside its value, for the registers that act at once: how many bytes of a paused channel's
descriptor are not yet written and what host memory gives it (R297), the command that a shadow list moves data for (R295),
and what the core reset of an injected MARGIN_LOST finds (R506). -/
structure WriteEnv where
  left : Nat
  host : List Byte
  ctx : Option (Fin 4096)
  boot : Boot
deriving DecidableEq, Repr, Inhabited

/-- What the collector sees of one error pair on two consecutive MOTOR clocks (R487). -/
structure PairSample where
  input : Fin 384
  t1 : Bool
  c1 : Bool
  t2 : Bool
  c2 : Bool
deriving DecidableEq, Repr, Inhabited

/-- One current sample of the spindle bridge (R191): the phase currents in the stationary frame, in amperes, and whether
an electrical period ends with this cycle. -/
structure CurSample where
  iAlpha : Qty
  iBeta : Qty
  periodEnd : Bool
  emfA : Qty := 0     -- back-EMF of each phase against the centre tap, V (R193): read while the phases are at high impedance
  emfB : Qty := 0
  emfC : Qty := 0
deriving DecidableEq, Repr, Inhabited

/-- The back-EMF observer of R192: the rotor angle as its cosine and sine, the electrical speed in radians per second,
and the phase currents it predicts for the next sample, in amperes. -/
structure Observer where
  cosA : Qty
  sinA : Qty
  omega : Qty
  predAlpha : Qty
  predBeta : Qty
deriving DecidableEq, Repr, Inhabited

/-- What the centre tap shows over the 20 ms of a start measurement (R193, R212): each phase's back-EMF amplitude in millivolts,
its zero crossings in order, as phase and instant in seconds, and the three phases' back-EMF in volts at the end. The phases
are numbered in the order in which they are wired for forward turning. -/
structure EmfSeen where
  ampA : Qty
  ampB : Qty
  ampC : Qty
  crossings : List (Fin 3 × Qty)
  emfA : Qty
  emfB : Qty
  emfC : Qty
deriving DecidableEq, Repr, Inhabited

/-- What one accelerometer answers (R176): a value in units of g, full scale, or nothing. -/
inductive AccReading where
  | value (g : Qty) | full | silent
deriving DecidableEq, Repr, Inhabited

/-- The state estimator of an actuator loop (R163): position, velocity and bias current, and the position it predicts
for the next sample. -/
structure Estimator where
  pos : Qty
  vel : Qty
  bias : Qty
  pred : Qty
deriving DecidableEq, Repr, Inhabited

/-- One resonance of the profile's table RES (R163): frequency in Hz, damping and depth. -/
structure Notch where
  freq : Qty
  damping : Qty
  depth : Qty
deriving DecidableEq, Repr, Inhabited

/-- The discrete coefficients of an actuator's loop for one speed (R164): its wedge period in seconds, the coefficients of the
control law, and those of each notch filter. -/
structure CoefSet where
  period : Qty
  law : List Qty
  notch : List (List Qty)
deriving DecidableEq, Repr, Inhabited

/-- What the mirror in the MOTOR island holds of the engine that runs the spindle (R183): observer, integrators, reference,
current commands and phase voltages. -/
structure SpnMirror where
  obs : Observer := ⟨1, 0, 0, 0, 0⟩
  regD : Qty := 0
  regQ : Qty := 0
  intQ : Qty := 0
  reference : Qty := 0
  cmdD : Qty := 0
  cmdQ : Qty := 0
  vAlpha : Qty := 0
  vBeta : Qty := 0
deriving DecidableEq, Repr, Inhabited

/-- A seek in progress (R173 to R175): distance, T_min, the time run so far, and whether it still qualifies. -/
structure Seek where
  d : Qty
  tMin : Qty
  elapsed : Qty
  clean : Bool
deriving DecidableEq, Repr, Inhabited

/-! ## Spindle, servo -/

/-- Spindle states of Table 8.1. -/
inductive SpnState where
  | banked | starting | running | changing | recatch | restart | decelerating | degraded
deriving DecidableEq, Repr, Inhabited

/-- MODE of the spindle role (Table 8.14). -/
inductive SpnMode where
  | off | measuring | braking | openLoop | closedLoop | highZ | regenerating | frozen
deriving DecidableEq, Repr, Inhabited

/-- What the 20 ms back-EMF measurement shows (R212). -/
inductive RotorFound where
  | atRest
  | forward (rpm : Qty)
  | backward (rpm : Qty)
  | indeterminate
deriving DecidableEq, Repr, Inhabited

/-- What runs the spindle (R225). -/
inductive SpnDriver where
  | d4 | d5 | lockstepPair (n : Nat) | bellows
deriving DecidableEq, Repr, Inhabited

/-- MODE of an actuator role (Table 7.4). -/
inductive ActMode where
  | unloaded | loading | seek | settle | track | coast | reacquire | unloading
deriving DecidableEq, Repr, Inhabited

/-- A crossing of the mid-level (R159): the sample before it, counted in bit periods from the wedge's predicted first cell,
and the two samples on either side. -/
structure Crossing where
  bit : Int
  before : Int
  after : Int
deriving DecidableEq, Repr, Inhabited

/-- What one reader shows at a wedge (R159): the states read cell by cell from a cell on, cell 0 being the wedge's predicted
first cell, and the first 0-to-1 crossing of each of the bursts A to D. -/
structure ReaderSample where
  first : Int
  cells : List Bool
  a : Crossing
  b : Crossing
  c : Crossing
  d : Crossing
deriving DecidableEq, Repr, Inhabited

/-- A reader's wedge demodulated (R159): where its address mark begins, in cells from the predicted place, the bits of its wedge
number and of its Gray-coded track, and the intervals between the timing points of its bursts, in bit periods. -/
structure Demod where
  ofs : Int
  wedge : BitVec 10
  gray : BitVec 24
  tAB : Qty
  tAC : Qty
  tCD : Qty
deriving DecidableEq, Repr, Inhabited

/-- What the two readers show at one wedge, with the measured wedge period in seconds. -/
structure WedgeSample where
  lead : ReaderSample
  trail : ReaderSample
  period : Qty
deriving DecidableEq, Repr, Inhabited

/-! ## Write gate (R142 to R144) -/

/-- Where an edge of write gate lies in a wedge (Table 6.1): at a cell, or at the beginning of a data bit of its data field; the
data bit of number D_z is the field's end, after bit D_z − 1. -/
inductive GateEdge where
  | cell (n : Nat) | dataBit (n : Nat)
deriving DecidableEq, Repr, Inhabited

/-- One period of write gate high: the data field it lies in, as a count of data fields from the first of the track's stream; its
edges, none where the gate stays high from the frame before or into the frame after; the bits driven, from the first data bit
under the gate; and each transition with the amount in 1/64 of a bit period that precompensation shifts it earlier. -/
structure GatePulse where
  field : Nat
  rise : Option GateEdge
  fall : Option GateEdge
  bits : List Bool
  moves : List (Nat × Nat)
deriving DecidableEq, Repr, Inhabited

/-! ## Sequencers -/

/-- Micro-trap causes in priority order (Table 11.5). -/
inductive TrapCause where
  | banking | recall | abandon | lostServo | shock | preamp | writeAbort | pause
deriving DecidableEq, Repr, Inhabited

/-- Conditions of Table 11.4; `internal` for a code internal to the pipeline (R320). -/
inductive SeqCond where
  | wedge | frameAt | located | storeRoom | leafHeld | onTrack | wrPermit | headReady | release | shockClear
  | internal (code : BitVec 6)
deriving DecidableEq, Repr, Inhabited

/-- MODE of a sequencer (Table 11.9). -/
inductive SeqMode where
  | quiet | running | waiting | trap
deriving DecidableEq, Repr, Inhabited

/-- A routine start: an entry point and eight parameter words (R315), with the request it serves and its activity. -/
structure RoutineStart where
  entry : BitVec 14
  params : List Word
  req : Option ReqId
  activity : Nat          -- 0 host work; 1 scrub, 2 reclaim, 3 relocation, 4 reflow (Table 2.7)
deriving DecidableEq, Repr, Inhabited

/-- The micro-state of a save record (R321). -/
structure MicroState where
  pc : BitVec 14
  resume : BitVec 14
  stack : List (BitVec 14)
  loops : Vector (BitVec 16) 4
  regs : Vector Word 16
  flags : Word
deriving DecidableEq, Repr, Inhabited

/-- A microcode patch as its signed image gives it (R328): BASE, PATCH, the words of both stores it changes and the
store CRC of its header. -/
structure Patch where
  base : BitVec 16
  level : BitVec 8
  micro : List (Nat × BitVec 24)
  nano : List (Nat × BitVec 128)
  crc : Word
deriving DecidableEq, Repr, Inhabited

/-- What an access finds in a word that carries SEC-DED check bits (R269). -/
inductive WordErr where
  | clean
  | corrected (syndrome : Byte)
  | uncorrectable (syndrome : Byte)
deriving DecidableEq, Repr, Inhabited

/-- The array whose word the patrol reaches: the hob, the firebrick, a tag of the read cache (set, way, word), or the
LPDDR5X, where the word lies in a second-level line or in an index copy (R270, R273, R303). -/
inductive EccArray where
  | hob | firebrick
  | tags (set way word : Nat)
  | lpddr (line : Option (Nat × Nat))
deriving DecidableEq, Repr, Inhabited

/-- A read cache line's state (Table 10.3). An INVALID unlocked line is not listed. -/
inductive LineState where
  | filling | valid | evicting
deriving DecidableEq, Repr, Inhabited

/-- A read cache line (R278, R279): its set and way, the stripe and piece it is keyed by, the eight sub-block valid bits,
its lock and the pins of requests that read it. A locked line with no valid bit set is locked-empty (R286). -/
structure Line where
  set : Nat
  way : Nat
  state : LineState
  stripe : Nat
  piece : Nat
  valid : BitVec 8
  locked : Bool
  pins : Nat
  leaf : Option Leaf
  retag : Option (Nat × Nat)  -- the address an EVICTING line is retagged to
  noValid : Bool           -- a range operation covered it while FILLING (R285)
  promoted : Bool          -- filled from the second-level cache (R282)
deriving DecidableEq, Repr, Inhabited

end Sys2Proof.Machine
end

