-- ==== Sys2Proof/Syntax.lean ====
section
/-! DEFINITION. The commands: one constructor for each row of spec/opcode_table.json, with what the row's event carries from
outside: the command context, the packet, the samples or measurements, the element it names. -/
namespace Sys2Proof

/-- The commands that the block takes, in the order of the table. -/
inductive Instr where
  /-- SQ_DOORBELL_WRITE (R350): Host writes a submission queue tail doorbell; an invalid write is ignored and raises an asynchronous event. -/
  | sqDoorbellWrite (q : Fin 65) (value : Fin 65536)
  /-- CQ_DOORBELL_WRITE (R350): Host writes a completion queue head doorbell, which frees entries for waiting completions. -/
  | cqDoorbellWrite (q : Fin 65) (value : Fin 65536)
  /-- COMMAND_ACCEPT (R352): The queue engine fetches a command and assigns it a context and an acceptance number, which fixes its place in the acceptance order; this may happen later, once a context frees. -/
  | commandAccept (q : Fin 65) (e : Machine.SqEntry)
  /-- COMPLETION_POST (R351): A completion is posted once its completion queue has room; until then it waits in the trivet completion staging. -/
  | completionPost (c : Fin 4096)
  /-- CC_EN_SET (R345): Host sets CC.EN; CSTS.RDY rises within CAP.TO without waiting for the spindle. -/
  | ccEnSet (asqSize acqSize : Fin 4096) (ams : Fin 2) (mps : Fin 5)
  /-- CC_EN_CLEAR (R364): Host clears CC.EN; fetching stops, outstanding commands are abandoned and I/O queues are deleted. -/
  | ccEnClear
  /-- CC_SHN_SHUTDOWN (R365): Normal or abrupt shutdown through CC.SHN: commands are completed or abandoned, dirty data is written home, actuators unload and SHST is set. -/
  | ccShnShutdown (abrupt : Bool)
  /-- FUNCTION_LEVEL_RESET (R364): A function-level reset resets the controller and abandons outstanding commands; media and dirty data are not affected. -/
  | functionLevelReset
  /-- HOT_RESET_LINK_DOWN (R364): A hot reset or link down retrains the link and resets the controller, abandoning its commands. -/
  | hotResetLinkDown
  /-- PERST_ASSERT (R364): PERST# asserted holds the HOST island in reset and abandons outstanding commands. -/
  | perstAssert
  /-- DELETE_IO_SQ (R367): Delete I/O Submission Queue: accepted commands complete, unfetched entries complete with Command Aborted due to SQ Deletion. -/
  | deleteIoSq (c : Fin 4096) (cids : List (BitVec 16))
  /-- CREATE_IO_SQ (R347): Create I/O Submission Queue within the stated queue limits. -/
  | createIoSq (c : Fin 4096)
  /-- DELETE_IO_CQ (R359): Delete I/O Completion Queue as NVMe defines. -/
  | deleteIoCq (c : Fin 4096)
  /-- CREATE_IO_CQ (R347): Create I/O Completion Queue with its MSI-X vector, within the queue limits. -/
  | createIoCq (c : Fin 4096)
  /-- GET_LOG_PAGE (R359): Get Log Page returns one of the supported log pages. -/
  | getLogPage (c : Fin 4096)
  /-- IDENTIFY (R359): Identify returns the data structure of a supported CNS value. -/
  | identify (c : Fin 4096)
  /-- ABORT (R360): Abort never aborts; it completes successfully with DW0 bit 0 set to say not aborted. -/
  | abort (c : Fin 4096)
  /-- SET_FEATURES (R359): Set Features on a supported feature; Volatile Write Cache is refused. -/
  | setFeatures (c : Fin 4096)
  /-- GET_FEATURES (R359): Get Features returns a supported feature value. -/
  | getFeatures (c : Fin 4096)
  /-- ASYNCHRONOUS_EVENT_REQUEST (R359): Asynchronous Event Request stays outstanding, up to 4 at once, until an event is posted. -/
  | asynchronousEventRequest (c : Fin 4096)
  /-- FIRMWARE_IMAGE_DOWNLOAD (R359): Firmware Image Download moves a piece of an image at 4 KiB granularity. -/
  | firmwareImageDownload (c : Fin 4096) (data : List Byte)
  /-- FIRMWARE_COMMIT (R370): Firmware Commit verifies the image and, for action 011b, stops fetching and recalls every sequencer to activate without a reset. -/
  | firmwareCommit (c : Fin 4096)
  /-- FIRMWARE_ACTIVATION_RESUME (R371): An activation that waited for a banking sequence to end proceeds once it has ended. -/
  | firmwareActivationResume
  /-- FIRMWARE_ACTIVATION_COMPLETE (R370): The new image and sequencer stores are loaded, recalled routines are reissued, fetching resumes and the commit completes. -/
  | firmwareActivationComplete
  /-- FORMAT_NVM (R369): Format NVM reformats the whole drive in Joveox, optionally with crypto erase, unless retention is in force. -/
  | formatNvm (c : Fin 4096)
  /-- SANITIZE (R368): Sanitize starts a crypto erase or overwrite followed by a format, unless retention is in force. -/
  | sanitize (c : Fin 4096)
  /-- MEDIA_OPERATION_PROGRESS (R442): A sanitize or format stage completes a ring or a step and updates the progress record, then ends when the format is complete. -/
  | mediaOperationProgress (ok : Bool)
  /-- CYZON_RECEIVE (R428): Cyzon Receive returns the latest reply held for a tag. -/
  | cyzonReceive (c : Fin 4096)
  /-- ATTESTATION_NONCE (R466): Security Send with ComID 0004h delivers a 32-byte verifier nonce. -/
  | attestationNonce (c : Fin 4096) (data : List Byte)
  /-- ATTESTATION_REPORT_READ (R466): Security Receive with ComID 0004h returns the signed attestation report. -/
  | attestationReportRead (c : Fin 4096)
  /-- CERTIFICATE_CHAIN_READ (R466): Security Receive with ComID 0005h returns the device certificate chain. -/
  | certificateChainRead (c : Fin 4096)
  /-- LIFECYCLE_CHALLENGE_READ (R477): Security Receive with ComID 0001h returns a fresh 32-byte challenge. -/
  | lifecycleChallengeRead (c : Fin 4096)
  /-- LIFECYCLE_TOKEN (R477): Security Send with ComID 0002h delivers a transition token; an accepted token blows fuses, wipes the firebrick, makes dirty data durable and resets the device. -/
  | lifecycleToken (c : Fin 4096) (data : List Byte) (boot : Machine.Boot)
  /-- INTEGRATOR_KEY_ENROL (R479): Security Send with ComID 0003h enrols the integrator public key and resets the authorization counter. -/
  | integratorKeyEnrol (c : Fin 4096) (key : List Byte) (sig : Option (List Byte))
  /-- LEVEL0_DISCOVERY (R472): Opal Level 0 Discovery returns the supported features. -/
  | level0Discovery (c : Fin 4096)
  /-- PROPERTIES (R472): Opal Properties exchanges communication properties. -/
  | properties (c : Fin 4096)
  /-- START_SESSION (R472): Opal StartSession opens the single session allowed. -/
  | startSession (c : Fin 4096) (sp : Machine.OpalSp) (write : Bool) (auth : Option (Machine.Authority × List Byte))
  /-- END_SESSION (R472): Opal EndSession closes the session. -/
  | endSession (c : Fin 4096)
  /-- AUTHENTICATE (R472): Opal Authenticate checks a C_PIN credential, locking the authority after TryLimit failures. -/
  | authenticate (c : Fin 4096) (a : Machine.Authority) (pin : List Byte)
  /-- OPAL_GET (R472): Opal Get reads table cells. -/
  | opalGet (c : Fin 4096) (cells : List Machine.OpalCell)
  /-- OPAL_SET (R470): Opal Set changes table cells such as range bounds and locks; a lock change takes its place in the acceptance order. -/
  | opalSet (c : Fin 4096) (sets : List (Machine.OpalCell × List Byte))
  /-- OPAL_NEXT (R472): Opal Next enumerates table rows. -/
  | opalNext (c : Fin 4096) (table : Option Nat) (from_ count : Nat)
  /-- GEN_KEY (R473): Opal GenKey replaces a range key and deletes its versions in one atomic ember step, unless retention prevents it. -/
  | genKey (c : Fin 4096) (r : Fin 65)
  /-- OPAL_RANDOM (R472): Opal Random returns up to 32 DRBG bytes. -/
  | opalRandom (c : Fin 4096) (n : Nat)
  /-- OPAL_ACTIVATE (R472): Opal Activate activates the Locking SP. -/
  | opalActivate (c : Fin 4096)
  /-- REVERT (R473): Opal Revert replaces every range key and deletes the affected versions, unless retention prevents it. -/
  | revert (c : Fin 4096)
  /-- REVERT_SP (R473): Opal RevertSP replaces every range key as Revert does. -/
  | revertSp (c : Fin 4096)
  /-- PUT_OPEN (R386): Put Open assigns a version number and opens a session slot recorded in the ember. -/
  | putOpen (c : Fin 4096)
  /-- PUT_DATA (R388): Put Data checks the offset, reserves media space and dirty data, and appends bytes to the session, which completes when they are staged and absorbed. -/
  | putData (c : Fin 4096) (data : List Byte)
  /-- PUT_COMMIT (R393): Put Commit seals the last leaf and atomically writes the version record, making the version live. -/
  | putCommit (c : Fin 4096) (expected : List Byte)
  /-- PUT_ABORT (R394): Put Abort ends the session, retires its version number and releases its dirty data. -/
  | putAbort (c : Fin 4096)
  /-- GET (R400): Get returns a range of a version, optionally as part of a stream, checking the digest when the whole version is covered. -/
  | get (c : Fin 4096)
  /-- STAT (R405): Stat returns the 384-byte record of a version. -/
  | stat (c : Fin 4096)
  /-- LIST (R406): List returns keys, versions or sessions in key order after a start point. -/
  | list (c : Fin 4096)
  /-- COPY (R407): Copy makes a new version of the destination key from stored versions with move semantics. -/
  | copy (c : Fin 4096)
  /-- DELETE (R410): Delete atomically marks the named versions deleted unless a hold or retention is in force. -/
  | delete (c : Fin 4096)
  /-- HOLD (R411): Hold sets or clears the legal hold and extends retention of the named versions. -/
  | hold (c : Fin 4096)
  /-- SYNC (R398): Sync makes durable everything of a key, or of every key, that was acknowledged before it was fetched. -/
  | sync (c : Fin 4096)
  /-- RECEIPT (R412): Receipt returns a fixity receipt signed with the identity key, after a full media check when AUDIT is 1. -/
  | receipt (c : Fin 4096)
  /-- FLUSH (R363): Flush on either namespace makes durable every leaf whose command completed before it was fetched. -/
  | flush (c : Fin 4096)
  /-- ZONE_WRITE (R420): A zoned Write is checked against the write pointer at acceptance and appends its bytes. -/
  | zoneWrite (c : Fin 4096) (data : List Byte)
  /-- ZONE_READ (R421): A zoned Read returns the stored bytes below the write pointer and zeros above it. -/
  | zoneRead (c : Fin 4096)
  /-- ZONE_APPEND (R420): Zone Append takes the write pointer at acceptance as its LBA and appends its bytes. -/
  | zoneAppend (c : Fin 4096) (data : List Byte)
  /-- ZONE_OPEN (R422): Zone Management Send Open makes a zone explicitly open, within the active limit. -/
  | zoneOpen (c : Fin 4096)
  /-- ZONE_CLOSE (R422): Zone Management Send Close closes an open zone. -/
  | zoneClose (c : Fin 4096)
  /-- ZONE_FINISH (R423): Finish sets the write pointer to ZCAP, closes the stripe with filler, and writes the group and zone records. -/
  | zoneFinish (c : Fin 4096)
  /-- ZONE_RESET (R424): Reset deletes the zone version, frees its groups and returns the zone to Empty. -/
  | zoneReset (c : Fin 4096)
  /-- REPORT_ZONES (R419): Zone Management Receive returns a Report Zones list. -/
  | reportZones (c : Fin 4096)
  /-- RESULT (R427): Cyzon RESULT returns the latest reply for a tag. -/
  | result (p : Machine.CyzonPath) (pkt : List Byte)
  /-- IDENTIFY_CYZON (R432): Cyzon IDENTIFY returns serial, life-cycle state, firmware and profile versions. -/
  | identifyCyzon (p : Machine.CyzonPath) (pkt : List Byte)
  /-- HEALTH (R433): Cyzon HEALTH returns the 80-byte health reply. -/
  | health (p : Machine.CyzonPath) (pkt : List Byte)
  /-- IRATE_MEASURE (R103): Cyzon IRATE_MEASURE measures the information rate of one head and zone. -/
  | irateMeasure (p : Machine.CyzonPath) (pkt : List Byte)
  /-- CHECKER_TEST (R131): Cyzon CHECKER_TEST requests a leaf checker test with the flip-mask fields. -/
  | checkerTest (p : Machine.CyzonPath) (pkt : List Byte)
  /-- PROFILE_LOAD (R435): Cyzon PROFILE_LOAD places a profile chunk in the hob staging area. -/
  | profileLoad (p : Machine.CyzonPath) (pkt : List Byte)
  /-- PROFILE_ACTIVATE (R436): Cyzon PROFILE_ACTIVATE checks the staged profile and writes it to the inactive flash slot. -/
  | profileActivate (p : Machine.CyzonPath) (pkt : List Byte)
  /-- PROFILE_ACTIVATE_RESUME (R437): A profile activation held during a banking sequence or firmware activation proceeds once that ends. -/
  | profileActivateResume
  /-- COMMIT (R440): Cyzon COMMIT stores the overlay and the CRC reference and closes the edit window when EXPECT matches. -/
  | commit (p : Machine.CyzonPath) (pkt : List Byte)
  /-- REG_READ (R438): Cyzon REG_READ reads 1-256 consecutive words of one block. -/
  | regRead (p : Machine.CyzonPath) (pkt : List Byte)
  /-- REG_WRITE (R438): Cyzon REG_WRITE writes one register, optionally preceded by the key. -/
  | regWrite (p : Machine.CyzonPath) (pkt : List Byte)
  /-- MEDIA_PROGRESS (R441): Cyzon MEDIA_PROGRESS returns the sanitize or format progress record. -/
  | mediaProgress (p : Machine.CyzonPath) (pkt : List Byte)
  /-- AUDIT_START (R444): Cyzon AUDIT_START takes a snapshot and starts a fixity audit over a scope. -/
  | auditStart (p : Machine.CyzonPath) (pkt : List Byte)
  /-- AUDIT_VERSION_CHECK (R445): The audit checks one version from the media and produces its entry, pausing while the kept-entry buffer is full. -/
  | auditVersionCheck
  /-- AUDIT_ENTRIES (R445): Cyzon AUDIT_ENTRIES returns and removes kept audit entries. -/
  | auditEntries (p : Machine.CyzonPath) (pkt : List Byte)
  /-- AUDIT_SUMMARY (R446): Cyzon AUDIT_SUMMARY returns a signed audit summary. -/
  | auditSummary (p : Machine.CyzonPath) (pkt : List Byte)
  /-- PIN (R450): Cyzon PIN records a version in the pin list, so that its cache lines lock as they fill. -/
  | pin (p : Machine.CyzonPath) (pkt : List Byte)
  /-- UNPIN (R450): Cyzon UNPIN ends a pin. -/
  | unpin (p : Machine.CyzonPath) (pkt : List Byte)
  /-- HOLD_CLEAR (R432): Cyzon HOLD_CLEAR, authorized, clears the legal hold of a version or a key. -/
  | holdClear (p : Machine.CyzonPath) (pkt : List Byte)
  /-- EXPORT_OPEN (R451): Cyzon EXPORT_OPEN opens or resumes an export with a snapshot. -/
  | exportOpen (p : Machine.CyzonPath) (pkt : List Byte)
  /-- EXPORT_READ (R452): Cyzon EXPORT_READ returns the next container bytes, reading and checking versions as needed. -/
  | exportRead (p : Machine.CyzonPath) (pkt : List Byte)
  /-- EXPORT_CLOSE (R451): Cyzon EXPORT_CLOSE discards the export state. -/
  | exportClose (p : Machine.CyzonPath) (pkt : List Byte)
  /-- LOG_READ (R503): Cyzon LOG_READ returns valid ash or health records by sequence number. -/
  | logRead (p : Machine.CyzonPath) (pkt : List Byte)
  /-- EN_SET (R538): Writing 1 to a block's EN runs its consistency check and enables it if accepted. -/
  | enSet (p : Machine.Port) (b : Fin 20)
  /-- EN_CLEAR (R540): Clearing EN is accepted only with the key in FACTORY_TEST or DIAGNOSTIC and ends condition 6 of R8. -/
  | enClear (p : Machine.Port) (b : Fin 20)
  /-- KEYLOCK_WRITE (R543): Writing C3A5h to KEYLOCK arms the block's key; any other write to the block consumes it. -/
  | keylockWrite (p : Machine.Port) (b : Fin 20) (w : Word)
  /-- REGISTER_WRITE (R539): A write to a register with no behaviour of its own is decoded, checked in an enabled block and stored, opening the edit window for CK fields. -/
  | registerWrite (p : Machine.Port) (b : Fin 256) (o : Fin 16384) (be : BitVec 4) (ws : List Word) (e : Machine.WriteEnv)
  /-- SHD_VALID_WRITE (R295): Setting SHD_VALID loads and checks a flue channel's shadow descriptor list. -/
  | shdValidWrite (p : Machine.Port) (n : Fin 40) (c : Option (Fin 4096))
  /-- PAUSE_WRITE (R297): Setting or clearing PAUSE of a flue channel stops reads and makes the registers exact, or resumes from them. -/
  | pauseWrite (p : Machine.Port) (n : Fin 40) (on : Bool) (left : Nat) (host : List Byte)
  /-- FLT_INJ_GO (R506): Setting GO of FLT_INJ_CTL in FACTORY_TEST injects one fault of the given kind. -/
  | fltInjGo (p : Machine.Port) (kind : Fin 8) (duration : Fin 256) (target : Fin 65536) (b : Machine.Boot)
  /-- FAULT_INJECT_END (R506): The injection ends when its DURATION expires, and GO clears. -/
  | faultInjectEnd
  /-- ACT_FLIP_ARM (R132): Setting ARM of ACTn_FLIP_CTL checks the test settings and arms a leaf checker test. -/
  | actFlipArm (p : Machine.Port) (n mode : Fin 4) (span : Fin 4096)
  /-- CHECKER_TEST_RUN (R131): At the actuator's next idle moment the armed test writes a scratch leaf with flipped bits, reads it back and reports the outcome. -/
  | checkerTestRun (act : Fin 4) (soft : Option (List Machine.Soft)) (dead : Bool) (grate : Fin 14)
  /-- HOB_FLIP_ARM (R277): Setting ARM of HOB_FLIP_CTL checks the masks and arms a test on one scratch word. -/
  | hobFlipArm (p : Machine.Port) (check : BitVec 8) (word : Fin 2048)
  /-- HOB_FLIP_WORD_WRITE (R276): The next write to the armed scratch word stores the data and check bits xored with the masks. -/
  | hobFlipWordWrite (data : DWord)
  /-- HOB_FLIP_WORD_READ (R276): The next read of the armed word reports RESULT and clears ARM. -/
  | hobFlipWordRead (dead : Bool)
  /-- IRATE1_READ (R108): A read of ACTn_IRATE1 captures ACTn_IRATE0 from the same measurement. -/
  | irate1Read (act : Fin 4)
  /-- CE_LOG_WORD0_READ (R141): A read of word 0 of a correctable-error log entry captures words 1-3 of that entry. -/
  | ceLogWord0Read (p : Machine.Port) (k : Fin 6) (entry : Fin 16)
  /-- DMP_STAT_READ (R185): A read of DMPn_STAT captures DMPn_POS and DMPn_PES, or DMPn_CUR in the spindle role, from the same sample. -/
  | dmpStatRead (p : Machine.Port) (n : Fin 6)
  /-- EDIT_WINDOW_EXPIRE (R439): The 10 s edit window runs out without a commit, and the comparison resumes. -/
  | editWindowExpire
  /-- CONFIG_CRC_COMPARE (R439): Every 1 ms the configuration CRC is compared with the reference; a mismatch reloads the CK registers as a class 2 or 3 fault. -/
  | configCrcCompare (live again : Option Word)
  /-- DRAFT_UPDATE (R33): Every 10 ms the raw demand and draft are computed, the speed target is evaluated and the banking timer runs. -/
  | draftUpdate
  /-- BANKING_TIMER_EXPIRE (R202): The draft has stayed below T_BANK for BANK_S seconds, and the spindle banks. -/
  | bankingTimerExpire
  /-- START_MEASURE_DONE (R212): After the 20 ms measurement the rotor state is classified and position detection, catch or braking follows. -/
  | startMeasureDone (m : Machine.EmfSeen) (rises : List Qty)
  /-- ROTOR_ALIGN_DONE (R214): After holding ALIGN_I for 300 ms, the open-loop start begins from the aligned angle. -/
  | rotorAlignDone
  /-- OBSERVER_HANDOVER (R215): After 4 clean electrical periods above 300 rpm, control passes from the forced angle to the observer. -/
  | observerHandover
  /-- REST_DECLARED (R212): The back-EMF has stayed below REST_MV for 100 ms, and the rotor is declared at rest. -/
  | restDeclared (rises : List Qty)
  /-- CURRENT_LOOP_CYCLE (R191): Each current sample, D4 transforms the currents, regulates I_d and I_q, sets the phase voltages and updates the observer. -/
  | currentLoopCycle (smp : Machine.CurSample) (vm : Qty)
  /-- SPEED_LOOP_CYCLE (R196): Every eighth current cycle the speed loop sets the I_q command with feed-forward terms. -/
  | speedLoopCycle
  /-- RECATCH_COMPLETE (R221): A re-catch succeeds after four clean periods within speed, or fails and starts the next. -/
  | recatchComplete
  /-- SPEED_SETTLED (R199): The speed has stayed within ±0.05 % for 16 wedges, and the state returns to Running. -/
  | speedSettled
  /-- SPEED_TARGET_APPLY (R198): Once the dirty data is within the new limit and all ACT islands have acknowledged, D4 ramps the reference to the new target. -/
  | speedTargetApply
  /-- TARGET_CHANGE_ACK (R147): An ACT write path finishes its frame in progress and acknowledges a pending speed change. -/
  | targetChangeAck (act : Fin 4)
  /-- VCAP_UPDATE (R209): Every 10 ms v_cap is computed from VMOT, capping the target, applying field weakening or banking the spindle. -/
  | vcapUpdate (vm : Qty)
  /-- VCAP_RECOVER_START (R211): v_cap has stayed at F or above for 1 s, and a spindle banked by the cap may start again. -/
  | vcapRecoverStart
  /-- COPPER_LOSS_MEASURE (R226): After 65,536 current cycles in Running, the copper-loss ratio is computed. -/
  | copperLossMeasure
  /-- COG_TABLE_SWITCH (R220): At least 60 s after the last switch, at a wedge boundary, the background COG and FRIC tables become current. -/
  | cogTableSwitch
  /-- SERVO_SAMPLE (R163): At each wedge the demodulator forms a position sample and the damper engine runs its control step. -/
  | servoSample (act : Fin 4) (w : Machine.WedgeSample)
  /-- ACTUATOR_OUTPUT_UPDATE (R168): At each quarter of the wedge period, the voice-coil and microactuator commands are updated. -/
  | actuatorOutputUpdate (act : Fin 4) (bridge : Bool)
  /-- LOST_SERVO (R180): After LOST_N missed samples, servo is lost: bias only, microactuator to 0 V, micro-trap and full-wedge search. -/
  | lostServo (act : Fin 4)
  /-- LOST_SERVO_TIMEOUT (R180): No valid sample within 480 samples of the loss, and the actuator is unloaded and reloaded. -/
  | lostServoTimeout (act : Fin 4)
  /-- DAMPER_MIRROR_CHECK (R183): A supervising lockstep pair recomputes one sample in 256 from the mirror and declares the engine faulty on a difference. -/
  | damperMirrorCheck (engine : Fin 6) (c1 c2 : Int)
  /-- ACCELEROMETER_SAMPLE (R176): Every 20 µs both accelerometers are read, rotational-vibration feed-forward is updated and shock is judged. -/
  | accelerometerSample (a0 a1 : Machine.AccReading)
  /-- SHOCK_CLEAR (R178): Both accelerometers have stayed below SHOCK_G/2 for 2 ms with every actuator on track, and SHOCK clears. -/
  | shockClear
  /-- SEEK_REQUEST (R173): A sequencer requests a seek or head switch and the damper engine starts a trajectory. -/
  | seekRequest (act : Fin 4) (p : Machine.Pos) (write : Bool)
  /-- HEAD_SWITCH (R155): At a head switch the preamplifier is written with the head select and per-head values, and the channel state record loads. -/
  | headSwitch (act : Fin 4) (zone : Nat) (diodes : Qty × Qty) (ok : Bool)
  /-- HEAD_LOAD (R181): Heads are loaded from the ramp under back-EMF velocity control once the spindle reaches 3,600 rpm. -/
  | headLoad (act : Fin 4)
  /-- HEAD_UNLOAD (R181): Heads are unloaded to the ramp under back-EMF velocity control. -/
  | headUnload (act : Fin 4)
  /-- PARK_RELEASE (R181): After holding PARK_I for 50 ms at the ramp stop, the current is removed. -/
  | parkRelease (act : Fin 4)
  /-- MICROACTUATOR_GAIN_MEASURE (R170): At head load and every 10 minutes of tracking, the microactuator gain is measured with an injected sinusoid. -/
  | microactuatorGainMeasure (act : Fin 4) (m1 m2 m3 : List Qty)
  /-- BIAS_TABLE_SWITCH (R167): At least 60 s after the last switch, in track mode, the background BIAS and FRIC tables become current. -/
  | biasTableSwitch (act : Fin 4)
  /-- SHINGLE_READBACK (R179): After an abort towards the written track, the overlapped slots of the track below are read back before further writing. -/
  | shingleReadback (act : Fin 4) (soft : List (Option (List Machine.Soft)))
  /-- ROUTINE_START (R315): The hearth posts a routine to a sequencer's start register; it begins once the present routine ends. -/
  | routineStart (sq : Fin 5) (t : Machine.RoutineStart)
  /-- NEXT (R316): A NEXT microword executes its nanoword and continues at the next microword. -/
  | next (sq : Fin 5) (ce : Bool)
  /-- WAIT (R319): A WAIT microword holds until its condition is true or its timeout expires. -/
  | wait (sq : Fin 5) (ce : Bool)
  /-- WAIT_TIMEOUT (R319): A WAIT timeout of 2^(t-1) wedges expires and the condition reads false. -/
  | waitTimeout (sq : Fin 5)
  /-- BRT (R316): A BRT microword branches if the nanoword's condition is true. -/
  | brt (sq : Fin 5) (ce : Bool)
  /-- BRF (R316): A BRF microword branches if the nanoword's condition is false. -/
  | brf (sq : Fin 5) (ce : Bool)
  /-- CALL (R317): A CALL microword pushes the return address and jumps; a full stack declares the sequencer faulty. -/
  | call (sq : Fin 5) (ce : Bool)
  /-- RET (R317): A RET microword returns from the stack; an empty stack declares the sequencer faulty. -/
  | ret (sq : Fin 5) (ce : Bool)
  /-- LOOP (R316): A LOOP microword decrements a loop counter and branches while it is not zero. -/
  | loop (sq : Fin 5) (ce : Bool)
  /-- END (R315): An END microword ends the routine, sends a routine-end event and reaches a quiet point. -/
  | seqEnd (sq : Fin 5) (ce : Bool)
  /-- CONTROL_STORE_RELOAD (R318): A word with a double-bit error is reloaded from the master copy and the fetch is retried. -/
  | controlStoreReload (sq : Fin 5) (nano : Bool) (addr : Nat)
  /-- SEQ_WATCHDOG (R332): WDOG × 1,024 microwords run with no WAIT, checkpoint or END, and the sequencer is declared faulty. -/
  | seqWatchdog (sq : Fin 5)
  /-- MICRO_TRAP (R321): A micro-trap writes the save record and runs the handler of the highest-priority cause. -/
  | microTrap (sq : Fin 5)
  /-- TRAP_RESUME (R322): When the cause's resume condition holds, the routine resumes at its checkpoint or at the exact microword. -/
  | trapResume (sq : Fin 5)
  /-- TABLE_SWITCH_REQUEST (R326): The hearth raises SWITCH_REQ, and each sequencer holds at its next quiet point. -/
  | tableSwitchRequest
  /-- TABLE_SWITCH (R326): Once every in-service sequencer holds, the ring-map and index pointers change in one HOB clock and HOLD clears. -/
  | tableSwitch
  /-- MICROCODE_PATCH (R328): A signed microcode patch is checked and accepted into the hob master copy. -/
  | microcodePatch (image : List Byte)
  /-- PATCH_APPLY_SEQUENCER (R329): At a sequencer's quiet point, the patch writes its stores and checks the CRC. -/
  | patchApplySequencer (sq : Fin 5)
  /-- READ_WINDOW_OPEN (R89): At the predicted frame start the read window opens and preamble acquisition runs. -/
  | readWindowOpen (req : Fin 8192) (leaf : Nat) (far : Bool)
  /-- FRAME_LOCATE (R94): After the mark search windows, the frame is located by the primary or secondary mark and header trials, with replay if needed. -/
  | frameLocate (act : Fin 4) (smp : Machine.Samples)
  /-- BLIND_REREAD (R96): On a later revolution a blind re-read tries the marks, then header offsets around the servo prediction. -/
  | blindReread (act : Fin 4) (smp : Machine.Samples)
  /-- CODEWORD_COMPLETE (R32): A codeword complete in the soft-value store joins the shared grate queue. -/
  | codewordComplete (act : Fin 4) (smp : Machine.Samples)
  /-- SLICE_MONITOR_BLOCK (R79): After each block of 65,536 samples, each ADC slice is compared with the median and replaced if it drifts. -/
  | sliceMonitorBlock (lane : Fin 10) (means squares : List Qty)
  /-- CHANNEL_STATE_RESTORE (R101): After four codewords with error power above 1.5 times the saved value, the saved record is restored at the next servo gap. -/
  | channelStateRestore (act : Fin 4)
  /-- FILTER_RETUNE (R100): Once the bit rate has moved 1 %, the low-pass cutoff and boost are re-tuned at the next servo gap. -/
  | filterRetune (act : Fin 4)
  /-- LANE_SPARE_SWITCH (R72): After at least four wedges in parallel, the reader's samples switch lanes at a servo gap and the old lane disconnects. -/
  | laneSpareSwitch (spare : Fin 2)
  /-- LANE_CALIBRATION (R73): In each LANE_CAL_PERIOD, an idle spare stands in while the next lane is calibrated online. -/
  | laneCalibration (spare : Fin 2) (m1 m2 m3 : Machine.LaneMeas)
  /-- LEAF_ENCODE (R112): A leaf crosses to the write path, is encoded and checked by the syndrome checker before counting as held. -/
  | leafEncode (act : Fin 4) (flips : List Nat)
  /-- FRAME_WRITE (R146): A frame starts when the leaf is held, the speed window holds and WR_PERMIT is present; write gate follows Table 6.1. -/
  | frameWrite (act : Fin 4) (rate : Qty)
  /-- FRAME_WRITE_COMPLETE (R151): A frame finishes writing and counts as written, or awaits its verify, by leaf kind. -/
  | frameWriteComplete (act : Fin 4)
  /-- VERIFY_READ (R151): On a later pass a written leaf is read back and verified, and a failure is rewritten or relocated. -/
  | verifyRead (act : Fin 4) (index : Nat) (soft : Option (List Machine.Soft))
  /-- PA_FAULT_ASSERT (R156): PA_FAULTn asserts; the frame is aborted, the status is read and the flags are acted on. -/
  | paFaultAssert (act : Fin 4) (flags : BitVec 8)
  /-- PA_WRITE_HOLD_EXPIRE (R156): After the 1 ms write hold for supply low or over-temperature, the status is read again. -/
  | paWriteHoldExpire (act : Fin 4) (flags : BitVec 8)
  /-- GRATE_TAKE_CODEWORD (R32): A free in-service grate takes the next eligible codeword from the queue. -/
  | grateTakeCodeword (grate : Fin 14)
  /-- GRATE_DECODE_DONE (R117): A grate converges or reaches its iteration limit, writes the leaf if converged and posts its result record. -/
  | grateDecodeDone (grate : Fin 14) (bad : Bool)
  /-- COLLECTOR_SERVE (R118): The collector serves one result entry, and the hob checks the leaf and releases it in order or moves it up the ladder. -/
  | collectorServe
  /-- GRATE_KAT_DUE (R126): After 65,536 codewords, an in-service grate runs its known-answer test. -/
  | grateKatDue (grate : Fin 14) (pass : Bool)
  /-- SPARE_GRATE_KAT (R126): Every hour, a spare grate runs its known-answer test. -/
  | spareGrateKat (grate : Fin 14) (pass : Bool)
  /-- SEQUENCER_KAT (R332): Every hour, an idle sequencer runs its known-answer routine. -/
  | sequencerKat (sq : Fin 5) (pass : Bool)
  /-- STRIPE_ENGINE_SOLVE (R244): Once the sources have arrived, the stripe engine solves for the missing pieces and checks them, retrying with new source sets. -/
  | stripeEngineSolve (src : Fin 8192)
  /-- COPY_FORWARD (R246): One source group's live leaves are copied into the open data group, indexed and switched, and the source group is freed. -/
  | copyForward (why : Machine.CopyWhy)
  /-- SCRUB_PASS (R130): A scheduled scrub reads a ring group at the scrub limit, logged leaves first, and reports relocation candidates. -/
  | scrubPass
  /-- CACHE_LINE_FILL (R282): A line fill completes and its valid bits are set after the leaf is checked. -/
  | cacheLineFill (set : Fin 48) (way : Fin 16) (subs : BitVec 8)
  /-- CACHE_EVICT_COMPLETE (R281): An EVICTING victim's pins clear and it is retagged and becomes FILLING. -/
  | cacheEvictComplete (set : Fin 48) (way : Fin 16)
  /-- HOB_PATROL_SCRUB (R270): The patrol scrub reads hob and firebrick words in idle cycles and writes corrected words back. -/
  | hobPatrolScrub (array : Machine.EccArray) (err : Machine.WordErr)
  /-- FLUE_DESCRIPTOR_DONE (R294): A flue channel finishes a descriptor, writes its status and moves to the next descriptor. -/
  | flueDescriptorDone (chan : Fin 40) (host : List Byte)
  /-- FLUE_BUS_ERROR (R298): A flue descriptor meets a bus error; host-data channels reissue, table channels stop and retry together. -/
  | flueBusError (chan : Fin 40) (atDst : Bool) (left : Nat) (host : List Byte)
  /-- ERROR_PAIR_REPORT (R487): The fault collector judges an error pair on two consecutive MOTOR clocks, classes the fault and starts its reaction. -/
  | errorPairReport (ps : List Machine.PairSample)
  /-- LOCKSTEP_WATCHDOG_LATE (R491): A lockstep pair's watchdog kick is more than 2 ms late, which counts as divergence. -/
  | lockstepWatchdogLate (n : Fin 2)
  /-- FAIL_STOP_BANK_LIMIT (R493): 500 ms after a class 3 declaration, unload and spindle stop begin at once if the banking step has not finished. -/
  | failStopBankLimit
  /-- HEARTBEAT_TOGGLE (R496): Every 500 µs HEARTBEAT toggles while firmware runs, CLASS3 is clear and the pairs kick the watchdog. -/
  | heartbeatToggle
  /-- ASH_RECORD_WRITE (R501): The ember writer takes the next record from its queue and writes it with MARK last. -/
  | ashRecordWrite
  /-- MARGIN_WARN (R515): A canary warns, MARGIN_WARN is raised and a banking sequence starts. -/
  | marginWarn (isl : Fin 10)
  /-- MARGIN_WARN_CLEAR (R511): Every canary has agreed for 1 µs, and MARGIN_WARN clears. -/
  | marginWarnClear
  /-- MARGIN_LOST (R511): A second-level canary fails, MARGIN_LOST starts a core reset, and tamper if a crypto operation runs. -/
  | marginLost (isl : Fin 10) (b : Machine.Boot)
  /-- VMOT_LOSS (R210): The bellows reports VMOT below 4.5 V, and a banking sequence starts with D4 regenerating. -/
  | vmotLoss
  /-- VIN_TRIAL (R517): Every 10 ms during a banking sequence, the buck input is moved back to VIN for a trial. -/
  | vinTrial
  /-- VIN_TRIAL_PASS (R517): No canary warns for 10 ms on VIN, and the trial passes. -/
  | vinTrialPass
  /-- VIN_NOT_BACK (R517): No trial has passed within 500 ms of the start, VIN counts as not back and no new ember write starts. -/
  | vinNotBack
  /-- BANKING_SEQUENCE_END (R517): The banking sequence ends by the first matching outcome of Table 18.2. -/
  | bankingSequenceEnd (vinLost : Bool)
  /-- VMOT_RETURN (R517): The bus watch has reported VMOT at 5.0 V or more for 100 ms, and the spindle may start again. -/
  | vmotReturn
  /-- POWER_ON_RESET (R520): VIN rises past 2.6 V, and power-up runs kindling, self-tests, firmware verification, profile load, ember state load and calibration. -/
  | powerOnReset (b : Machine.Boot)
  /-- EMBER_RESTORE (R521): Once the spindle turns, ember and MRAM leaves are read, the index is resolved and home leaves are written and verified. -/
  | emberRestore (lost : List (Nat × Nat))
  /-- SVN_FUSE_BLOW (R464): An image with a higher SVN has run 1 h without a class 3 fault, and hearthstone blows SVN fuses. -/
  | svnFuseBlow
  /-- TAMPER_EDGE (R480): A TAMPER falling edge held low 2 µs starts the tamper response: firebrick wipe, key slots cleared, signing refused. -/
  | tamperEdge (inReset : Bool)
  /-- HEARTHSTONE_OP_RETRY (R481): An operation discarded on MARGIN_WARN is repeated once the margins have been clean for 10 ms. -/
  | hearthstoneOpRetry
  /-- ENTROPY_TEST_FAIL (R483): A continuous entropy test failure stops the DRBG and reruns the start-up test; a second within 1 h is class 3. -/
  | entropyTestFail (startOk : Bool)
  /-- JUNCTION_SENSE (R569): Every 10 ms the junction sensors are read, and leaving or re-entering the range writes a condition 1 record. -/
  | junctionSense (hearth bellows : Int)
  /-- PERST_DEASSERT (R577): PERST_N is deasserted, the HOST island leaves reset and link training starts within 1 ms. -/
  | perstDeassert
  /-- LINK_UP (R372): PCIe link training with the host completes and the link enters L0, setting UP with its rate and width. -/
  | linkUp (rate : Fin 6) (width : Fin 5)
  /-- AGGREGATION_TIME_EXPIRE (R349): A vector's interrupt coalescing aggregation time runs out and the pending MSI-X interrupt is sent. -/
  | aggregationTimeExpire (v : Fin 65)
  /-- BUCK_RESTART (R517): 100 ms after the bellows turns the bucks off at the end of a banking sequence with VIN not back, VIN is present and a power-on reset follows. -/
  | buckRestart (b : Machine.Boot)
  /-- RAMP_STOP (R181): An unloading actuator reaches the ramp stop, reports unloaded and the bellows starts holding PARK_I. -/
  | rampStop (act : Fin 4)
deriving DecidableEq, Repr

end Sys2Proof
end

