-- ==== Sys2Proof/WellFormed.lean ====
section
/-! DEFINITION. Well-formed commands: the bounds on a command's operands that their types do not carry. -/
namespace Sys2Proof
open Machine

/-- Host memory at KPTR: no block of chapter 13 is longer than 576 bytes (Tables 13.6 and 13.7). -/
def entryOk (e : SqEntry) : Bool := decide (e.kbytes.length ≤ 576)

/-- A Cyzon packet: at most 64 KiB with a command context on the NVMe path, and 4 KiB on MCTP (R426). -/
def packetOk (p : CyzonPath) (pkt : List Byte) : Bool :=
  match p with
  | .nvme c => decide (c < 4096 ∧ pkt.length ≤ 65536)
  | .mctp => decide (pkt.length ≤ 4096)

/-- A control-store address: 16,384 microwords, 2,048 nanowords (R316). -/
def storeAddrOk (nano : Bool) (addr : Nat) : Bool := decide (addr < if nano then 2048 else 16384)

/-- A length that a flue descriptor can have (Table 10.5). -/
def descLenOk (n : Nat) : Bool := decide (n ≤ 16777216)

/-- The operands of a command are within their bounds. -/
def wellFormed (i : Instr) : Bool :=
  match i with
  | .sqDoorbellWrite _ _ => true
  | .cqDoorbellWrite _ _ => true
  | .commandAccept _ e => entryOk e
  | .completionPost _ => true
  | .ccEnSet asqSize acqSize _ _ => decide (asqSize.val ≠ 0 ∧ acqSize.val ≠ 0)
  | .ccEnClear => true
  | .ccShnShutdown _ => true
  | .functionLevelReset => true
  | .hotResetLinkDown => true
  | .perstAssert => true
  | .deleteIoSq _ _ => true
  | .createIoSq _ => true
  | .deleteIoCq _ => true
  | .createIoCq _ => true
  | .getLogPage _ => true
  | .identify _ => true
  | .abort _ => true
  | .setFeatures _ => true
  | .getFeatures _ => true
  | .asynchronousEventRequest _ => true
  | .firmwareImageDownload _ data => decide (data.length % 4 = 0)
  | .firmwareCommit _ => true
  | .firmwareActivationResume => true
  | .firmwareActivationComplete => true
  | .formatNvm _ => true
  | .sanitize _ => true
  | .mediaOperationProgress _ => true
  | .cyzonReceive _ => true
  | .attestationNonce _ _ => true
  | .attestationReportRead _ => true
  | .certificateChainRead _ => true
  | .lifecycleChallengeRead _ => true
  | .lifecycleToken _ _ _ => true
  | .integratorKeyEnrol _ _ sig => sig.all fun g => decide (1 ≤ g.length ∧ g.length ≤ 1280)
  | .level0Discovery _ => true
  | .properties _ => true
  | .startSession _ _ _ _ => true
  | .endSession _ => true
  | .authenticate _ _ _ => true
  | .opalGet _ _ => true
  | .opalSet _ _ => true
  | .opalNext _ _ _ _ => true
  | .genKey _ _ => true
  | .opalRandom _ _ => true
  | .opalActivate _ => true
  | .revert _ => true
  | .revertSp _ => true
  | .putOpen _ => true
  | .putData _ _ => true
  | .putCommit _ expected => decide (expected.length = 64)
  | .putAbort _ => true
  | .get _ => true
  | .stat _ => true
  | .list _ => true
  | .copy _ => true
  | .delete _ => true
  | .hold _ => true
  | .sync _ => true
  | .receipt _ => true
  | .flush _ => true
  | .zoneWrite _ _ => true
  | .zoneRead _ => true
  | .zoneAppend _ _ => true
  | .zoneOpen _ => true
  | .zoneClose _ => true
  | .zoneFinish _ => true
  | .zoneReset _ => true
  | .reportZones _ => true
  | .result p pkt => packetOk p pkt
  | .identifyCyzon p pkt => packetOk p pkt
  | .health p pkt => packetOk p pkt
  | .irateMeasure p pkt => packetOk p pkt
  | .checkerTest p pkt => packetOk p pkt
  | .profileLoad p pkt => packetOk p pkt
  | .profileActivate p pkt => packetOk p pkt
  | .profileActivateResume => true
  | .commit p pkt => packetOk p pkt
  | .regRead p pkt => packetOk p pkt
  | .regWrite p pkt => packetOk p pkt
  | .mediaProgress p pkt => packetOk p pkt
  | .auditStart p pkt => packetOk p pkt
  | .auditVersionCheck => true
  | .auditEntries p pkt => packetOk p pkt
  | .auditSummary p pkt => packetOk p pkt
  | .pin p pkt => packetOk p pkt
  | .unpin p pkt => packetOk p pkt
  | .holdClear p pkt => packetOk p pkt
  | .exportOpen p pkt => packetOk p pkt
  | .exportRead p pkt => packetOk p pkt
  | .exportClose p pkt => packetOk p pkt
  | .logRead p pkt => packetOk p pkt
  | .enSet _ _ => true
  | .enClear _ _ => true
  | .keylockWrite _ _ _ => true
  | .registerWrite _ _ _ _ ws _ => decide (1 ≤ ws.length)
  | .shdValidWrite _ _ _ => true
  | .pauseWrite _ _ _ left _ => descLenOk left
  | .fltInjGo _ _ _ _ _ => true
  | .faultInjectEnd => true
  | .actFlipArm _ _ _ _ => true
  | .checkerTestRun _ _ _ _ => true
  | .hobFlipArm _ _ _ => true
  | .hobFlipWordWrite _ => true
  | .hobFlipWordRead _ => true
  | .irate1Read _ => true
  | .ceLogWord0Read _ _ _ => true
  | .dmpStatRead _ _ => true
  | .editWindowExpire => true
  | .configCrcCompare _ _ => true
  | .draftUpdate => true
  | .bankingTimerExpire => true
  | .startMeasureDone _ _ => true
  | .rotorAlignDone => true
  | .observerHandover => true
  | .restDeclared _ => true
  | .currentLoopCycle _ _ => true
  | .speedLoopCycle => true
  | .recatchComplete => true
  | .speedSettled => true
  | .speedTargetApply => true
  | .targetChangeAck _ => true
  | .vcapUpdate _ => true
  | .vcapRecoverStart => true
  | .copperLossMeasure => true
  | .cogTableSwitch => true
  | .servoSample _ _ => true
  | .actuatorOutputUpdate _ _ => true
  | .lostServo _ => true
  | .lostServoTimeout _ => true
  | .damperMirrorCheck _ _ _ => true
  | .accelerometerSample _ _ => true
  | .shockClear => true
  | .seekRequest _ _ _ => true
  | .headSwitch _ _ _ _ => true
  | .headLoad _ => true
  | .headUnload _ => true
  | .parkRelease _ => true
  | .microactuatorGainMeasure _ m1 m2 m3 => decide (m1.length = 256 ∧ m2.length = 256 ∧ m3.length = 256)
  | .biasTableSwitch _ => true
  | .shingleReadback _ _ => true
  | .routineStart _ _ => true
  | .next _ _ => true
  | .wait _ _ => true
  | .waitTimeout _ => true
  | .brt _ _ => true
  | .brf _ _ => true
  | .call _ _ => true
  | .ret _ _ => true
  | .loop _ _ => true
  | .seqEnd _ _ => true
  | .controlStoreReload _ nano addr => storeAddrOk nano addr
  | .seqWatchdog _ => true
  | .microTrap _ => true
  | .trapResume _ => true
  | .tableSwitchRequest => true
  | .tableSwitch => true
  | .microcodePatch _ => true
  | .patchApplySequencer _ => true
  | .readWindowOpen _ _ _ => true
  | .frameLocate _ smp => decide (smp.lead.length = smp.trail.length)
  | .blindReread _ smp => decide (smp.lead.length = smp.trail.length)
  | .codewordComplete _ smp => decide (smp.lead.length = smp.trail.length)
  | .sliceMonitorBlock _ means squares => decide (means.length = 8 ∧ squares.length = 8)
  | .channelStateRestore _ => true
  | .filterRetune _ => true
  | .laneSpareSwitch _ => true
  | .laneCalibration _ _ _ _ => true
  | .leafEncode _ _ => true
  | .frameWrite _ _ => true
  | .frameWriteComplete _ => true
  | .verifyRead _ _ soft => soft.all fun l => decide (0 < l.length)
  | .paFaultAssert _ _ => true
  | .paWriteHoldExpire _ _ => true
  | .grateTakeCodeword _ => true
  | .grateDecodeDone _ _ => true
  | .collectorServe => true
  | .grateKatDue _ _ => true
  | .spareGrateKat _ _ => true
  | .sequencerKat _ _ => true
  | .stripeEngineSolve _ => true
  | .copyForward _ => true
  | .scrubPass => true
  | .cacheLineFill _ _ _ => true
  | .cacheEvictComplete _ _ => true
  | .hobPatrolScrub _ _ => true
  | .flueDescriptorDone _ _ => true
  | .flueBusError _ _ left _ => descLenOk left
  | .errorPairReport _ => true
  | .lockstepWatchdogLate _ => true
  | .failStopBankLimit => true
  | .heartbeatToggle => true
  | .ashRecordWrite => true
  | .marginWarn _ => true
  | .marginWarnClear => true
  | .marginLost _ _ => true
  | .vmotLoss => true
  | .vinTrial => true
  | .vinTrialPass => true
  | .vinNotBack => true
  | .bankingSequenceEnd _ => true
  | .vmotReturn => true
  | .powerOnReset _ => true
  | .emberRestore _ => true
  | .svnFuseBlow => true
  | .tamperEdge _ => true
  | .hearthstoneOpRetry => true
  | .entropyTestFail _ => true
  | .junctionSense _ _ => true
  | .perstDeassert => true
  | .linkUp rate width => decide (rate.val ≠ 0) && decide (width.val ∈ [1, 2, 4])
  | .aggregationTimeExpire _ => true
  | .buckRestart _ => true
  | .rampStop _ => true

end Sys2Proof
end

