-- ==== Sys2Proof/Machine/Bits.lean ====
section
/-! DEFINITION. Bit fields, saturating counters, byte order, and the square and cube roots the spec's formulas take. -/
namespace Sys2Proof.Machine
open Sys2Proof

/-- Bits hi down to lo of a word. -/
def bitsOf {n : Nat} (w : BitVec n) (hi lo : Nat) : Nat := w.toNat / 2 ^ lo % 2 ^ (hi + 1 - lo)

/-- A word from (low bit, width, value) fields: each value is cut to its width. -/
def packFields (fs : List (Nat × Nat × Nat)) : Word :=
  BitVec.ofNat 32 (fs.foldl (fun a f => a + f.2.2 % 2 ^ f.2.1 * 2 ^ f.1) 0)

/-- A counter that stops at its all-ones value. -/
def satInc {n : Nat} (c : BitVec n) : BitVec n := if c = BitVec.allOnes n then c else c + 1

/-- A counter that stops at a given value, raised by k. -/
def satAdd (top c k : Nat) : Nat := min top (c + k)

/-- An element put into an ordered list, before the first element it does not come after. -/
def putInOrder {α : Type} (le : α → α → Bool) (x : α) : List α → List α
  | [] => [x]
  | y :: ys => if le x y then x :: y :: ys else y :: putInOrder le x ys

/-- A list in order, elements that are equal in the order kept as they stood. -/
def sortBy {α : Type} (le : α → α → Bool) : List α → List α
  | [] => []
  | x :: xs => putInOrder le x (sortBy le xs)

/-- A condition as a bit. -/
def bit (b : Bool) : Nat := if b then 1 else 0

/-- The little-endian bytes of a number (R6). -/
def leBytes : Nat → Nat → List Byte
  | 0, _ => []
  | k + 1, v => BitVec.ofNat 8 v :: leBytes k (v / 256)

/-- The number that little-endian bytes spell. -/
def leNat : List Byte → Nat
  | [] => 0
  | b :: bs => b.toNat + 256 * leNat bs

/-- The bytes from position i, n of them, short only where the list ends. -/
def slice {α : Type} (l : List α) (i n : Nat) : List α := (l.drop i).take n

/-- n bytes of zero. -/
def zeroBytes (n : Nat) : List Byte := List.replicate n 0

/-- A byte list padded with zeros to n bytes. -/
def padTo (n : Nat) (l : List Byte) : List Byte := l ++ List.replicate (n - l.length) 0

/-- The greatest x below 2^k with p x, for a p that holds up to some point: the bits are tried from the highest. -/
def greatestBelow (p : Nat → Bool) : Nat → Nat → Nat
  | 0, x => x
  | k + 1, x => greatestBelow p k (if p (x + 2 ^ k) then x + 2 ^ k else x)

/-- The integer square root of a number below 2^256. -/
def isqrt (n : Nat) : Nat := greatestBelow (fun x => x * x ≤ n) 128 0

/-- The integer cube root of a number below 2^384. -/
def icbrt (n : Nat) : Nat := greatestBelow (fun x => x * x * x ≤ n) 128 0

/-- The square root of a quantity, to 2⁻⁴⁰ and rounded down (log entry 3). -/
def sqrtQ (x : Qty) : Qty := (isqrt (x * 2 ^ 80).floor.toNat : Qty) / 2 ^ 40

/-- The cube root of a quantity, to 2⁻⁴⁰ and rounded down (log entry 3). -/
def cbrtQ (x : Qty) : Qty := (icbrt (x * 2 ^ 120).floor.toNat : Qty) / 2 ^ 40

/-- π to twenty decimal places (log entry 3). -/
def piQ : Qty := 314159265358979323846 / 100000000000000000000

/-- A quantity rounded down to a multiple of 2⁻⁴⁰. -/
def round40 (x : Qty) : Qty := ((x * 2 ^ 40).floor : Qty) / 2 ^ 40

/-- atanh t for |t| ≤ 1/3, by fourteen terms of its series. -/
def atanhQ (t : Qty) : Qty := ((List.range 14).map fun i => t ^ (2 * i + 1) / (2 * i + 1 : Nat)).foldl (· + ·) 0

/-- ln 2. -/
def ln2Q : Qty := 2 * atanhQ (1 / 3)

/-- The natural logarithm of a positive quantity, to 2⁻⁴⁰ (log entry 3); 0 where there is none. -/
def lnQ (x : Qty) : Qty :=
  if x ≤ 0 then 0
  else
    let k : Int := (Nat.log2 x.num.toNat : Int) - Nat.log2 x.den
    let m := if 0 ≤ k then x / 2 ^ k.toNat else x * 2 ^ (-k).toNat
    round40 (k * ln2Q + 2 * atanhQ ((m - 1) / (m + 1)))

/-- The exponential of a quantity, to 2⁻⁴⁰ of its power of two (log entry 3). -/
def expQ (x : Qty) : Qty :=
  let k := (x / ln2Q).floor
  let r := x - k * ln2Q
  let e := round40 (((List.range 18).foldl (fun (a : Qty × Qty) i => (a.1 + a.2, a.2 * r / (i + 1 : Nat))) (0, 1)).1)
  if 0 ≤ k then e * 2 ^ k.toNat else e / 2 ^ (-k).toNat

/-- The absolute value of a quantity. -/
def absQ (x : Qty) : Qty := if x < 0 then -x else x

/-- The cosine and sine of an angle in turns, to 2⁻⁴⁰ (log entry 3): the series about 0 of the angle brought within half a turn. -/
def turnQ (t : Qty) : Qty × Qty :=
  let x := 2 * piQ * (t - (t + 1 / 2).floor)
  let r := (List.range 14).foldl (fun (a : Qty × Qty × Qty) i =>
    let c := a.2.2 * x / (2 * i + 1 : Nat)
    (a.1 + a.2.2, a.2.1 + c, -c * x / (2 * i + 2 : Nat))) (0, 0, 1)
  (round40 r.1, round40 r.2.1)

/-- A quantity clamped to ±m. -/
def clampQ (m x : Qty) : Qty := if x > m then m else if x < -m then -m else x

/-- A current in the rotor frame kept within a magnitude, its d component first. -/
def clampDQ (m d q : Qty) : Qty × Qty :=
  let d := clampQ m d
  (d, clampQ (sqrtQ (m * m - d * d)) q)

/-- Linear interpolation in a table at a fractional index, the last entry holding beyond it. -/
def interp (t : List Qty) (i : Qty) : Qty :=
  let k := i.floor.toNat
  let a := t.getD k 0
  let b := t.getD (k + 1) a
  a + (b - a) * (i - k)

/-- The value looked up in a list of pairs. -/
def lookupD {β : Type} (l : List (Nat × β)) (k : Nat) (d : β) : β :=
  match l.find? (fun p => p.1 == k) with
  | some p => p.2
  | none => d

/-- The entry of a key replaced or added in a list of pairs. -/
def assocSet {β : Type} (l : List (Nat × β)) (k : Nat) (v : β) : List (Nat × β) :=
  if l.any (fun p => p.1 == k) then l.map (fun p => if p.1 == k then (k, v) else p) else l ++ [(k, v)]

/-- An element of a vector read at any number; numbers outside it read the default. -/
def vget {α : Type} {n : Nat} (v : Vector α n) (i : Nat) (d : α) : α := v.toList.getD i d

/-- An element of a vector replaced; a number outside it changes nothing. -/
def vset {α : Type} {n : Nat} (v : Vector α n) (i : Nat) (x : α) : Vector α n :=
  if h : i < n then v.set i x h else v

/-- An element of a vector updated; a number outside it changes nothing. -/
def vmod {α : Type} {n : Nat} (v : Vector α n) (i : Nat) (f : α → α) : Vector α n :=
  if h : i < n then v.set i (f v[i]) h else v

end Sys2Proof.Machine
end

