-- ==== Sys2Proof/Config.lean ====
section
/-! DEFINITION. What an implementation fixes and the spec does not: opaque functions that nothing in Lean can
evaluate, and the free values (log entries 1 and 2). -/
namespace Sys2Proof.Config
open Sys2Proof Sys2Proof.Machine

/-! ## Read channel and grates (chapters 4 and 5) -/

/-- Gain and offset of a front end after its loops have run on the live signal (R72). -/
opaque afeLoops : Afe → Int × Int
/-- A slice's offset and gain can be corrected within range (R78 states no range). -/
opaque sliceCorrectable : Qty → Qty → Bool
/-- The slice offset and gain loops over a block (Table 4.5): corrections, slices in use, means and mean squares. -/
opaque sliceLoop : List (Qty × Qty) → List Nat → List Qty → List Qty → List (Qty × Qty)
/-- A sample corrected for the reader's asymmetry (Table 4.5): asymmetry, sample. -/
opaque asymCorrect : Qty → Qty → Qty
/-- One update of a reader's gain (Table 4.5 gives no step size): setting, e_k, sample. -/
opaque gainLoop : Int → Qty → Qty → Int
/-- One update of a reader's offset: setting, mean of e_k. -/
opaque offsetLoop : Int → Qty → Int
/-- One update of a reader's asymmetry: value, correlation of e_k with the squared sample. -/
opaque asymLoop : Qty → Qty → Qty
/-- The nominal envelope of a reader after a block (R85 calls it adapted): present value, mean absolute sample. -/
opaque envelopeLoop : Qty → Qty → Qty
/-- Gain and offset set from the amplitude and mean of the preamble's first 32 bits (Table 4.2): settings, samples. -/
opaque acquireGain : Int × Int → List Qty → Int × Int
/-- The starting phase from frame bits 32 on (Table 4.2): samples of both readers. -/
opaque zeroPhase : List Qty → List Qty → Qty
/-- One update of the data timing loop (Tables 4.2 and 4.5): stage, loop, e_k, and the ideal output's change z_k − z_(k−1). -/
opaque timingStep : TimingStage → Timing → Qty → Qty → Timing
/-- The direction of a boost trial: up or down, by draw. -/
opaque boostUp : Nat → Bool
/-- The bound I_B of R104 in bits per channel bit: corrected samples of both readers and written bits, frame by frame. -/
opaque irateBound : List (List Qty × List Qty × List Bool) → Qty
/-- The bound of R104 on outputs synthesised from the model with every noise covariance multiplied by 10^(Δ/10), Δ in 0.01 dB. -/
opaque irateSynth : List (List Qty × List Qty × List Bool) → Nat → Qty
/-- The rounding of a message to units of 1/4 (R115 states the unit, not the rounding). -/
opaque msgRound : Qty → Int

/-- How many words of a patch a sequencer has taken when a Banking trap stops the writing of its store (R331). -/
opaque patchWritten : Nat → Nat

/-! ## Spindle (chapter 8) -/

/-- The observer's angle and speed one current cycle later (R192 states no gains): observer, measured less predicted current on
each axis, length of the cycle; cosine, sine and electrical speed out. -/
opaque observerCorrect : Observer → Qty → Qty → Qty → Qty × Qty × Qty
/-- The two PI regulators of R191, whose gains are not stated: commands, currents and integrators in; integrators and rotor-frame
voltages out. -/
opaque currentRegulator : (Qty × Qty) → (Qty × Qty) → (Qty × Qty) → (Qty × Qty) × (Qty × Qty)
/-- The speed loop of R196 before its feed-forward terms: reference, speed and integrator in; output and integrator out. -/
opaque speedLoop : Qty → Qty → Qty → Qty × Qty
/-- The rotor's electrical angle, in turns, that each of the 12 pulses of R214 stands for. -/
opaque pulseTurn : Nat → Qty
/-- The electrical angle, in turns, of the phase pair that an alignment drives (R214). -/
opaque alignTurn : Qty
/-- The bias correction of the observer's speed at a wedge (R196): present correction, measured less observed speed. -/
opaque speedBias : Qty → Qty → Qty
/-- The braking current a cycle later while VMOT is above VM_CLAMP (R218 states that it is reduced, not by how much). -/
opaque busReduce : Qty → Qty
/-- The regulator that holds the motor bus at HOLD_V (R208 states no law): HOLD_V, VMOT and integrator in; braking current and
integrator out. -/
opaque busHold : Qty → Qty → Qty → Qty × Qty

/-! ## Servo (chapter 7) -/

/-- One step of the state estimator (R163, step 2): the profile's gains, estimator, innovation, voice-coil current, period. -/
opaque estimatorStep : List Qty → Estimator → Qty → Qty → Qty → Estimator
/-- The discrete coefficients of the control law for a sample period (R164 states no method). -/
opaque discreteLaw : List Qty → Qty → List Qty
/-- The discrete coefficients of a notch for a sample period. -/
opaque discreteNotch : Notch → Qty → List Qty
/-- One step of a notch filter: coefficients, state, input; output and state. -/
opaque notchStep : List Qty → List Qty → Qty → Qty × List Qty
/-- The state of a notch filter that has settled on an input. -/
opaque notchRest : List Qty → Qty → List Qty
/-- The voice-coil paths of the control law: coefficients, error acted on, velocity error and integrator in; the sum of the
proportional and derivative paths, and the integrator, out. -/
opaque lawPaths : List Qty → Qty → Qty → Qty → Qty × Qty
/-- The displacement that the microactuator path asks for, in servo tracks (R169): coefficients, error. -/
opaque maPath : List Qty → Qty → Qty
/-- The microactuator gain of the profile's model, in servo tracks per volt, before a head's own has been measured. -/
opaque maNominal : List Qty → Qty
/-- The displacement the profile's model gives for the measured gain applied to the voltage (R169). -/
opaque maModel : List Qty → Qty → Qty
/-- The prediction that an output update between samples follows (R168). -/
opaque outputPredict : Estimator → Qty → Qty → Nat → Qty × Qty
/-- The index into FRIC of a pivot angle (R167). -/
opaque pivotIndex : Qty → Qty
/-- The first-order lag of a path of R177, whose time constant is not stated: from actuator, to actuator, state, command, time. -/
opaque lagStep : Nat → Nat → Qty → Qty → Qty → Qty
/-- An engine's output as the code it drives, in LSB (R183 states no unit). -/
opaque outCode : Qty → Int

/-! ## Preamplifier (chapter 6) -/

/-- The assist power written at a head switch (R155): the profile value, the profile's slope and the thermal-diode reading. -/
opaque assistPower : Nat → Qty → Qty → Nat

/-! ## Sequencers (chapter 11) -/

/-- The DATA group of a nanoword: register file operation and condition flags (Table 11.3 names the group, not its codes). -/
opaque nanoData : BitVec 128 → Vector Word 16 → Word → Vector Word 16 × Word
/-- The value a nanoword with the load enable of LCNT set puts into its loop counter. -/
opaque nanoLoad : BitVec 128 → Vector Word 16 → BitVec 16
/-- The condition a 6-bit code names (Table 11.4 gives the conditions, not their codes). -/
opaque condCode : BitVec 6 → SeqCond
/-- A condition internal to the pipeline (R320), on the condition flags. -/
opaque internalCond : BitVec 6 → Word → Bool
/-- The patch that an image spells (R328 names its fields, not their places). -/
opaque parsePatch : List Byte → Option Patch

/-! ## Signatures (chapter 16) -/

/-- A Falcon-1024 signature verifies: public key, message, signature (R461). -/
opaque falconVerify : List Byte → List Byte → List Byte → Bool
/-- A Falcon-1024 signature: private key, message, and the index of the random salt (R10, R461). -/
opaque falconSign : List Byte → List Byte → Nat → List Byte
/-- A Falcon-1024 key pair made from a seed (R460): private and public key. -/
opaque falconKey : List Byte → List Byte × List Byte
/-- 48 bytes of the entropy source, by draw. -/
opaque entropy : Nat → List Byte
/-- The firmware image that a signed file spells (R463, R464, R371 name its fields, not their places); none when its
signature does not verify. -/
opaque fwParse : List Byte → Option FwImage

/-! ## Faults (chapter 17) -/

/-- The element behind an error-pair input (the spec numbers the inputs and assigns none of them). -/
opaque pairElement : Nat → Element
/-- The 8 bytes of DETAIL from the items of Table 17.7, by trigger (their places within DETAIL are not stated). -/
opaque ashDetail : Nat → List Nat → List Byte

/-! ## Start-up (chapters 15, 16 and 18) -/

/-- The digest of kindling that M0 takes (R465). -/
opaque kindlingDigest : List Byte
/-- The digest that M4 takes (Table 16.4): life-cycle code, SVN fuse count, integrator key, configuration reference. -/
opaque m4Digest : Nat → Nat → Option (List Byte) → Word → List Byte
/-- The item number of a record 0014h (not stated): a range, or none for the identity key. -/
opaque wrappedItem : Option Nat → Nat
/-- The place, within a profile, of a value that a check refuses (R436): block, register offset and reason. -/
opaque profOffset : Nat → Nat → Nat → Nat
/-- The place of a leaf in the direct-mapped second-level cache, by the memory's size in GiB, stripe and piece (R302). -/
opaque l2Index : Nat → Nat → Nat → Nat

/-! ## Host interface (chapters 12 and 16): bytes of NVMe and TCG structures that the spec does not state -/

/-- The level of SB_ALERT_N in SMBus mode (R558 gives no event that drives it), for each free value. -/
opaque sbAlert : Nat → Bool
/-- Delayed hob accesses of a master since its bank-conflict counter was last read (R31), for each free value. -/
opaque conflicts : Nat → Nat
/-- The byte of an Identify structure that the spec does not fix: CNS, NSID, byte. -/
opaque identifyByte : Nat → Nat → Nat → Byte
/-- The byte of a log page that the spec does not fix: page, byte. -/
opaque logByte : Nat → Nat → Byte
/-- A health log entry as bytes (its form is not stated). -/
opaque healthEntry : Nat × HealthEvent → List Byte
/-- The status of an I/O command that DECOMMISSIONED does not serve (Table 16.8 gives none): code type and code. -/
opaque decommissionedStatus : Nat × Nat
/-- Level 0 Discovery data of the Opal subset (R472): the Locking SP active, some range locked. -/
opaque opalDiscovery : Bool → Bool → List Byte
/-- The credentials that SID and PSID have from manufacture (not stated). -/
opaque factoryPin : Bool → List Byte
/-- The value of a table cell that the model does not name: table, row, column. -/
opaque opalCell : Nat → Nat → Nat → List Byte
/-- The rows of a table that the model does not name. -/
opaque opalRows : Nat → List (List Byte)
/-- A signature by a key that chains to the Dundowell root: 64-byte digest, signature (Table 16.1). -/
opaque dundowellSigned : List Byte → List Byte → Bool
/-- LSTATE of a link that is up (R340, R372: no command or rule moves it between L0 and the L1 substates), by instant. -/
opaque linkState : Nat → Fin 4
/-- The free session slot that a Put Open or a Copy takes (R386 does not say which), by draw. -/
opaque slotPick : Nat → Nat
/-- An Opal method's reply as the bytes of a ComPacket. -/
opaque opalReply : OpalReply → List Byte
/-- A signed image of Dundowell's verifies under the root key in the fuses (R1). -/
opaque imageVerifies : List Byte → Bool

end Sys2Proof.Config
end

