-- ==== Sys2Proof/Machine/State.lean ====
section
/-! DEFINITION. State as plain data: one structure per chapter of the spec, each field with its reset value as its
default, so that `State.reset` is the structure with every default. Fault and Refusal stand here too. -/
namespace Sys2Proof.Machine
open Sys2Proof

/-- Why the block stops: no behaviour of this spec stops the block for good, so nothing raises a fault but a
command word no meaning can take. -/
inductive Fault where
  /-- Raised by nothing in this model; kept so that the interface has a fault type. Safe. -/
  | stuck
deriving DecidableEq, Repr, Inhabited

/-- Why a command is refused by the model. -/
inductive Refusal where
  /-- Raised by `exec` for a command that has no meaning yet. Safe: nothing is claimed of it. -/
  | notModelled (mnemonic : String)
deriving DecidableEq, Repr, Inhabited

/-- The common registers of one block (R537): EN and DONE of xx_CTL, KEY_MISS, CHK_OFS and CHK_REASON of xx_CHK, and
whether the key of xx_KEYLOCK is armed (R543). -/
structure BlkCtl where
  en : Bool := false
  done : Bool := true
  keyMiss : Bool := false
  chkOfs : BitVec 12 := 0
  chkReason : BitVec 8 := 0
  armed : Bool := false
deriving DecidableEq, Repr, Inhabited

/-- The CK registers of R544, each as its stored word. -/
structure CkRegs where
  hobCfg : Word := 0x00180004
  cchCfg : Word := 0x08000040
  grtCfg : Word := 0x32080406
  syncCfg : Vector Word 4 := Vector.replicate 4 0x00012005
  seqCfg : Word := 0x00000100
  ontrk : Vector Word 6 := Vector.replicate 6 0x04203314
  srvCfg : Vector Word 6 := Vector.replicate 6 0x00081010
  spnCfg0 : Word := 0x20100078
  spnCfg1 : Word := 0x03843C00
  curve : Vector Word 16 :=
    #v[0x00000E10, 0x00200E10, 0x00300F00, 0x00400FF0, 0x005010E0, 0x006011D0, 0x007012C0, 0x008013B0,
       0x009014A0, 0x00A01590, 0x00B01680, 0x00C01770, 0x00D01860, 0x00E01950, 0x00F01A40, 0x00FF1C20]
  pwrCfg : Word := 0x00080866
  cfgStripe : Word := 0x0F050408
  cfgSpare : Word := 0x08041040
  cfgZns : Word := 0x00000000
deriving DecidableEq, Repr, Inhabited

/-- Registers and the configuration CRC (chapters 15 and 19). -/
structure RegS where
  blk : Vector BlkCtl 20 := Vector.replicate 20 {}
  ck : CkRegs := {}
  flipCtl : Vector Word 4 := Vector.replicate 4 0      -- ACTn_FLIP_CTL
  flipPos : Vector Word 4 := Vector.replicate 4 0      -- ACTn_FLIP_POS
  hobFlip : Word := 0                                  -- HOB_FLIP_CTL
  hobMlo : Word := 0                                   -- HOB_FLIP_MLO
  hobMhi : Word := 0                                   -- HOB_FLIP_MHI
  inj : Word := 0                                      -- FLT_INJ_CTL
  crcRef : Word := 0                                   -- CFG_CRC_REF
  overlay : Option CkRegs := none                      -- the committed overlay (R440): the CK words it restores
  profCk : CkRegs := {}                                -- the CK words of the profile in force (R439)
  editEnd : Option Nat := none                         -- the instant the edit window ends (µs)
  reloads : Nat := 0                                   -- RELOADS of CFG_EDIT
  lastCompare : Nat := 0
  caps : List (Nat × Word) := []                       -- captured registers (R545): block × 4,096 + offset, word
  rdata : Word := 0                                    -- the word the last read of the window returned
deriving DecidableEq, Repr, Inhabited

/-- The fault collector (chapter 17). -/
structure FltS where
  class3 : Bool := false
  cause3 : BitVec 3 := 0
  worst : BitVec 2 := 0
  faultPair : Bool := false                  -- FAULT_T = 1, FAULT_C = 0
  hbLevel : Bool := false                    -- HEARTBEAT
  lastToggle : Nat := 0
  fwRunning : Bool := false                  -- a verified image runs (R496)
  pairs : Vector PairIn 384 := Vector.replicate 384 ⟨false, true, .noError, false⟩
  cnt0 : BitVec 16 := 0
  cnt1 : BitVec 8 := 0
  cnt2 : BitVec 8 := 0
  injEnd : Option Nat := none                -- when the injection's DURATION ends; none with GO set: until power-up
  lsRun : Vector Bool 2 := Vector.replicate 2 false    -- LS_RUN of HRT_CORES
  appRun : BitVec 4 := 0                     -- APP_RUN of HRT_CORES
  held : List Element := []                  -- elements held in reset (R493, step 3)
  declaredAt : Option Nat := none            -- when class 3 was declared
  bankLimitDone : Bool := false              -- steps 5 and 6 of R493 have begun
  retracted : Bool := false                  -- the bellows retract has been started (R182)
  prior : Nat := 0                           -- PRIOR: the class 3 cause found at power-up (R495)
  extraCrcCheck : Bool := false              -- copy-forward leaves also checked by the HOST engine (Table 17.4)
deriving DecidableEq, Repr, Inhabited

/-- The ash log and the health log (chapter 17). -/
structure AshS where
  ring : List AshRec := []                   -- written records, newest first, at most 4,096 (R499)
  nextSeq : Nat := 0
  queue : List AshRec := []                  -- at most 64 (R501)
  dropped : Nat := 0                         -- DROPPED of ASH_STAT
  suppressed : Nat := 0                      -- SUPPRESSED of ASH_STAT
  dropSince : Nat := 0                       -- dropped since the previous record written
  supBy : List (Nat × Nat) := []             -- suppressed per trigger since its previous record
  recent : List (Nat × Nat) := []            -- trigger and time of the records written in the last 1 s
  health : List (Nat × HealthEvent) := []    -- hours and entry, newest first
deriving DecidableEq, Repr, Inhabited

/-- Power, margins and start-up (chapter 18). -/
structure PwrS where
  powered : Bool := false                    -- the bucks run
  vinOk : Bool := false                      -- VIN present
  banking : Bool := false
  buckMotor : Bool := false                  -- BUCK_SRC
  warn : Bool := false
  wrHeld : Bool := false
  vmotOk : Bool := false
  outcome : BitVec 2 := 0
  warnIsl : BitVec 4 := 0
  dips : BitVec 16 := 0
  cause : Option BankCause := none
  dest : BankDest := .mram
  startAt : Nat := 0                         -- step 1 of Table 18.1
  trialAt : Option Nat := none               -- the running VIN trial's start
  trialNext : Nat := 0                       -- when the next VIN trial is due (R517)
  ending : Bool := false                     -- the sequence ends by row 3 of Table 18.2: the bucks go off once parked
  trialPassed : Bool := false
  notBack : Bool := false                    -- VIN counts as not back (R517)
  passedOnce : Bool := false                 -- a trial of this sequence has passed
  endedAt : Nat := 0
  vStart : Qty := 0                          -- measured speed at the start
  dirtyAtStart : Nat := 0                    -- dirty leaves at the start
  ringBytes : Nat := 0                       -- bytes written to the ember rings by this sequence
  vmotLostNow : Bool := false                -- the spindle may not start until VMOT has returned (Table 18.2)
  bucksOffAt : Option Nat := none            -- the bellows turned the bucks off (Table 18.2, row 3)
  ratioValid : Bool := false
  ratio : BitVec 12 := 0
  holdMin : BitVec 16 := 0
  upAt : Nat := 0                            -- time of the last power-up
  hoursBase : Nat := 0                       -- operating hours counted before it, in 1/16 h
  cycles : Nat := 0                          -- power-cycle count
  resetType : Nat := 0                       -- 0 power-on, 1 core reset
  restore : Bool := false                    -- an ember restore runs (R521)
  restored : Bool := true                    -- step 3 of R521 is complete: commands run
  calRedo : BitVec 8 := 0                    -- calibrations abandoned by the sequence, to run again (R525)
  switchRedo : Bool := false                 -- a table switch cancelled by it, to be requested again (R327)
  junctionLo : Bool := true                  -- condition 1 of R8 held at the last reading
  junctionAt : Nat := 0                      -- when the junctions were last read
  junctions : List Int := []                 -- junction temperatures of the last reading, °C
  condLost : List Nat := []                  -- conditions of R8 that have stopped holding
deriving DecidableEq, Repr, Inhabited

/-- The calibration controller (R522 to R525). -/
structure CalS where
  up : Bool := false                         -- the power-up items have run since core reset
  ok : Bool := false
  done : Bool := false
  failed : BitVec 8 := 0
  running : BitVec 8 := 0
  runs : BitVec 8 := 0
  firstLoad : Vector Bool 4 := Vector.replicate 4 false   -- first-load items run
  gbMax : List Nat := []                     -- islands whose guard band is 15 % (canary item failed)
  vcSense : Vector (Option (Qty × Qty)) 4 := Vector.replicate 4 none  -- voice-coil current sense, gain and offset; none: nominal gain
  spnSense : Option (Qty × Qty) := none      -- spindle current sense, likewise
  diodeBad : Vector Bool 2 := Vector.replicate 2 false    -- thermal diodes that failed
deriving DecidableEq, Repr, Inhabited

/-- Spindle and draft (chapters 2 and 8). -/
structure SpnS where
  state : SpnState := .banked
  mode : SpnMode := .off
  driver : SpnDriver := .d4
  stale : Bool := true
  target : Nat := 0                          -- rpm; 0 while Banked
  wanted : Option Nat := none                -- a target change on its way (R198)
  signalled : Bool := false                  -- PENDING: the ACT islands have been told (R198, step 2)
  reference : Qty := 0                       -- rpm
  speed : Qty := 0                           -- measured speed, rpm (R195)
  vcap : Nat := 0
  vcapOkSince : Option Nat := none           -- since when v_cap has been at F or above
  capBlock : Bool := false                   -- v_cap has been below F and not yet at F or above for 1 s (R211)
  speedReg : BitVec 16 := 0                  -- SPEED of SPN_SPEED, as of the last 10 ms update
  vcapReg : BitVec 16 := 0
  fwActive : Bool := false
  limitV : Bool := false
  floor : Nat := 0
  draft : Nat := 0
  draftQ : Nat := 0
  draftB : Nat := 0
  draftG : Nat := 0
  lastDraft : Nat := 0                       -- time of the last draft update
  bankTimer : Option Nat := none             -- when the banking timer started
  bank : BankPhase := .none
  thenStart : Bool := false                  -- brake to rest, then start (Table 8.3)
  restOnly : Bool := false                   -- brake to rest, then Banked (R582)
  measureAt : Nat := 0
  alignAt : Option Nat := none
  fails : Nat := 0                           -- failed open-loop starts of this start
  cntRecatch : BitVec 16 := 0
  cntStartFail : BitVec 8 := 0
  cntRestart : BitVec 8 := 0
  recPeriods : Nat := 0                      -- electrical periods since the loss was declared
  recFails : Nat := 0                        -- consecutive re-catches failed
  recEnd : Option Nat := none                -- when the last re-catch succeeded
  retState : SpnState := .running            -- the state a re-catch returns to
  frozen : Qty := 0                          -- the torque command at the loss, A
  overNow : Bool := false                    -- the residual has exceeded OBS_THR in the present period
  overRun : Nat := 0                         -- consecutive periods over OBS_THR
  cleanRun : Nat := 0                        -- consecutive clean periods
  observing : Bool := false                  -- the observer drives the spindle
  obsValid : Bool := false
  regenLim : Bool := false
  obs : Observer := ⟨1, 0, 0, 0, 0⟩
  iD : Qty := 0
  iQ : Qty := 0
  cmdD : Qty := 0
  cmdQ : Qty := 0
  regD : Qty := 0                            -- integrators of the two current regulators
  regQ : Qty := 0
  vAlpha : Qty := 0                          -- phase voltages set, stationary frame, V
  vBeta : Qty := 0
  intQ : Qty := 0                            -- speed-loop integrator, A
  vmot : Qty := 0                            -- VMOT averaged over 100 ms, V
  curCycles : Nat := 0
  settled : Nat := 0                         -- consecutive wedges within ±0.05 % of the target
  mechAngle : Option Qty := none             -- turns, bound to wedge 0 (R194)
  obsSpeed : Qty := 0                        -- the observer's speed over the last electrical period, rpm (R195)
  obsSum : Qty := 0                          -- its speed summed over the present one, electrical rad/s, and cycles
  obsN : Nat := 0
  bias : Qty := 0                            -- correction of the observer's speed by the wedge source, rpm (R196)
  forced : Qty := 0                          -- speed of the forced angle of an open-loop start, rpm (R215)
  forcedTurn : Qty := 0                      -- the forced angle, electrical turns
  ramp : Nat := 4                            -- electrical periods of torque ramp done, of four (R213)
  clamping : Bool := false                   -- VMOT has been above VM_CLAMP, not yet 0.3 V below (R218)
  vmBus : Qty := 0                           -- VMOT at the last current cycle, V
  regenInt : Qty := 0                        -- integrator of the bus regulator (R208)
  slewNow : Qty := 0                         -- rate of the reference, rpm/s: the speed status's slew (R99)
  toMeasure : Bool := false                  -- a restart ramps its torque to zero first (R223)
  iDreg : Qty := 0                           -- what DMPn_CUR shows: held while stale (R229)
  iQreg : Qty := 0
  cog : List Qty := List.replicate 1024 0
  backward : Bool := false                   -- a rotor found turning backward decelerates (Table 8.3)
  cogBg : List Qty := List.replicate 1024 0
  fric : List Qty := List.replicate 64 0
  fricBg : List Qty := List.replicate 64 0
  cogSum : List (Qty × Nat) := List.replicate 1024 (0, 0)  -- integrator summed per angle bin, with its count
  revs : Nat := 0                            -- revolutions summed
  lastSwitch : Nat := 0
  cuCycles : Nat := 0
  cuSum : Qty := 0                           -- sum of I_d² + I_q²
  cuTorque : Qty := 0                        -- sum of I_q
  cuValid : Bool := false
  cuRatio : BitVec 16 := 0
deriving DecidableEq, Repr, Inhabited

/-- One actuator's loop (chapter 7): the state an engine carries and its mirror holds (R183). -/
structure Loop where
  mode : ActMode := .unloaded
  surface : Nat := 0                         -- active head, as a surface number
  est : Estimator := ⟨0, 0, 0, 0⟩
  x : Qty := 0                               -- head position, servo tracks
  e : Qty := 0                               -- error, servo tracks
  onTrack : Bool := false
  wrPermit : Bool := false
  maSat : Bool := false
  satRun : Nat := 0
  okRun : Nat := 0                           -- consecutive valid samples within WR_ONTRK
  missRun : Nat := 0
  lost : Bool := false                       -- searching every cell (R180)
  lostRun : Nat := 0                         -- samples since the loss
  reloads : Nat := 0                         -- unload-and-reload attempts of this loss
  wedge : Option Nat := none                 -- number of the last wedge
  period : Qty := 0                          -- the last measured wedge period, s
  wedges : Nat := 0                          -- wedges passed since power-up
  inhibit : Bool := true                     -- write inhibit
  target : Qty := 0
  softLeft : Nat := 0
  softFrom : Qty := 0
  integ : Qty := 0
  notch : List (List Qty) := []              -- states of the notch filters of RES (R163, step 6)
  vcm : Qty := 0                             -- A
  ma : Qty := 0                              -- V
  bridgeAt : Option Nat := none              -- when the bellows first reported the voice coil open or shorted (R253)
  updates : Nat := 0                         -- output updates done since the sample, of four
  before : ActMode := .track                 -- the mode that coasting interrupts (R180)
  vcmSat : Bool := false                     -- the voice-coil command reached ±I_MAX (R163, step 8)
  ref : Qty := 0                             -- reference position, servo tracks, and velocity (R163, R173)
  refV : Qty := 0
  ff : Qty := 0                              -- feed-forward current in the command (R163, step 5)
  preload : Bool := false                    -- a soft start has begun: the first output is the last applied (R166)
  lag : List Qty := List.replicate 4 0       -- lag states of the coupling paths from the other actuators (R177)
  rvIn : List Qty := List.replicate 8 0      -- α at the last eight output updates, newest first (R176)
  accAgo : Qty := 0                          -- time since the last accelerometer reading, s
  shownX : Qty := 0                          -- what DMPn_POS and DMPn_PES show: x and e, held while stale (R185)
  shownE : Qty := 0
  maSince : List Nat := []                   -- heads whose gain has been measured since the head load (R170)
  maTrack : List (Nat × Qty) := []           -- track following of each head since its gain was measured, s
  seek : Option Seek := none
  headSw : Bool := false                     -- the seek is a head switch: a soft start follows (R171)
  seekRef : Qty := 0                         -- where the trajectory began
  bias : List Qty := List.replicate 128 0
  biasBg : List Qty := List.replicate 128 0
  fric : List Qty := List.replicate 64 0
  fricBg : List Qty := List.replicate 64 0
  lastSwitch : Nat := 0
  adaptN : Nat := 0                          -- on-track samples averaged for the tables
  adaptSum : Qty := 0
  taps : List Qty := List.replicate 8 0      -- RV filter (R176)
  maGain : List (Nat × Option Qty) := []     -- measured gain per head; none: failed (R170)
  lastMa : Nat := 0
  parkAt : Option Nat := none                -- PARK_I held since (R181)
  unloadWhy : Nat := 0                       -- 0 none, 1 banking, 2 sequence end, 3 lost servo, 4 leaves service
deriving DecidableEq, Repr, Inhabited

/-- Actuators, damper engines and accelerometers (chapter 7). -/
structure SrvS where
  loop : Vector Loop 4 := Vector.replicate 4 {}
  serves : Vector Nat 6 := #v[0, 1, 2, 3, 4, 7]
  stale : Vector Bool 6 := Vector.replicate 6 true
  missed : Vector (BitVec 16) 6 := Vector.replicate 6 0
  lostCnt : Vector (BitVec 8) 6 := Vector.replicate 6 0
  shockCnt : Vector (BitVec 8) 6 := Vector.replicate 6 0
  meanOver : Vector (List Qty) 4 := Vector.replicate 4 []   -- ratios of the last 1,024 qualifying seeks, newest first
  mirrorN : Vector Nat 6 := Vector.replicate 6 0            -- samples since the last mirror check
  mirror : Vector Loop 4 := Vector.replicate 4 {}           -- the mirror of each actuator role (R183)
  mirrorSpn : SpnMirror := {}                               -- and of the spindle role
  coefs : Vector (List CoefSet) 4 := Vector.replicate 4 []  -- the nine coefficient sets of each loop (R164)
  shock : Bool := false
  calmSince : Option Nat := none             -- both accelerometers below SHOCK_G ÷ 2 since
  accOut : Vector Bool 2 := Vector.replicate 2 false
  accFull : Vector (Option Nat) 2 := Vector.replicate 2 none -- reading full scale since
  accCal : Bool := false                     -- an accelerometer is being calibrated
  alphaSq : List (Nat × Qty) := []           -- time and α² of the last second
  alpha : List Qty := []                     -- the last eight α, newest first
  rvRms : BitVec 16 := 0
  rvStale : Bool := true
deriving DecidableEq, Repr, Inhabited

/-- The words of a control store (R316), listed by address; an unlisted address holds 0. -/
structure Store where
  micro : List (Nat × BitVec 24) := []
  nano : List (Nat × BitVec 128) := []
deriving DecidableEq, Repr, Inhabited

/-- One sequencer (chapter 11). -/
structure Sqr where
  serves : Nat                               -- 0–3; 6 retired; 7 idle
  mode : SeqMode := .quiet
  hold : Bool := false
  trapPend : BitVec 8 := 0
  pc : BitVec 14 := 0
  resume : BitVec 14 := 0
  stack : List (BitVec 14) := []             -- top first, at most 8
  loops : Vector (BitVec 16) 4 := Vector.replicate 4 0
  regs : Vector Word 16 := Vector.replicate 16 0
  flags : Word := 0                          -- condition flags
  readFalse : Bool := false                  -- the condition reads false at the next step (R319)
  start : Option RoutineStart := none        -- the one-entry start register (R315)
  routine : Option RoutineStart := none
  waitFrom : Nat := 0                        -- wedge count of the actuator when the WAIT began
  save : Option MicroState := none           -- save record in the mirror slot
  handler : Option TrapCause := none
  store : Store := {}
  base : BitVec 16 := 0
  patch : BitVec 8 := 0
  crc : Word := 0
  lastCause : BitVec 3 := 0
  storeCe : BitVec 9 := 0
  traps : BitVec 16 := 0
  wdog : Nat := 0                            -- microwords since the last WAIT, checkpoint or END
  dbl : List (Bool × Nat × Nat) := []        -- uncorrectable words of the last second: nano store?, address, time
  partly : Bool := false                     -- patched by the patch in progress
  startedAt : Nat := 0                       -- when the present routine began
  ends : Nat := 0                            -- routine-end events sent to the hearth
deriving DecidableEq, Repr, Inhabited

/-- Sequencers (chapter 11). -/
structure SeqS where
  sq : Vector Sqr 5 := #v[{ serves := 0 }, { serves := 1 }, { serves := 2 }, { serves := 3 }, { serves := 7 }]
  switchReq : Bool := false
  switches : BitVec 16 := 0
  ringMapCopy : Bool := false                -- which copy of the ring map and object index is current
  master : Store := {}                       -- master copy in the hob working region (R316)
  prevMaster : Option Store := none          -- the previous level's copy while a patch runs (R331)
  masterBase : BitVec 16 := 0
  masterPatch : BitVec 8 := 0
  prevPatch : BitVec 8 := 0
  patching : Option Patch := none
  undoing : Bool := false                    -- the patch is being abandoned on every sequencer (R329)
  patchCut : Bool := false                   -- a Banking trap reached a sequencer while its store was being written (R331)
  patchReason : BitVec 8 := 0                -- reason code of the last patch offered (R328)
  kept : List (Nat × RoutineStart) := []     -- routines the hearth keeps queued: sequencer served, routine (R315, R323)
  bgTime : List (Nat × Nat × Nat) := []      -- actuator × 8 + activity, start and end of background routines of the last second (R34)
deriving DecidableEq, Repr, Inhabited

/-- A frame under the head: the request's leaf and where its reading stands. Stream bits count from the predicted first bit E,
which lies at a data bit of the data field of a wedge. -/
structure ReadJob where
  req : ReqId
  leafIdx : Nat
  pos : Pos
  blind : Bool := false                      -- the read is a blind re-read (R96)
  tracking : Bool := false                   -- read back to back: acquisition not repeated (R90)
  located : Bool := false
  start : Int := 0                           -- the frame's first bit, from E
  inverted : Bool := false                   -- the mark matched a complement: the frame's polarity (R92)
  wedge : Nat := 0                           -- where E is predicted (R58, R88): wedge, data bit, and D_z of the zone
  dataBit : Nat := 0
  dz : Nat := 1
  wedges : Nat := 0                          -- the actuator's wedges when the window opened
  unsure : Bool := false                     -- located by its secondary mark, no header offset passing (R95)
  locAt : Nat := 0                           -- stream bit at which it was located
  replay : List Qty := []                    -- the replay path's output from frame bit 80, where it ran (R93)
deriving DecidableEq, Repr, Inhabited

/-- A codeword kept for a measurement of the information rate (R103): its place, corrected samples, the detector's soft
output by frame bit, and its frame bits once it has decoded. -/
structure Capture where
  req : ReqId
  leafIdx : Nat
  pos : Pos
  lead : List Qty
  trail : List Qty
  det : List Qty
  bits : Option (List Bool)
deriving DecidableEq, Repr, Inhabited

/-- One actuator's read path (chapter 4). -/
structure ChanAct where
  read : Option ReadJob := none
  acquired : Bool := false                   -- tracking; lost by a seek or a head switch (R89)
  loaded : Option (Nat × Nat) := none        -- surface and zone whose channel state record is loaded
  adapted : ChanRec := {}                     -- the adapted values in use
  tim : Timing := {}                         -- the data timing loop (R91)
  synth : Qty := 0                           -- the synthesiser's frequency as a bit rate, Mb/s (R99)
  actCount : Nat := 0                        -- ACT clocks between the last two address marks (R99)
  buf : Samples := ⟨[], []⟩                  -- the sample buffer: the most recent 16,384 of each reader (R93)
  bufAt : Int := 0                           -- the stream bit of its first sample
  outQ : List Qty := []                      -- the live path's output while the frame is not located, at most 8,192 (R93)
  errs : List Qty := []                      -- equaliser error power of the last 16 codewords, newest first
  highRun : Nat := 0                         -- consecutive codewords above 1.5 times the saved error power
  tuned : Qty := 0                           -- bit rate at the last tuning, Mb/s (R100)
  cap : List Capture := []                   -- codewords of the capture of R103, newest first
  priMiss : BitVec 16 := 0
  slip : BitVec 16 := 0
  blindFail : BitVec 16 := 0
  blindOk : BitVec 16 := 0
  irValid : Bool := false
  irHead : BitVec 3 := 0
  irZone : BitVec 12 := 0
  irGap : BitVec 12 := 0
  irBound : BitVec 16 := 0
  irDet : BitVec 16 := 0
  mseT : BitVec 15 := 0
  mseL : BitVec 15 := 0
  badRun : List (Nat × Nat) := []            -- consecutive codewords of R75: surface × 2 + reader, count
deriving DecidableEq, Repr, Inhabited

/-- Read channels (chapter 4). -/
structure ChanS where
  act : Vector ChanAct 4 := Vector.replicate 4 {}
  lane : Vector Lane 10 := Vector.replicate 10 {}
  spare : Vector SpareLane 2 := Vector.replicate 2 {}
  saved : List ((Nat × Nat) × ChanRec) := []  -- channel state records in the hob, by surface and zone (R101)
  badReader : List (Nat × Bool × Nat) := []  -- readers open or short (Table 6.5): surface, trail, the actuator's wedges then
  lostAt : List (Nat × Nat) := []            -- lanes lost with no spare: lane, the actuator's wedges then (R82)
  spans : List (Pos × Nat × Nat) := []       -- defect spans of earlier reads: position, first bit, length (R87)
  nextCal : Nat := 0                         -- the lane calibrated next (R73)
  spinOn : Nat := 0                          -- spindle-on time since the last online calibration began, µs (R73)
deriving DecidableEq, Repr, Inhabited

/-- The grates and the collector (chapter 5). -/
structure GrtS where
  grate : Vector Grate 14 := Vector.ofFn fun i => ⟨i.val < 12, false, none, none, [], none, 0⟩
  queue : List Codeword := []                -- the shared queue of R32, oldest first
  last : Nat := 13                           -- the grate last served (R118)
  enter1 : BitVec 16 := 0
  enter2 : BitVec 16 := 0
  enter3 : BitVec 12 := 0
  enter4 : BitVec 12 := 0
  miscor : BitVec 8 := 0
  ceCnt : Vector Word 4 := Vector.replicate 4 0
  ceLog : Vector (List CeEntry) 4 := Vector.replicate 4 (List.replicate 16 ⟨false, 0, 0, 0, 0, 0, 0, 0, 0⟩)
  busy : List (Nat × Nat × Nat) := []        -- activity, end time and nanoseconds of the decodes of the last second (R34)
  flipRes : Vector Word 4 := Vector.replicate 4 0       -- ACTn_FLIP_RES
  flipNext : Vector Nat 4 := Vector.replicate 4 0       -- the scratch slot taken next, 0–15
  flipRepeat : Vector (Option Nat) 4 := Vector.replicate 4 none  -- a checker fault waits for its repeat (R492): its outcome
deriving DecidableEq, Repr, Inhabited

/-- A leaf to be written, or being written: its position, its bytes as a leaf, and the staged leaf it stands for. -/
structure FrameJob where
  pos : Pos
  leaf : Leaf
  uid : Option Nat
  fails : Nat := 0                           -- failed verifies of this leaf so far (R152)
deriving DecidableEq, Repr, Inhabited

/-- One actuator's write path (chapter 6). -/
structure WrAct where
  buffer : List (FrameJob × List Bool) := [] -- leaves held with their codewords, at most two (R30, R112)
  encFails : Nat := 0                        -- consecutive leaves whose encoding failed the syndrome check (R112)
  encAgain : Option Pos := none              -- the leaf whose encoding has failed once, to be encoded again
  outOfService : Bool := false
  changePend : Bool := false                 -- a speed change is pending (R147)
  acked : Bool := false
  frame : Option (FrameJob × List Bool) := none  -- frame in progress
  gate : Bool := false                       -- write gate is high (R144)
  pulses : List GatePulse := []              -- write gate and write data of the last frame (R142 to R144)
  slips : BitVec 16 := 0                     -- revolution slips (R29, R30)
  abort : BitVec 16 := 0                     -- WR_ABORT
  verifyFail : BitVec 16 := 0                -- VERIFY_FAIL
  verify : List FrameJob := []               -- written leaves that await their verify (R151)
  readback : List Pos := []                  -- slots to read back before writing further (R179)
  paValid : Bool := false
  paHead : Nat := 0
  paFlags : Byte := 0
  paRegs : List (Nat × Nat) := []            -- preamplifier registers as last written: address, value
  paBus : List (BitVec 24) := []             -- the transactions of the last exchange on the serial port, in order (R153)
  paLatched : Option Byte := none            -- fault flags raised before the profile gave PA_FAULT_POL (R552)
  paReady : Nat := 0                         -- when the preamplifier has settled after a head select
  holdUntil : Option Nat := none             -- writes held after supply low or over-temperature
  flag7At : Option Nat := none               -- the last no-transition flag
  paSel : Option Nat := none                 -- the head whose select was last written (R155)
  paTries : Nat := 0                         -- consecutive failures of the head-select read-back (R253)
deriving DecidableEq, Repr, Inhabited

/-- Write paths (chapter 6). -/
structure WrtS where
  act : Vector WrAct 4 := Vector.replicate 4 {}
  queue : List FrameJob := []                -- leaves to be written, in order (R149)
deriving DecidableEq, Repr, Inhabited

/-- A copy-forward in progress (R246): its source group, why it runs, and where it stands. -/
structure CopyJob where
  group : Nat
  activity : Nat                             -- 2 reclaim, 3 relocation or retirement, 4 reflow
  stripes : List Nat                         -- the stripes copied; empty: the whole group
  moved : Bool := false                      -- step 3 is done: the leaves have been placed anew
  batch : List (Nat × Nat) := []             -- the leaves being read, as many as the staging has room for
  moves : List ((Nat × Nat) × (Nat × Nat)) := []  -- source and new place of each leaf
  lost : Bool := false                       -- a leaf could not be read, or found no place
  named : Bool := false                      -- step 4 is done: the records are in index pages
  recs : List (Nat × Nat × Nat) := []        -- version records written: object identity, version, WSEQ
  pages : List Nat := []                     -- the index pages that hold the records
  todo : List (List Byte) := []              -- index pages still to be staged
  asked : Option (BitVec 16) := none         -- the table switch of R248 is asked for: the count of switches then
deriving DecidableEq, Repr, Inhabited

/-- A checkpoint page set being written (R68): the full index groups it takes the place of, its pages, their places, and the
pages still to be staged. -/
structure Ckpt where
  groups : List Nat
  pages : List Nat
  places : List (Nat × Nat)
  todo : List (List Byte)
deriving DecidableEq, Repr, Inhabited

/-- Stripes, groups, heads and spares (chapter 9). -/
structure StrS where
  heads : Vector HeadState 32 := Vector.replicate 32 .absent
  rings : List ((Nat × Nat) × Ring) := []    -- surface and ring number
  groups : List Group := []
  newGroups : List Nat := []                 -- groups whose newest ring group record is still to be written (R61)
  nextGroup : Nat := 1                       -- group identities start at 1 (R57)
  idxK : Nat := 4                            -- the index profile of the last format (R237)
  idxM : Nat := 8
  defects : List Defect := []
  relocs : List (Nat × Nat) := []            -- surface and hour of each relocation, for HEAD_RELOC_MAX
  relocPending : List (Nat × Bool) := []     -- stripes to relocate, and whether only incomplete (R250)
  copy : Option CopyJob := none
  reflowShort : Bool := false
  redundant : Bool := false                  -- REDUNDANT of CFG_SPARE_STAT
  reflowed : Nat := 0                        -- groups reflowed since redundancy was last restored
  spareMap : List (Element × Element) := []  -- spare-substitution map: replaced, spare (R258)
  lanesLeft : Nat := 2
  gratesLeft : Nat := 2
  seqLeft : Bool := true
  dmpLeft : Bool := true
  flueLeft : Nat := 4
  actOut : Vector Bool 4 := Vector.replicate 4 false    -- actuators out of service (R253)
  reloadAt : List (Nat × Nat) := []          -- actuator and time of each unload and reload after lost servo
  retiring : List (Nat × Nat) := []          -- rings to be retired (R260)
  scrubFrom : Nat := 0                       -- hour from which the present scrub pass is due
  scrubDone : List Nat := []                 -- groups the present pass has read
  scrubRated : List (Nat × Nat) := []        -- heads and zones whose information rate it has measured (R103)
  wseq : Nat := 1                            -- next write sequence
  corner : List (Nat × Nat) := []            -- cornerstone copies to be rewritten: surface, copy (R254, R260)
  stuck : List Nat := []                     -- groups whose copy met an unreadable leaf: they are not freed
  nextCkpt : Nat := 0                        -- number of the newest complete checkpoint (R65)
  ckpt : Option Ckpt := none                 -- a checkpoint page set being written (R68)
  ckptAt : List (Nat × Nat) := []            -- places of the current checkpoint's pages: their lines are locked (R284)
  rebuilds : List Rebuild := []              -- reconstructions in progress (R243 to R245)
  matrices : List (List Nat × List Nat) := []  -- the last 64 missing sets and sources whose matrix is kept (R244)
deriving DecidableEq, Repr, Inhabited

/-- A zone of the geometry section (Table 3.8): first servo track, D_z, S_z, and the profile's strength and bit rate
for it (R97, R110). -/
structure ZoneGeom where
  firstTrack : Nat
  dz : Nat
  sz : Nat
  strength : Nat
  rate : Nat                                 -- ZONE_RATE, Mb/s at 7,200 rpm
deriving DecidableEq, Repr, Inhabited

/-- What the platters hold: frames by position, and the geometry of each zone (chapter 3). -/
structure MediaS where
  frames : List Frame := []
  surfaces : Word := 0                       -- surface bitmap of the geometry section (Table 3.8)
  nT : Nat := 0                              -- servo tracks of a surface
  dataK : Nat := 15                          -- section 0004h: the profiles read at the last format (R237)
  dataM : Nat := 5
  wseq : Nat := 0                            -- write sequence and operating hours at the last format (R63)
  hours : Nat := 0
  zones : List ZoneGeom := []                -- the geometry section's zones, in index order
deriving DecidableEq, Repr, Inhabited

/-- The write staging (R289 to R292). -/
structure StgS where
  leaves : List StagedLeaf := []
  slots : List (Nat × Nat) := []             -- header array entries: staging slot, of 672, and the leaf it holds (R266, R291)
  slotsCopy : List (Nat × Nat) := []         -- their second copy
  parity : List (Nat × List Byte) := []      -- parity slots: parity set, and the xor of its eight slots (R291)
  nextUid : Nat := 0
  nextOrder : Nat := 0
deriving DecidableEq, Repr, Inhabited

/-- A memory as cells in strictly rising address order, none equal to zero, which an unlisted address reads as. -/
abbrev Mem := List Host.Cell

/-- The hob's own state (R269 to R277). -/
structure HobS where
  mem : Mem := []                            -- what descriptors move within the hob address space (R266)
  ce : BitVec 16 := 0
  ue : BitVec 16 := 0
  ceLog : List HobCeEntry := List.replicate 16 ⟨false, false, false, 0, 0, 0, 0, 0, 0, 0⟩
  rowCe : List (Nat × Nat) := []             -- corrected errors of the last 24 hours: bank × 65,536 + row, hour
  rowMap : List (Nat × Nat) := []            -- rows replaced: bank × 65,536 + row, spare
  spareLeft : Vector Nat 16 := Vector.replicate 16 80
  fbSpareLeft : Nat := 8
  withdrawn : List Nat := []                 -- 64 KiB regions withdrawn, by address ÷ 65,536
  patrolAt : Nat := 0                        -- the patrol scrub's next word
  scratch : List (Nat × DWord × DWord × Byte) := []  -- scratch words: word, stored data, data and check bits flipped in it
  fbPatrolAt : Nat := 0                      -- the firebrick scrub's next word
  flipValid : Bool := false                  -- VALID and RESULT of HOB_FLIP_CTL
  flipResult : BitVec 2 := 0
  flipWritten : Bool := false                -- the armed word has been written
  flipRepeat : Bool := false                 -- a checker fault waits for its repeat (R492)
  conf : Vector DWord 24 := Vector.replicate 24 0  -- bank-conflict counters (R308)
deriving DecidableEq, Repr, Inhabited

/-- The read cache (R278 to R288). -/
structure CchS where
  lines : List Line := []                    -- listed lines, most recently used first
  wayOff : BitVec 16 := 0
  lineOff : List (Nat × Nat) := []           -- lines out of service for withdrawn regions: set, way (R271)
  wayCe : List (Nat × Nat) := []             -- corrected errors of the last 24 hours: way, hour
  lockNext : List (Nat × Nat) := []          -- addresses whose lock passes to their next line (R288)
  ceLog : List HobCeEntry := List.replicate 16 ⟨false, false, false, 0, 0, 0, 0, 0, 0, 0⟩
deriving DecidableEq, Repr, Inhabited

/-- One flue channel (R293 to R298). -/
structure FluCh where
  cls : BitVec 2
  serves : BitVec 6
  inService : Bool
  pause : Bool := false
  paused : Bool := false
  shdValid : Bool := false
  overrun : Bool := false
  descBad : Bool := false
  reason : BitVec 8 := 0
  done : BitVec 16 := 0
  active : Option Desc := none               -- the descriptor in progress: SRC, DST and LEN as the registers show them
  whole : Desc := default                    -- the last active set, shown when no transfer is in progress
  rest : List Desc := []                     -- further descriptors of the active scatter list
  shadow : List Desc := []                   -- the shadow scatter list
  shdDesc : Word := 0                        -- FLUn_SHD_DESC
  fails : List Nat := []                     -- descriptor failures in the hob or the LPDDR5X of the last second (R300)
  ctx : Option Nat := none                   -- the command it moves data for
deriving DecidableEq, Repr, Inhabited

/-- The flue (R293 to R300). -/
structure FluS where
  ch : Vector FluCh 40 := Vector.ofFn fun i =>
    { cls := if i.val < 32 then 0 else if i.val < 36 then 1 else 2, serves := if i.val < 36 then BitVec.ofNat 6 i.val else 0x3F,
      inService := i.val < 36 }
  stopped : Bool := false
  events : BitVec 16 := 0
  alone : Option Nat := none                 -- the role, 32–35, run alone after a recurring error (R299)
  again : List (Nat × Desc) := []            -- descriptors issued a second time: channel, descriptor as issued (R298)
deriving DecidableEq, Repr, Inhabited

/-- The LPDDR5X (R301 to R303). -/
structure DrmS where
  mem : Mem := []
  l2 : List (Nat × Nat × Leaf) := []         -- second-level cache lines: stripe, piece, leaf
  gen : BitVec 8 := 0
  withdrawn : Bool := false
  ue : List Nat := []                        -- times of uncorrectable words of the last hour
deriving DecidableEq, Repr, Inhabited

/-- The object store (chapter 13). -/
structure ObjS where
  objs : List Obj := []
  nextId : Nat := 1                          -- OBJECT_ID counter
  slots : List SessSlot := List.replicate 256 ⟨0, none⟩
  streams : List Stream := []
  clock : Nat := 0                           -- retention clock (R377)
  damage : List (List Byte × Nat) := []      -- damage list, at most 1,024 entries (R399)
  damagedLeaves : List (List Byte × Nat × Nat) := []  -- damaged leaves not yet told to a Sync or Flush: key (none for a zone's, which a Flush alone covers), version, acceptance number next at the finding
deriving DecidableEq, Repr, Inhabited

/-- The zoned namespace (chapter 14). -/
structure ZnsS where
  zones : List Zone := []
  damage : List (Nat × Nat) := []            -- the zone versions in the damage list: zone, version (R399)
deriving DecidableEq, Repr, Inhabited

/-- A group of up to eight leaves written to the ember MRAM, with its parity leaf (R516). -/
structure MramGroup where
  id : Nat
  leaves : List StagedLeaf
  parity : List Byte
deriving DecidableEq, Repr, Inhabited

/-- The ember (MRAM) beyond the ash log: what a banking sequence wrote, and the tables kept there. -/
structure EmberS where
  mram : List MramGroup := []
  copies : List StagedLeaf := []             -- after a power cycle: leaves kept in ember leaves or the MRAM, without payload (R521)
  nextGroup : Nat := 0
deriving DecidableEq, Repr, Inhabited

/-- Profile values of one actuator. -/
structure ProfAct where
  accPerA : Qty := 0                         -- servo tracks/s² per ampere
  iMax : Qty := 0                            -- A
  res : List Notch := []                     -- RES: at most 8 resonances (R163)
  law : List Qty := []                       -- the control law and microactuator model in continuous time (R164)
  estGains : List Qty := []                  -- gains of the state estimator (R163)
  geom : List Qty := []                      -- pivot angle as a polynomial in x, lowest power first (R167)
  vMax : Qty := 0                            -- servo tracks/s
  gainLut : List Nat := List.replicate 16 64
  maStroke : Qty := 0                        -- servo tracks
  bias : List Qty := List.replicate 128 0
  fric : List Qty := List.replicate 64 0
  vStick : Qty := 0
deriving DecidableEq, Repr, Inhabited

/-- F_RES1, the lowest frequency of RES (R174), Hz; 0 where the table is empty. -/
def ProfAct.fRes1 (p : ProfAct) : Qty :=
  match p.res.map (·.freq) with
  | [] => 0
  | f :: fs => fs.foldl min f

/-- Profile values of one head and zone. -/
structure HeadZone where
  surface : Nat
  zone : Nat
  leadOfs : Int := 0                         -- units of 1/256 servo track
  trailOfs : Int := 0
  headOfs : Int := 0
  jog : Int := 0
deriving DecidableEq, Repr, Inhabited

/-- The integration profile in force (R434, R439): the values no register holds. -/
structure Prof where
  pversion : Nat := 0
  ashList : List (Nat × List (Nat × Nat)) := []   -- ASH_LIST: trigger, (block, offset)
  bgDraft : Nat := 40
  scrubDays : Nat := 90                      -- scrub interval, days (Table 2.7)
  ringFloor : Nat := 0                       -- free data rings below which reclaim is urgent (Table 2.7)
  reclaimLive : Nat := 50                    -- RECLAIM_LIVE, % (R250)
  laneCalPeriod : Nat := 64                  -- LANE_CAL_PERIOD, in 1/16 h (R73)
  poles : Nat := 0
  rPh : Qty := 0
  lPh : Qty := 0
  ke : Qty := 0
  dragA : Qty := 0                           -- A
  dragB : Qty := 0                           -- A per rpm
  iRunMax : Qty := 0
  startI : Qty := 0
  alignI : Qty := 0
  restMv : Qty := 0
  obsThr : Qty := 0                          -- fraction of I_RUN_MAX
  spnJ : Qty := 0
  holdE : Nat := 0                           -- mJ
  startAcc : Qty := 240
  holdV : Qty := 9
  regenMax : Qty := 500                      -- mA
  vmClamp : Qty := 29/2
  shortRpm : Qty := 1200
  cog : List Qty := List.replicate 1024 0
  spnFric : List Qty := List.replicate 64 0
  act : Vector ProfAct 4 := Vector.replicate 4 {}
  heads : List HeadZone := []
  nT : Nat := 0
  rvBase : Qty := 0
  rvThresh : Qty := 0
  shockG : Qty := 0
  couple : List (List Qty) := List.replicate 4 (List.replicate 4 0)
  parkI : Qty := 0
  eUnload : Nat := 0                         -- mJ
  dramSize : Nat := 0                        -- GiB of LPDDR5X (R301)
  geom : List ZoneGeom := []                 -- the geometry section's zones, with ZONE_STRENGTH and ZONE_RATE (R97, R110)
  present : Word := 0                        -- surfaces that the geometry section declares present
  paMap : List (Nat × Nat × Nat) := []       -- PA_MAP: address, least significant bit and width per function (Table 6.4)
  paVals : List (Nat × List Nat) := []       -- per surface: bias lead, bias trail, write current, overshoot amplitude, duration
  paAssist : List ((Nat × Nat) × Nat) := []  -- assist power by surface and zone
  paSlope : Qty := 0                         -- correction of assist power against the diode reading
  paTon : Nat := 0                           -- PA_TON_PS
  paToff : Nat := 0                          -- PA_TOFF_PS
  paSck : Nat := 0                           -- PA_SCK_MHZ (R153)
  paFaultPol : Option Bool := none           -- PA_FAULT_POL: the level that means a fault; none before a profile loads (R156, R552)
  chanInit : List ((Nat × Nat) × ChanRec) := []   -- first channel values, by surface and zone (R101)
  calRef : Bool := false                     -- true: REFIN
  holdClearEn : Bool := false                -- HOLD_CLEAR_EN
  uartMode : Nat := 0                        -- UART_MODE
  subsysVendor : Nat := 0                    -- subsystem vendor and device identities (R340)
  subsysDevice : Nat := 0
deriving DecidableEq, Repr, Inhabited

/-- A media operation: sanitize or format (R441 to R443). -/
structure MopS where
  rec_ : MediaProgress := ⟨0, 0, 0, 0, 0, 0, 0, 0⟩
  erase : Bool := false                      -- a crypto erase is part of it
  sanitize : Bool := false                   -- it is a sanitize
deriving DecidableEq, Repr, Inhabited

/-- Security, identity and life cycle (chapter 16). -/
structure SecS where
  lc : LifeCycle := .unread
  fuseLc : LifeCycle := .manufacture         -- the life-cycle state in the fuses
  straps : BitVec 2 := 0                     -- LC_STRAP1, LC_STRAP0
  diagTrips : Nat := 0
  svnFuses : Nat := 0
  svnShown : Nat := 0                        -- SVN of STN_LC, read from the fuses at power-up
  zeroFuse : Bool := false                   -- the ZEROIZE fuse
  zeroized : Bool := false                   -- ZEROIZED of STN_LC
  eval : Bool := false
  latched : Bool := false
  cause : BitVec 3 := 0
  count : BitVec 16 := 0                     -- tamper events, from the ember
  refusing : Bool := false                   -- signing, unwrapping and attestation refused until the next power-up
  dus : List Byte := List.replicate 32 0     -- fuses
  tamperEdge : Bool := false                 -- an edge latched by the EMBER island during a reset (R560)
  swk : Option (List Byte) := none           -- firebrick
  drbg : Option (List Byte) := none          -- firebrick: 48 bytes
  drbgStopped : Bool := false                -- R483
  entropyFails : List Nat := []              -- times of continuous test failures
  meas : List (List Byte) := List.replicate 5 (List.replicate 64 0)  -- firebrick: M0 to M4
  wipe : WipeCause := .none                  -- why the firebrick was last wiped since the last derivation (R478)
  serial : List Byte := List.replicate 16 0  -- device serial number, 16 bytes
  wrappedId : Option (List Byte) := none     -- identity private key, wrapped
  identity : List Byte := []                 -- the identity private key, unwrapped for signing
  identityPub : List Byte := []              -- the identity's public key
  certs : List Byte := []                    -- the certificate chain (R462)
  integrator : Option (List Byte) := none    -- the enrolled integrator key
  authSeq : Nat := 0                         -- the last SEQ accepted (R432)
  challenge : Option (List Byte) := none
  nonce : Option (List Byte) := none
  ranges : List RangeRow := List.replicate 65 ⟨0, 0, false, false, false, false, true, none, none⟩
  cpins : List CPin := []
  lockingActive : Bool := false              -- the Locking SP is activated
  rangeUsers : List (Nat × Nat) := []        -- users that may change a range's locks: range, user
  token : Option (Nat × Bool) := none        -- an accepted transition token: acceptance number; its Send has completed (R477)
  session : Option OpalSession := none
  reply : OpalReply := .success []           -- what the last Opal method answers
  op : Option HsOp := none                   -- hearthstone's operation in progress (R583)
  opRetry : Bool := false                    -- its result was discarded on MARGIN_WARN (R481)
  opSince : Nat := 0                         -- since when the margins have been clean
deriving DecidableEq, Repr, Inhabited

/-- Firmware images (R370, R463, R464). -/
structure FwS where
  download : Mem := []                       -- the bytes downloaded
  downLen : Nat := 0
  slots : Vector (List Byte) 2 := Vector.replicate 2 []   -- the two slots of the flash
  active : Nat := 0                          -- the active slot, 0 or 1
  next : Option Nat := none                  -- the slot a commit action 001b or 010b makes active at the next reset
  running : Option FwImage := none
  runningSince : Nat := 0                    -- operating hours (1/16 h) at its start
  act : Option (Activation × Nat) := none    -- an activation without reset, and the context of its commit
deriving DecidableEq, Repr, Inhabited

/-- Cyzon (chapter 15). -/
structure CyzS where
  replies : List CyzonReply := []            -- replies held
  open_ : List (Bool × Nat) := []            -- open tags: path (true: MCTP) and tag (R430)
  stage : Mem := []                          -- the profile staging area (R435)
  slots : Vector (List Byte) 2 := Vector.replicate 2 []   -- profile slots of the flash
  slot : Nat := 0                            -- the slot pointer
  loaded : Nat := 0                          -- PVERSION of the profile that set the committed reference (R440)
  held : Option HeldActivate := none
  audit : Option Audit := none
  summaries : List Summary := []             -- the last of each KIND
  ended : List (List Byte) := []             -- kept entries of the last audit that ended, not yet read
  scrub : Option Audit := none               -- the version checks of the present scrub pass (R446)
  sent : Option CyzonReply := none           -- the last response message on MCTP (R429)
  tests : List (Nat × Bool × Nat) := []      -- checker tests asked for: actuator, path and tag of the request
  exp : Option Export := none
  sideband : Sideband := .smbus              -- as SB_SEL had it at the release of power-on reset (R558, R559)
deriving DecidableEq, Repr, Inhabited

/-- An entry of the error information log page. -/
structure ErrEntry where
  count : Nat
  sq : Nat
  cid : BitVec 16
  sct : Nat
  sc : Nat
deriving DecidableEq, Repr, Inhabited

/-- The host's side (chapter 12). -/
structure HostS where
  link : LinkState := ⟨false, 0, 0, 0⟩
  perst : Bool := true                       -- PERST_N asserted: the HOST island is held in reset
  fundamental : LifeCycle := .unread         -- the life-cycle state that fixed the set of BARs (R342)
  en : Bool := false                         -- CC.EN
  ams : Nat := 0                             -- CC.AMS
  rdy : Bool := false                        -- CSTS.RDY
  cfs : Bool := false                        -- CSTS.CFS
  shst : Nat := 0                            -- CSTS.SHST
  pp : Bool := false                         -- CSTS.PP
  shutting : Bool := false                   -- a shutdown runs (R365)
  fetching : Bool := false                   -- the queue engine fetches commands
  sqs : List (Nat × SubQueue) := []
  cqs : List (Nat × CompQueue) := []
  ctxs : List (Nat × Ctx) := []              -- contexts assigned
  accept : Nat := 0                          -- the next acceptance number
  ceiling : Nat := 0                         -- its ceiling in the ember
  peak : Nat := 0                            -- PEAK of HST_CTX
  feats : List (Nat × Nat) := []             -- features set: identifier (09h: with the vector × 256), value
  events : List (Nat × Nat × Nat) := []      -- asynchronous events not yet posted: type, information, log page
  errs : List ErrEntry := []                 -- newest first, at most 64
  errCount : Nat := 0
  agg : List (Nat × Nat × Nat) := []         -- vectors with completions not yet signalled: vector, count, since
  msix : List (Nat × Nat) := []              -- MSI-X interrupts sent, by vector
  dataErr : List Nat := []                   -- contexts whose host memory failed again (R298)
  sanitizeStatus : Nat := 0                  -- SSTAT of log page 81h
  mps : Nat := 0                             -- CC.MPS
  grant : Nat × Nat := (0, 0)                -- the queue last granted, and the commands fetched by the grant (R348)
  credits : Nat × Nat × Nat := (0, 0, 0)     -- commands that the high, medium and low class may still fetch in the round (R348)
deriving DecidableEq, Repr, Inhabited

/-- The state of the block. -/
structure State where
  pending : List Instr := []                 -- commands waiting, first in, first out
  time : Nat := 0                            -- µs
  freeCtr : Nat := 0                         -- the model's own: index of the next free value
  reg : RegS := {}
  flt : FltS := {}
  ash : AshS := {}
  pwr : PwrS := {}
  cal : CalS := {}
  spn : SpnS := {}
  srv : SrvS := {}
  seq : SeqS := {}
  chan : ChanS := {}
  grt : GrtS := {}
  reqs : List Request := []                  -- read requests in progress (R121)
  wrt : WrtS := {}
  str : StrS := {}
  media : MediaS := {}
  stg : StgS := {}
  hob : HobS := {}
  cch : CchS := {}
  flu : FluS := {}
  drm : DrmS := {}
  obj : ObjS := {}
  zns : ZnsS := {}
  ember : EmberS := {}
  mop : MopS := {}
  sec : SecS := {}
  fw : FwS := {}
  cyz : CyzS := {}
  host : HostS := {}
  prof : Prof := {}
deriving DecidableEq, Repr, Inhabited

/-- The machine right after reset: every field at the default of its declaration. -/
def State.reset : State := {}

end Sys2Proof.Machine
end

