-- ==== Sys2Proof/Machine/Memory.lean ====
section
/-! DEFINITION. A memory as cells in one canonical form: addresses strictly rising, no cell equal to zero, which an
unlisted address reads as (log entry 21). -/
namespace Sys2Proof.Machine
open Sys2Proof

/-- The byte at an address. -/
def memGet : Mem → Nat → Byte
  | [], _ => 0
  | (a, b) :: m, x => if x = a then b else memGet m x

/-- One byte stored; storing zero removes the cell. -/
def memSet : Mem → Nat → Byte → Mem
  | [], x, v => if v = 0 then [] else [(x, v)]
  | (a, b) :: m, x, v =>
    if x < a then (if v = 0 then (a, b) :: m else (x, v) :: (a, b) :: m)
    else if x = a then (if v = 0 then m else (x, v) :: m)
    else (a, b) :: memSet m x v

/-- The canonical form above a bound. -/
def memWfFrom : Nat → Mem → Bool
  | _, [] => true
  | lo, (a, b) :: m => decide (lo ≤ a) && decide (b ≠ 0) && memWfFrom (a + 1) m

/-- The canonical form. -/
def Memory.wf (m : Mem) : Bool := memWfFrom 0 m

/-- The n bytes from an address. -/
def memRead (m : Mem) (a : Nat) : Nat → List Byte
  | 0 => []
  | n + 1 => memGet m a :: memRead m (a + 1) n

/-- A byte string stored from an address. -/
def memWrite (m : Mem) (a : Nat) : List Byte → Mem
  | [] => m
  | b :: bs => memWrite (memSet m a b) (a + 1) bs

end Sys2Proof.Machine
end

