-- ==== Sys2Proof/Machine/Keccak.lean ====
section
/-! DEFINITION. SHAKE256, which the spec names for digests, the leaf code's stream and the fingerprints (R49, R51, R66),
as FIPS 202 defines it (PRESUMED, log entry 5). A state is 25 lanes of 64 bits, lane x + 5y. -/
namespace Sys2Proof.Machine
open Sys2Proof

/-- A lane of a Keccak state. -/
def kLane (a : List DWord) (i : Nat) : DWord := a.getD i 0

/-- The rotation offsets of ρ, by lane. -/
def kRho : List Nat :=
  [0, 1, 62, 28, 27, 36, 44, 6, 55, 20, 3, 10, 43, 25, 39, 41, 45, 15, 21, 8, 18, 2, 61, 56, 14]

/-- The round constants of ι. -/
def kRc : List DWord :=
  [0x0000000000000001, 0x0000000000008082, 0x800000000000808A, 0x8000000080008000, 0x000000000000808B,
   0x0000000080000001, 0x8000000080008081, 0x8000000000008009, 0x000000000000008A, 0x0000000000000088,
   0x0000000080008009, 0x000000008000000A] ++
  [0x000000008000808B, 0x800000000000008B, 0x8000000000008089, 0x8000000000008003, 0x8000000000008002,
   0x8000000000000080, 0x000000000000800A, 0x800000008000000A, 0x8000000080008081, 0x8000000000008080,
   0x0000000080000001, 0x8000000080008008]

/-- One round of Keccak-f[1600]. -/
def kRound (a : List DWord) (rc : DWord) : List DWord :=
  let c := (List.range 5).map fun x => kLane a x ^^^ kLane a (x + 5) ^^^ kLane a (x + 10) ^^^ kLane a (x + 15) ^^^ kLane a (x + 20)
  let d := (List.range 5).map fun x => kLane c ((x + 4) % 5) ^^^ (kLane c ((x + 1) % 5)).rotateLeft 1
  let t := (List.range 25).map fun i => (kLane a i ^^^ kLane d (i % 5)).rotateLeft (kRho.getD i 0)
  -- π: lane (x, y) comes from lane (x + 3y, x)
  let b := (List.range 25).map fun i => kLane t ((i % 5 + 3 * (i / 5)) % 5 + 5 * (i % 5))
  let e := (List.range 25).map fun i =>
    kLane b i ^^^ (~~~(kLane b ((i % 5 + 1) % 5 + 5 * (i / 5))) &&& kLane b ((i % 5 + 2) % 5 + 5 * (i / 5)))
  e.set 0 (kLane e 0 ^^^ rc)

/-- Keccak-f[1600]. -/
def keccakF (a : List DWord) : List DWord := kRc.foldl kRound a

/-- A block of 136 bytes added into the state and permuted. -/
def kAbsorb (a : List DWord) (block : List Byte) : List DWord :=
  keccakF ((List.range 25).map fun i =>
    if i < 17 then kLane a i ^^^ BitVec.ofNat 64 (leNat (slice block (8 * i) 8)) else kLane a i)

/-- The blocks of a message absorbed; the fuel is the number of blocks. -/
def kAbsorbAll : Nat → List DWord → List Byte → List DWord
  | 0, a, _ => a
  | n + 1, a, m => kAbsorbAll n (kAbsorb a (m.take 136)) (m.drop 136)

/-- The message padded as SHAKE256 pads it: 1Fh, zeros, and 80h in the last byte of the block. -/
def kPad (m : List Byte) : List Byte :=
  let z := 135 - m.length % 136
  if z = 0 then m ++ [0x9F] else m ++ [0x1F] ++ List.replicate (z - 1) 0 ++ [0x80]

/-- The bytes of the first 17 lanes. -/
def kSqueeze (a : List DWord) : List Byte := (a.take 17).flatMap fun l => leBytes 8 l.toNat

/-- Output blocks of 136 bytes. -/
def kOut : Nat → List DWord → List Byte
  | 0, _ => []
  | n + 1, a => kSqueeze a ++ kOut n (keccakF a)

/-- The first n bytes of SHAKE256 over a message. -/
def shake256 (m : List Byte) (n : Nat) : List Byte :=
  let p := kPad m
  (kOut ((n + 135) / 136) (kAbsorbAll (p.length / 136) (List.replicate 25 0) p)).take n

end Sys2Proof.Machine
end

