-- ==== Sys2Proof/Machine/Format.lean ====
section
/-! DEFINITION. The Joveox media format (chapter 3): servo fields, frame header, scrambler, leaf code, leaf header and
its checks, the stripe code, placement and geometry. -/
namespace Sys2Proof.Machine
open Sys2Proof

/-! ## Servo fields (R41, R42) -/

/-- The Gray code of a servo track (R41). -/
def gray (t : BitVec 24) : BitVec 24 := t ^^^ (t >>> 1)

/-- The track a Gray code names. -/
def ungray (g : BitVec 24) : BitVec 24 :=
  let g := g ^^^ (g >>> 16)
  let g := g ^^^ (g >>> 8)
  let g := g ^^^ (g >>> 4)
  let g := g ^^^ (g >>> 2)
  g ^^^ (g >>> 1)

/-- The exclusive-or of the bits of a wedge number with its parity bit. -/
def parity10 (w : BitVec 10) : Bool := (List.range 10).foldl (fun p i => p != w.getLsbD i) false

/-- The 10 bits of a wedge number: [9] even parity over [8:0] (Table 3.1). -/
def wedgeBits (n : Nat) : BitVec 10 :=
  let w : BitVec 10 := BitVec.ofNat 10 (n % 512)
  if parity10 w then w ||| 0x200 else w

/-- The servo address mark (Table 3.1). -/
def servoMark : List Bool := [true, true, true, true, false, false, false, false, true, true, false, true, false, false, true, false]

/-- The bits of a number as dibits, most significant first: 1 as 10 and 0 as 01 (R41). -/
def toDibits {n : Nat} (w : BitVec n) : List Bool :=
  (List.range n).flatMap fun i => let b := w.getLsbD (n - 1 - i); [b, !b]

/-- n bits read from dibits, most significant first; none where a dibit is neither 10 nor 01 (R41). -/
def ofDibits : Nat → List Bool → Option (List Bool)
  | 0, _ => some []
  | n + 1, a :: b :: r => if a = b then none else (ofDibits n r).map (a :: ·)
  | _ + 1, _ => none

/-- The number that bits spell, most significant first. -/
def msbNat (l : List Bool) : Nat := l.foldl (fun a b => 2 * a + bit b) 0

/-- Cells 0 to 123 of a wedge (Table 3.1): servo gap, preamble, address mark, wedge number and track identity. -/
def servoHead (wedge track : Nat) : List Bool :=
  List.replicate 8 false ++ (List.replicate 8 [true, true, false, false]).flatten ++ servoMark ++ toDibits (wedgeBits wedge) ++
    toDibits (gray (BitVec.ofNat 24 track))

/-- Where a servo address mark first begins within a range of cells, with the cells after it; cells are numbered from the given
number on. -/
def findMark (lo hi : Int) : Int → List Bool → Option (Int × List Bool)
  | _, [] => none
  | i, c :: cs =>
    if lo ≤ i ∧ i ≤ hi ∧ (c :: cs).take 16 = servoMark then some (i, (c :: cs).drop 16) else findMark lo hi (i + 1) cs

/-- The timing point of a crossing (R159): between the two samples on either side of the mid-level, to 1/256 of a bit period
and rounded down; none where the state does not change from 0 to 1 there. -/
def crossAt (c : Crossing) : Option Qty :=
  if c.before < 0 ∧ 0 ≤ c.after then some (c.bit + ((256 * -c.before / (c.after - c.before) : Int) : Qty) / 256) else none

/-- A reader's wedge demodulated (R159): the address mark, predicted at cell 40, is searched within a half-width, or in every
cell; wedge number and track identity follow it. -/
def demod (win : Option Nat) (r : ReaderSample) : Option Demod :=
  let found := match win with
    | some w => findMark (40 - w) (40 + w) r.first r.cells
    | none => findMark r.first (r.first + r.cells.length) r.first r.cells
  match found with
  | none => none
  | some (i, rest) =>
    match ofDibits 10 rest, ofDibits 24 (rest.drop 20), crossAt r.a, crossAt r.b, crossAt r.c, crossAt r.d with
    | some w, some g, some a, some b, some c, some d =>
      some ⟨i - 40, BitVec.ofNat 10 (msbNat w), BitVec.ofNat 24 (msbNat g), b - a, c - a, d - c⟩
    | _, _, _, _, _, _ => none

/-- u_B or u_D of R42 from two intervals. -/
def burstU (t tAC : Qty) : Qty := 3 * t / tAC - 1

/-- A position brought into T − 2 ≤ y < T + 2 by steps of 4 (R161). -/
def nearTrack (t y : Qty) : Qty := y - 4 * ((y - t + 2) / 4).floor

/-- A reader's position from a track number and its bursts (R42, R161). -/
def readerPos (t : Nat) (uB uD : Qty) : Qty :=
  let base : Qty := 4 * (t / 4 : Nat)
  nearTrack t (if 1 / 8 ≤ uB ∧ uB < 7 / 8 then base + 4 * uB else base + 4 * uD - 2)

/-! ## GF(2⁸) with field polynomial 11Dh -/

/-- Multiplication by x. -/
def gfX (a : Byte) : Byte := if a.getLsbD 7 then (a <<< 1) ^^^ 0x1D else a <<< 1

/-- Multiplication, over the bits of the first factor from the highest. -/
def gfMulAux (a b : Byte) : Nat → Byte → Byte
  | 0, r => r
  | i + 1, r => gfMulAux a b i (if a.getLsbD i then gfX r ^^^ b else gfX r)

/-- Multiplication in GF(2⁸). -/
def gfMul (a b : Byte) : Byte := gfMulAux a b 8 0

/-- A square. -/
def gfSq (a : Byte) : Byte := gfMul a a

/-- The inverse a²⁵⁴ (R56): the product of the squares a², a⁴, …, a¹²⁸. -/
def gfInv (a : Byte) : Byte :=
  let a2 := gfSq a; let a4 := gfSq a2; let a8 := gfSq a4; let a16 := gfSq a8
  let a32 := gfSq a16; let a64 := gfSq a32; let a128 := gfSq a64
  gfMul a2 (gfMul a4 (gfMul a8 (gfMul a16 (gfMul a32 (gfMul a64 a128)))))

/-! ## Frame header (R45) -/

/-- One byte shifted into the remainder modulo g(x) = x⁴ + 0Fh·x³ + 36h·x² + 78h·x + 40h. -/
def rsStep (r : Byte × Byte × Byte × Byte) (m : Byte) : Byte × Byte × Byte × Byte :=
  let f := m ^^^ r.1
  (r.2.1 ^^^ gfMul f 0x0F, r.2.2.1 ^^^ gfMul f 0x36, r.2.2.2 ^^^ gfMul f 0x78, gfMul f 0x40)

/-- The four check bytes of twelve header bytes. -/
def rsCheck (m : List Byte) : List Byte :=
  let r := m.foldl rsStep (0, 0, 0, 0)
  [r.1, r.2.1, r.2.2.1, r.2.2.2]

/-- The code of a leaf kind (Table 3.6). -/
def kindCode : LeafKind → Nat
  | .data => 0 | .parity => 1 | .index => 2 | .ember => 3 | .cornerstone => 4 | .filler => 5 | .scratch => 0x7F
  | .other c => c.toNat

/-- The leaf kind of a code; a reader ignores any other (R53). -/
def kindOf (c : Nat) : LeafKind :=
  match c with
  | 0 => .data | 1 => .parity | 2 => .index | 3 => .ember | 4 => .cornerstone | 5 => .filler | 0x7F => .scratch
  | c => .other (BitVec.ofNat 8 c)

/-- Bytes 0–11 of the header of a frame at a position. -/
def headerData (p : Pos) (strength : Nat) (kind : LeafKind) (wseq : Nat) : List Byte :=
  BitVec.ofNat 8 (0x10 + strength) :: BitVec.ofNat 8 p.surface :: leBytes 2 p.ring ++ leBytes 2 p.slot ++
    BitVec.ofNat 8 (kindCode kind) :: 0 :: leBytes 4 wseq

/-- The 16 bytes of a frame header. -/
def headerBytes (p : Pos) (strength : Nat) (kind : LeafKind) (wseq : Nat) : List Byte :=
  let d := headerData p strength kind wseq
  d ++ rsCheck d

/-- The number of positions in which two byte strings differ. -/
def byteDistance (a b : List Byte) : Nat := ((List.zipWith (fun x y => if x = y then 0 else 1) a b).foldl (· + ·) 0)

/-- Whether 16 bytes are a codeword of the header code. -/
def rsValid (h : List Byte) : Bool := h.length = 16 && rsCheck (h.take 12) == h.drop 12

/-- The value of a polynomial with the given bytes, highest power first, at a point. -/
def gfEval (l : List Byte) (x : Byte) : Byte := l.foldl (fun a c => gfMul a x ^^^ c) 0

/-- α^i. -/
def gfPow : Nat → Byte
  | 0 => 1
  | i + 1 => gfX (gfPow i)

/-- A byte of a header changed. -/
def addAt (h : List Byte) (i : Nat) (e : Byte) : List Byte := h.set i (h.getD i 0 ^^^ e)

/-- The header with one wrong byte mended, when one byte explains the four syndromes. -/
def rsOne (h : List Byte) : Option (List Byte) :=
  (List.range 16).findSome? fun i =>
    -- byte i is the coefficient of x^(15−i); with one error of value e there, S_0 = e
    let h' := addAt h i (gfEval h 1)
    if rsValid h' then some h' else none

/-- The header with two wrong bytes mended: for each pair of positions the values follow from S_0 and S_1. -/
def rsTwo (h : List Byte) : Option (List Byte) :=
  (List.range 16).findSome? fun i => (List.range 16).findSome? fun j =>
    if j ≤ i then none
    else
      let x := gfPow (15 - i); let y := gfPow (15 - j)
      let s0 := gfEval h 1; let s1 := gfEval h 2
      let e2 := gfMul (s1 ^^^ gfMul x s0) (gfInv (x ^^^ y))
      let h' := addAt (addAt h i (s0 ^^^ e2)) j e2
      if rsValid h' then some h' else none

/-- A header decoded: up to two byte errors corrected (R45). -/
def rsDecode (h : List Byte) : Option (List Byte) :=
  if rsValid h then some h else match rsOne h with
    | some r => some r
    | none => rsTwo h

/-- A header is accepted only if it decodes, is of format version 1 (R38) and names the position being read (R45). -/
def headerAt (p : Pos) (h : List Byte) : Option (List Byte) :=
  match rsDecode h with
  | some d =>
    if (d.getD 0 0).toNat / 16 = 1 ∧ (d.getD 1 0).toNat = p.surface ∧ leNat (slice d 2 2) = p.ring ∧ leNat (slice d 4 2) = p.slot then some d else none
  | none => none

/-! ## Scrambler (R46) -/

/-- The seed of a position. -/
def scrambleSeed (p : Pos) : Nat :=
  let s := p.surface * 2 ^ 26 + p.ring * 2 ^ 13 + p.slot
  if s = 0 then 0x7FFFFFFF else s

/-- The scrambler run over a bit string; descrambling is the same. -/
def scramble : Nat → List Bool → List Bool
  | _, [] => []
  | st, c :: cs =>
    let b := st.testBit 30 != st.testBit 27
    (c != b) :: scramble ((st * 2 + bit b) % 2 ^ 31) cs

/-! ## Frame (R39, R44) -/

/-- A fixed pattern's bits, from left to right, given as a number of n bits. -/
def patternBits (n v : Nat) : List Bool := (List.range n).map fun i => v.testBit (n - 1 - i)

/-- 1100 written n times: preambles, pads and bursts. -/
def pattern1100 : Nat → List Bool
  | 0 => []
  | n + 1 => true :: true :: false :: false :: pattern1100 n

/-- The primary mark of Table 3.2. -/
def primaryMark : List Bool := patternBits 48 0b101001001111000100111011000011101001011011010010
/-- The secondary mark of Table 3.2. -/
def secondaryMark : List Bool := patternBits 48 0b010110110000111011000100011000010010110110101001

/-- The bits of a byte string, each byte from bit 0 (R39). -/
def bitsOfBytes (l : List Byte) : List Bool := l.flatMap fun b => (List.range 8).map b.getLsbD

/-- The frame bits of a leaf at a position from its codeword (Table 3.2): preamble, primary mark, header, the scrambled
codeword with the secondary mark after its first 3,920 bits, and the pad. -/
def frameStream (p : Pos) (l : Leaf) (cw : List Bool) : List Bool :=
  let scr := scramble (scrambleSeed p) cw
  pattern1100 24 ++ primaryMark ++ bitsOfBytes (headerBytes p l.strength l.kind l.wseq) ++ scr.take 3920 ++
    secondaryMark ++ scr.drop 3920 ++ pattern1100 16

/-! ## Leaf code (R47 to R51) -/

/-- Parity circulants p and column weight w of a strength (Table 3.3). -/
def codeParams : Nat → Nat × Nat
  | 0 => (514, 3) | 1 => (33, 3) | 2 => (45, 3) | 3 => (57, 3) | 4 => (70, 4) | 5 => (84, 4) | 6 => (105, 4) | _ => (129, 4)

/-- Codeword bits N of a strength. -/
def codeBits (s : Nat) : Nat := 512 * (514 + (codeParams s).1)

/-- Frame bits F = N + 384 (R44). -/
def frameBits (s : Nat) : Nat := codeBits s + 384

/-- A block of H: block row, block column, shift. -/
abbrev Blk := Nat × Nat × Nat

/-- The shift of the block at a row and column. -/
def blkAt (placed : List Blk) (r j : Nat) : Option Nat :=
  (placed.find? fun b => b.1 = r ∧ b.2.1 = j).map (·.2.2)

/-- closes_4cycle of R49: a row r′ already in column j and a column j′ before it close a cycle of length four. -/
def closes4 (placed : List Blk) (r j shift : Nat) (rows : List Nat) : Bool :=
  rows.any fun r' => (List.range j).any fun j' =>
    match blkAt placed r j', blkAt placed r' j', blkAt placed r' j with
    | some a, some b, some c => (c + 512 - b + a) % 512 = shift % 512
    | _, _, _ => false

/-- The first row not in a list, from a row on; the fuel is p. -/
def nextRow (p : Nat) (rows : List Nat) : Nat → Nat → Nat
  | 0, r => r
  | n + 1, r => if r ∈ rows then nextRow p rows n ((r + 1) % p) else r

/-- A shift drawn from the stream's words until it closes no cycle; the rest of the words. -/
def drawShift (placed : List Blk) (r j : Nat) (rows : List Nat) : List Nat → Nat × List Nat
  | [] => (0, [])
  | w :: ws => if closes4 placed r j (w % 512) rows then drawShift placed r j rows ws else (w % 512, ws)

/-- One block placed (R49): the placed blocks in order, the words left, and the rows of the column. -/
def placeBlock (p w j : Nat) (st : List Blk × List Nat × List Nat) (t : Nat) : List Blk × List Nat × List Nat :=
  let (placed, words, rows) := st
  let r := nextRow p rows p ((j + t * p / w + t * (j / p)) % p)
  if placed.any (fun b => b.1 = r) then
    let (sh, ws) := drawShift placed r j rows words
    (placed ++ [(r, j, sh)], ws, rows ++ [r])
  else (placed ++ [(r, j, 0)], words, rows ++ [r])

/-- Little-endian 16-bit words of a byte string. -/
def words16 : List Byte → List Nat
  | a :: b :: l => (a.toNat + 256 * b.toNat) :: words16 l
  | _ => []

/-- The stream message of a strength: "Joveox leaf code" and the strength. -/
def codeMessage (s : Nat) : List Byte :=
  [0x4A, 0x6F, 0x76, 0x65, 0x6F, 0x78, 0x20, 0x6C, 0x65, 0x61, 0x66, 0x20, 0x63, 0x6F, 0x64, 0x65, BitVec.ofNat 8 s]

/-- The information part of H for a strength, in placement order (R49), from the stream's words. -/
def codeBlocksFrom (s cols : Nat) (words : List Nat) : List Blk :=
  let (p, w) := codeParams s
  ((List.range cols).foldl (fun (st : List Blk × List Nat) j =>
    let (pl, ws, _) := (List.range w).foldl (placeBlock p w j) (st.1, st.2, [])
    (pl, ws)) ([], words)).1

/-- The information part of H for a strength; 65,536 stream words are more than its blocks can draw (log entry 6). -/
def codeBlocks (s : Nat) : List Blk := codeBlocksFrom s 514 (words16 (shake256 (codeMessage s) 131072))

/-- The fingerprint of a strength (R51). -/
def codeFingerprint (s : Nat) : List Byte :=
  shake256 ((codeBlocks s).flatMap fun b => leBytes 2 b.1 ++ leBytes 2 b.2.1 ++ leBytes 2 b.2.2) 8

/-- The bytes of a bit string; the fuel is the number of bytes. -/
def bytesOfBits : Nat → List Bool → List Byte
  | 0, _ => []
  | n + 1, l => BitVec.ofNat 8 ((l.take 8).foldr (fun b a => bit b + 2 * a) 0) :: bytesOfBits n (l.drop 8)

/-- Blocks of 512 bits of a byte string, bit a of block j being information bit 512j + a; the fuel is their number. -/
def blocksOf : Nat → List Byte → List (BitVec 512)
  | 0, _ => []
  | n + 1, l => BitVec.ofNat 512 (leNat (l.take 64)) :: blocksOf n (l.drop 64)

/-- λ_i of R50: the shifted information blocks of a row added; (P^s·u)_a = u_(a+s) is a rotation right by s. -/
def lambda (blks : List Blk) (u : List (BitVec 512)) (i : Nat) : BitVec 512 :=
  (blks.filter (fun b => b.1 = i)).foldl (fun a b => a ^^^ (u.getD b.2.1 0).rotateRight b.2.2) 0

/-- The parity blocks of R50: π_0 = λ_0, π_i = λ_i + π_(i−1). -/
def parityBlocks (lams : List (BitVec 512)) : List (BitVec 512) :=
  (lams.foldl (fun (st : List (BitVec 512) × BitVec 512) l => (st.1 ++ [l ^^^ st.2], l ^^^ st.2)) ([], 0)).1

/-- The codeword bits of the 32,896 information bytes of a leaf (R50). -/
def encodeLeaf (s : Nat) (info : List Byte) : List Bool :=
  let blks := codeBlocks s
  let u := blocksOf 514 info
  let par := parityBlocks ((List.range (codeParams s).1).map (lambda blks u))
  (u ++ par).flatMap fun b => (List.range 512).map b.getLsbD

/-! ## CRC-64 (R54) and the leaf header (R52) -/

/-- One bit of the CRC-64, most significant first, without reflection. -/
def crc64Bit (c : DWord) : DWord := if c.getLsbD 63 then (c <<< 1) ^^^ 0x42F0E1EBA9EA3693 else c <<< 1

/-- One byte. -/
def crc64Byte (c : DWord) (b : Byte) : DWord :=
  let c := c ^^^ (b.setWidth 64 <<< 56)
  crc64Bit (crc64Bit (crc64Bit (crc64Bit (crc64Bit (crc64Bit (crc64Bit (crc64Bit c)))))))

/-- The CRC-64 of a byte string. -/
def crc64 (l : List Byte) : DWord := l.foldl crc64Byte 0xFFFFFFFFFFFFFFFF ^^^ 0xFFFFFFFFFFFFFFFF

/-- A leaf of format version 1 with its own position, its reserved bytes zero, not yet sealed. -/
def mkLeaf (kind : LeafKind) (strength k m piece : Nat) (p : Pos) (homeKind : LeafKind) (stripe wseq : Nat)
    (coded : List Byte) : Leaf :=
  { kind, strength, k, m, piece, surface := p.surface, homeKind, ring := p.ring, slot := p.slot, stripe, wseq,
    pieceCheck := 0, coded }

/-- Bytes 0–31 of a leaf. -/
def leafHead (l : Leaf) : List Byte :=
  l.magic ++ [BitVec.ofNat 8 l.version, BitVec.ofNat 8 (kindCode l.kind), BitVec.ofNat 8 l.strength, BitVec.ofNat 8 l.k,
   BitVec.ofNat 8 l.m, BitVec.ofNat 8 l.piece, BitVec.ofNat 8 l.surface, BitVec.ofNat 8 (kindCode l.homeKind)] ++
  leBytes 2 l.ring ++ leBytes 2 l.slot ++ leBytes 8 l.stripe ++ leBytes 8 l.wseq

/-- PIECE_CHECK: the CRC-64 over bytes 0–31 and 40–32,895, the reserved bytes 40–47 included (R55). -/
def pieceCheckOf (l : Leaf) : DWord := crc64 (leafHead l ++ l.rsv ++ l.coded)

/-- A leaf with its PIECE_CHECK. -/
def sealLeaf (l : Leaf) : Leaf := { l with pieceCheck := pieceCheckOf l }

/-- The 32,896 information bytes of a leaf. -/
def leafBytes (l : Leaf) : List Byte := leafHead l ++ leBytes 8 l.pieceCheck.toNat ++ l.rsv ++ l.coded

/-- The leaf that 32,896 bytes spell, every byte kept: what it holds is judged by the checks (R120). -/
def leafOfBytes (b : List Byte) : Leaf :=
  let at' := fun i => (b.getD i 0).toNat
  { kind := kindOf (at' 5), strength := at' 6, k := at' 7, m := at' 8, piece := at' 9, surface := at' 10,
    homeKind := kindOf (at' 11), ring := leNat (slice b 12 2), slot := leNat (slice b 14 2),
    stripe := leNat (slice b 16 8), wseq := leNat (slice b 24 8), pieceCheck := BitVec.ofNat 64 (leNat (slice b 32 8)),
    coded := b.drop 48, magic := b.take 4, version := at' 4, rsv := slice b 40 8 }

/-- A leaf is one of format version 1: the only format the Nelvar reads (R38). -/
def leafFormat (l : Leaf) : Bool := l.magic == [0x4A, 0x4F, 0x56, 0x58] && decide (l.version = 1)

/-- LEAF_CRC as the coded region carries it. -/
def leafCrcField (coded : List Byte) : DWord := BitVec.ofNat 64 (leNat (coded.take 8))

/-- LEAF_CRC matches bytes 56–32,895. -/
def leafCrcOk (coded : List Byte) : Bool := leafCrcField coded = crc64 (coded.drop 8)

/-- The coded region of a data or index leaf: LEAF_CRC, the header fields of bytes 56–127, the payload. -/
def codedRegion (objectId version validLen offset lrange hours : Nat) (payload : List Byte) : List Byte :=
  let rest := leBytes 8 objectId ++ leBytes 4 version ++ leBytes 4 validLen ++ leBytes 8 offset ++
    leBytes 1 lrange ++ List.replicate 3 0 ++ leBytes 4 hours ++ List.replicate 40 0 ++ padTo 32768 payload
  leBytes 8 (crc64 rest).toNat ++ rest

/-- The payload of a coded region: bytes 128–32,895 of the leaf. -/
def payloadOf (coded : List Byte) : List Byte := coded.drop 80

/-- VALID_LEN of a coded region. -/
def validLenOf (coded : List Byte) : Nat := leNat (slice coded 20 4)

/-- A coded region of zeros: a filler leaf's, and a dead stripe's. -/
def zeroCoded : List Byte := List.replicate 32848 0

/-! ## Stripes (R56, R57) and reconstruction (R244) -/

/-- C_ij of R56 for m parity pieces. -/
def cauchy (m i j : Nat) : Byte := gfInv (BitVec.ofNat 8 i ^^^ BitVec.ofNat 8 (m + j))

/-- A byte string times a field element. -/
def gfScale (c : Byte) (d : List Byte) : List Byte := d.map (gfMul c)

/-- A sum of scaled byte strings. -/
def gfCombine (len : Nat) (cs : List Byte) (ds : List (List Byte)) : List Byte :=
  (List.zip cs ds).foldl (fun a p => xorBytes' a (gfScale p.1 p.2)) (List.replicate len 0)
where
  xorBytes' (a b : List Byte) : List Byte := List.zipWith (· ^^^ ·) a b

/-- Parity piece i of k data pieces' coded regions. -/
def stripeParity (m i : Nat) (data : List (List Byte)) : List Byte :=
  gfCombine 32848 ((List.range data.length).map (cauchy m i)) data

/-- The generator row of a piece (R244): a unit vector for a data piece, the C_ij for a parity piece. -/
def genRow (k m piece : Nat) : List Byte :=
  if piece < k then (List.range k).map fun j => if j = piece then 1 else 0
  else (List.range k).map fun j => cauchy m (piece - k) j

/-- One column of Gauss-Jordan elimination on the rows of [A | I]: a row with a nonzero pivot is brought to the
column, scaled, and taken from the others; none when no row has one. -/
def gjStep (rows : List (List Byte)) (c : Nat) : Option (List (List Byte)) :=
  match (List.range rows.length).find? fun r => c ≤ r ∧ (rows.getD r []).getD c 0 ≠ 0 with
  | none => none
  | some r =>
    let top := rows.getD c []
    let piv := gfScale (gfInv ((rows.getD r []).getD c 0)) (rows.getD r [])
    let rows := (rows.set r top).set c piv
    some (rows.zipIdx.map fun (row, i) =>
      if i = c then row else List.zipWith (fun x y => x ^^^ gfMul (row.getD c 0) y) row piv)

/-- The inverse of a k × k matrix over GF(2⁸). -/
def gfInverse (k : Nat) (a : List (List Byte)) : Option (List (List Byte)) :=
  let aug := a.zipIdx.map fun (row, i) => row ++ (List.range k).map fun j => if i = j then (1 : Byte) else 0
  ((List.range k).foldl (fun (st : Option (List (List Byte))) c => st.bind fun rows => gjStep rows c) (some aug)).map
    fun rows => rows.map (·.drop k)

/-- The k data pieces of a stripe from k source pieces (R244); none when the sources are not k distinct pieces. -/
def solveData (k m : Nat) (src : List (Nat × List Byte)) : Option (List (List Byte)) :=
  if src.length ≠ k then none
  else (gfInverse k (src.map fun p => genRow k m p.1)).map fun b => b.map fun row => gfCombine 32848 row (src.map (·.2))

/-- A piece of a stripe from k sources (R244): a data piece solved for, a parity piece computed again by R56. -/
def solvePiece (k m piece : Nat) (src : List (Nat × List Byte)) : Option (List Byte) :=
  (solveData k m src).map fun d => if piece < k then d.getD piece [] else stripeParity m (piece - k) d

/-- The group and slot of a stripe number (R57). -/
def stripeGroup (stripe : Nat) : Nat := stripe / 8192
/-- The slot of a stripe number (R57). -/
def stripeSlot (stripe : Nat) : Nat := stripe % 8192
/-- The stripe number of a group's slot (R57). -/
def stripeNo (group slot : Nat) : Nat := group * 8192 + slot

/-- The position of piece i of the stripe at slot n (R57): member (i + n) mod (k + m). -/
def piecePos (g : Group) (n i : Nat) : Option Pos :=
  (g.members[(i + n) % (g.k + g.m)]?).map fun mr => ⟨mr.1, mr.2, n⟩

/-! ## Geometry (R58 to R60) -/

/-- A role's layout: conventional, with three servo tracks left unwritten between tracks. -/
def conventional (r : RingRole) : Bool :=
  match r with
  | .data | .retired => false
  | .index | .ember | .cornerstone => true

/-- Slots of a ring (R58). -/
def ringSlots (r : RingRole) : Nat := if conventional r then 2048 else 8192

/-- Frames per track: L = ⌊480 × D_z ÷ F_s⌋ (R58). -/
def framesPerTrack (dz strength : Nat) : Nat := 480 * dz / frameBits strength

/-- Servo tracks a ring spans (R59): B = 4 × ⌈⌈8,192 ÷ L⌉ ÷ 4⌉. -/
def ringSpan (l : Nat) : Nat := 4 * (((8192 + l - 1) / l + 3) / 4)

/-- The servo track a slot lies on (R58). -/
def slotTrack (r : Ring) (l slot : Nat) : Nat := r.firstTrack + (if conventional r.role then 4 else 1) * (slot / l)

/-- First bit of a slot's frame in its track's frame stream. -/
def slotStartBit (r : Ring) (l slot : Nat) : Nat := slot % l * frameBits r.strength

/-- The wedge a slot's first bit lies in (R58, R62). -/
def slotWedge (r : Ring) (z : ZoneGeom) (l slot : Nat) : Nat :=
  let t := slot / l
  let first := if r.role = .cornerstone then 0 else t * z.sz % 480
  (first + slotStartBit r l slot / z.dz) % 480

/-- The zone a servo track lies in: the last one that begins at or before it. -/
def zoneOf (zones : List ZoneGeom) (track : Nat) : Nat := (zones.takeWhile fun z => z.firstTrack ≤ track).length - 1

end Sys2Proof.Machine
end

