-- ==== Sys2Proof/Machine/Views.lean ====
section
/-! DEFINITION. Quantities that follow from the state and that registers show: hours, heads and rings, the dirty limit,
the shape of the next group, the speed window. -/
namespace Sys2Proof.Machine
open Sys2Proof

/-- Operating hours in units of 1/16 h, that is 225 s. -/
def State.hours (s : State) : Nat := s.pwr.hoursBase + (s.time - s.pwr.upAt) / 225000000

/-- Milliseconds since the last power-up; stops at FFFFFFFFh (Table 17.6). -/
def State.uptimeMs (s : State) : Nat := min 0xFFFFFFFF ((s.time - s.pwr.upAt) / 1000)

/-- CRC-32C (R544): reflected polynomial 82F63B78h, one bit. -/
def crc32cBit (c : Word) : Word := if c.getLsbD 0 then (c >>> 1) ^^^ 0x82F63B78 else c >>> 1

/-- CRC-32C, one byte. -/
def crc32cByte (c : Word) (b : Byte) : Word :=
  let c := c ^^^ b.setWidth 32
  crc32cBit (crc32cBit (crc32cBit (crc32cBit (crc32cBit (crc32cBit (crc32cBit (crc32cBit c)))))))

/-- CRC-32C of a byte string: initial value FFFFFFFFh, final exclusive-or FFFFFFFFh (R544). -/
def crc32c (l : List Byte) : Word := l.foldl crc32cByte 0xFFFFFFFF ^^^ 0xFFFFFFFF

/-- The actuator of a surface (R45). -/
def actOf (surface : Nat) : Nat := surface / 8

/-- A head's state. -/
def headState (s : State) (surface : Nat) : HeadState := vget s.str.heads surface .absent

/-- Whether a head takes new groups and writes. -/
def headWrites (s : State) (surface : Nat) : Bool :=
  headState s surface = .inService ∧ ¬ (vget s.str.actOut (actOf surface) true) ∧
    ¬ (vget s.wrt.act (actOf surface) {}).outOfService

/-- A ring by surface and number. -/
def ringAt (s : State) (surface ring : Nat) : Option Ring :=
  (s.str.rings.find? fun r => r.1 = (surface, ring)).map (·.2)

/-- A ring group by identity. -/
def groupById (s : State) (id : Nat) : Option Group := s.str.groups.find? fun g => g.id = id

/-- The group that holds a ring and is not freed. -/
def groupOfRing (s : State) (surface ring : Nat) : Option Group :=
  s.str.groups.find? fun g => g.state ≠ .freed ∧ (surface, ring) ∈ g.members

/-- The actuators that hold a writable ember ring (R257). -/
def emberActs (s : State) : List Nat :=
  (List.range 4).filter fun a =>
    s.str.rings.any fun r => r.2.role = .ember ∧ actOf r.1.1 = a ∧ headWrites s r.1.1

/-- Two actuators hold a writable ember ring (R257). -/
def twoEmber (s : State) : Bool := 2 ≤ (emberActs s).length

/-- The leaves that count as dirty data, 32,768 bytes each (R289). -/
def dirtyLeaves (s : State) : List StagedLeaf := s.stg.leaves.filter (·.dirty)

/-- Dirty data in units of 32 KiB. -/
def dirtyCount (s : State) : Nat := (dirtyLeaves s).length

/-- Dirty data in whole MiB, rounded up. -/
def dirtyMiB (s : State) : Nat := (dirtyCount s + 31) / 32

/-- The dirty limit of R206 at a speed, in MiB. -/
def dirtyLimitAt (floor : Nat) (v : Qty) : Nat :=
  if v < 3600 then 4
  else if v ≥ floor then 16
  else 4 + (12 * (v * v - 3600 * 3600) / ((floor : Qty) * floor - 3600 * 3600)).floor.toNat

/-- The present dirty limit in MiB (R13, R14, R206, R257): at the lower of the measured speed, the present target and a
lower target on its way; 4 while the spindle banks and while fewer than two actuators hold a writable ember ring. -/
def dirtyLimit (s : State) : Nat :=
  if ¬ twoEmber s ∨ s.spn.bank ≠ .none then 4
  else
    let v := min s.spn.speed s.spn.target
    dirtyLimitAt s.spn.floor (match s.spn.wanted with | some w => min v w | none => v)

/-- The dirty data is at or below the present limit. -/
def dirtyWithin (s : State) : Bool := dirtyCount s ≤ 32 * dirtyLimit s

/-- The free rings of a role on a surface, lowest number first: in no group that is not freed, not to be retired. -/
def freeRings (s : State) (role : RingRole) (surface : Nat) : List Nat :=
  sortBy (· ≤ ·) ((s.str.rings.filter fun r => r.1.1 = surface ∧ r.2.role = role ∧ (groupOfRing s surface r.1.2).isNone ∧
    r.1 ∉ s.str.retiring).map (·.1.2))

/-- Surfaces with the number of their free rings of a role, for the heads IN_SERVICE. -/
def ringCounts (s : State) (role : RingRole) : List (Nat × Nat) :=
  (List.range 32).filterMap fun f =>
    let n := (freeRings s role f).length
    if headState s f = .inService ∧ n ≠ 0 then some (f, n) else none

/-- k_new for a cap (R239). -/
def kNewFor (counts : List (Nat × Nat)) (k m cap : Nat) : Nat :=
  let t := ((List.range 4).map fun a => min (counts.filter fun c => actOf c.1 = a).length cap).foldl (· + ·) 0
  min k (t - m)

/-- k_new and the cap that the loop of R239 ends with. -/
def groupShape (counts : List (Nat × Nat)) (k m kMin : Nat) : Option (Nat × Nat) :=
  let k1 := kNewFor counts k m m
  if kMin ≤ k1 then some (k1, m)
  else
    let k2 := kNewFor counts k m 32
    if kMin ≤ k2 then some (k2, 32) else none

/-- The first element of least measure. -/
def argMin {α : Type} (f : α → Nat) : List α → Option α
  | [] => none
  | x :: xs => match argMin f xs with
    | some y => if f x ≤ f y then some x else some y
    | none => some x

/-- One choice of R239: the actuator with the fewest members, then its head with the most free rings. -/
def chooseOne (counts : List (Nat × Nat)) (cap : Nat) (chosen : List Nat) : Option Nat :=
  let cnt := fun a => (chosen.filter fun f => actOf f = a).length
  let open' := fun a => counts.filter fun c => actOf c.1 = a ∧ c.1 ∉ chosen
  match argMin cnt ((List.range 4).filter fun a => cnt a < cap ∧ (open' a) ≠ []) with
  | none => none
  | some a => (argMin (fun c => 65536 - c.2) (open' a)).map (·.1)

/-- The members' surfaces, as many as asked for. -/
def chooseMembers (counts : List (Nat × Nat)) (cap : Nat) : Nat → List Nat → List Nat
  | 0, chosen => chosen
  | n + 1, chosen => match chooseOne counts cap chosen with
    | some f => chooseMembers counts cap n (chosen ++ [f])
    | none => chosen

/-- The profile a new group of a role takes: k, m and K_MIN (R237, R239). -/
def roleProfile (s : State) (role : RingRole) : Nat × Nat × Nat :=
  if role = .index then (s.str.idxK, s.str.idxM, 1)
  else (bitsOf s.reg.ck.cfgStripe 28 24, bitsOf s.reg.ck.cfgStripe 19 16, bitsOf s.reg.ck.cfgSpare 20 16)

/-- The K a data group formed now would have (R415), 0 when none can be formed. -/
def kNewNow (s : State) : Nat :=
  let (k, m, kMin) := roleProfile s .data
  match groupShape (ringCounts s .data) k m kMin with
  | some (kn, _) => kn
  | none => 0

/-- ACT_TOL: the next data group meets R238. -/
def actTol (s : State) : Bool :=
  let (k, m, kMin) := roleProfile s .data
  match groupShape (ringCounts s .data) k m kMin with
  | some (kn, cap) =>
    let ms := chooseMembers (ringCounts s .data) cap (kn + m) []
    (List.range 4).all fun a => (ms.filter fun f => actOf f = a).length ≤ m
  | none => false

/-- Groups, not freed, with a member on an OUT head. -/
def reflowGroups (s : State) : List Group :=
  s.str.groups.filter fun g => g.state ≠ .freed ∧ g.members.any fun mr => headState s mr.1 = .out

/-- Data rings on heads IN_SERVICE. -/
def dataRings (s : State) : Nat :=
  (s.str.rings.filter fun r => r.2.role = .data ∧ headState s r.1.1 = .inService).length

/-- LOCKED_EMPTY of CCH_STAT. -/
def lockedEmpty (s : State) : Nat := (s.cch.lines.filter fun l => l.locked ∧ l.state = .valid ∧ l.valid = 0).length

/-- The measured speed is within a fraction of the target. -/
def speedWithin (s : State) (f : Qty) : Bool := absQ (s.spn.speed - s.spn.target) ≤ f * s.spn.target

/-- IN_WINDOW of SPN_STAT: within ±0.05 % of the target, and no re-catch or restart (R222, Table 8.8). -/
def inWindow (s : State) : Bool :=
  speedWithin s (5 / 10000) && s.spn.target ≠ 0 && s.spn.state ≠ .recatch && s.spn.state ≠ .restart

/-- The window for writes (R199): IN_WINDOW with the speed settled, that is, in Running. -/
def windowOpen (s : State) : Bool := inWindow s && s.spn.state = .running

/-- What drives SB_ALERT_N: nothing in I3C mode (R558); in SMBus mode a level that the spec ties to no event, and that is free. -/
def sbAlertN (s : State) : Option Bool := if s.cyz.sideband = .i3c then none else some (Config.sbAlert s.freeCtr)

/-- An actuator's read path. -/
def chanAt (s : State) (a : Nat) : ChanAct := vget s.chan.act a {}

/-- A spare lane. -/
def spareAt (s : State) (j : Nat) : SpareLane := vget s.chan.spare j {}

/-- The spare that serves a reader. -/
def spareOf (s : State) (a : Nat) (trail : Bool) : Option Nat :=
  (List.range 2).find? fun j => (spareAt s j).role ≠ .idle ∧ (spareAt s j).act = a ∧ (spareAt s j).trail = trail

/-- The lane of a reader: L(2n) lead, L(2n + 1) trail (R70). -/
def laneOf (a : Nat) (trail : Bool) : Nat := 2 * a + bit trail

/-- A reader has no lane: its own is faulty and no spare is connected to it (R76). -/
def noLane (s : State) (a : Nat) (trail : Bool) : Bool :=
  (vget s.chan.lane (laneOf a trail) {}).faulty && (spareOf s a trail).isNone

/-- The count of an actuator's wedges when a reader of a surface stopped giving samples; none while it gives them. The samples
of the other reader alone are used from the next servo gap (R82). -/
def readerLost (s : State) (surface : Nat) (trail : Bool) : Option Nat :=
  if noLane s (actOf surface) trail then some (lookupD s.chan.lostAt (laneOf (actOf surface) trail) 0)
  else (s.chan.badReader.find? fun e => e.1 = surface ∧ e.2.1 = trail).map (·.2.2)

/-- A reader gives no samples: no lane, or the reader itself open or short. -/
def readerOut (s : State) (surface : Nat) (trail : Bool) : Bool := (readerLost s surface trail).isSome

/-- A reader is between step 1 and step 3 of a lane switch (R72, R109). -/
def switching (s : State) (a : Nat) (trail : Bool) : Bool :=
  match spareOf s a trail with
  | some j => (spareAt s j).step ≠ .steady
  | none => false

/-- RD_MSE of a reader is stale (R109). -/
def mseStale (s : State) (a : Nat) (trail : Bool) : Bool := !s.cal.up || switching s a trail

/-- ACTn_IRATE0. -/
def irate0 (s : State) (a : Nat) : Word :=
  packFields [(16, 16, (chanAt s a).irBound.toNat), (0, 16, (chanAt s a).irDet.toNat)]

/-- ACTn_IRATE1. -/
def irate1 (s : State) (a : Nat) : Word :=
  let c := chanAt s a
  packFields [(31, 1, bit c.irValid), (24, 3, c.irHead.toNat), (12, 12, c.irZone.toNat), (0, 12, c.irGap.toNat)]

/-- Open and closed zones (R422). -/
def zoneActive (z : Zone) : Bool := z.state = .implicitOpen ∨ z.state = .explicitOpen ∨ z.state = .closed

/-- Zones active now. -/
def activeZones (s : State) : Nat := (s.zns.zones.filter zoneActive).length

end Sys2Proof.Machine
end

