-- ==== Sys2Proof/Machine/Regs.lean ====
section
/-! DEFINITION. What each register reads as, computed from the state (chapter 19 and the register sections of the
other chapters), the decoding of offsets (R534, R536), captures (R545) and the configuration CRC (R544). -/
namespace Sys2Proof.Machine
open Sys2Proof

/-! ## Decoding (R534, R536) -/

/-- Block indices of Table 19.1. -/
def bHRT : Nat := 0
def bSTN : Nat := 1
def bHOB : Nat := 2
def bCCH : Nat := 3
def bFLU : Nat := 4
def bGRT : Nat := 5
def bACT (n : Nat) : Nat := 6 + n
def bACTS : Nat := 10
def bSEQ : Nat := 11
def bDMP : Nat := 12
def bSPN : Nat := 13
def bPWR : Nat := 14
def bCAL : Nat := 15
def bFLT : Nat := 16
def bASH : Nat := 17
def bCFG : Nat := 18
def bHST : Nat := 19

/-- The decode masks of Table 19.1, by block index. -/
def blkMask (b : Nat) : Nat :=
  [0x00C, 0x004, 0x6FC, 0x2FC, 0xFFC, 0x01C, 0x3FC, 0x3FC, 0x3FC, 0x3FC, 0x000, 0xF0C, 0xE1C, 0x0FC, 0x00C, 0x000,
   0x01C, 0x00C, 0x13C, 0x00C].getD b 0

/-- The offset of the register that serves an offset of a block. -/
def regDecode (b o : Nat) : Nat :=
  if 0xFF0 ≤ o % 4096 then o % 4096 &&& 0xFFC else o % 4096 &&& blkMask b

/-! ## The configuration CRC (R544) -/

/-- The words of the CK registers in the order of R544. -/
def ckWords (c : CkRegs) : List Word :=
  [c.hobCfg, c.cchCfg, c.grtCfg] ++ c.syncCfg.toList ++ [c.seqCfg] ++
    (List.zip c.ontrk.toList c.srvCfg.toList).flatMap (fun p => [p.1, p.2]) ++ [c.spnCfg0, c.spnCfg1] ++ c.curve.toList ++
    [c.pwrCfg, c.cfgStripe, c.cfgSpare, c.cfgZns]

/-- The CK field mask of a register; 0 for a register without CK fields. -/
def ckMask (b o : Nat) : Word :=
  match b with
  | 2 => if o = 0 then 0x00FF00FF else 0
  | 3 => if o = 0 then 0x0F00FFFF else 0
  | 5 => if o = 0 then 0x3F3F3F3F else 0
  | 6 | 7 | 8 | 9 => if o = 0x100 then 0x0001FF0F else 0
  | 11 => if o = 0xF00 then 0x0000FFFF else 0
  | 12 => if o < 0xC00 ∧ o % 512 = 0x10 then 0x0FFFFFFF else if o < 0xC00 ∧ o % 512 = 0x14 then 0x000FFFFF else 0
  | 13 => if o = 0 then 0xFFFFFFFF else if o = 4 then 0xFFFFFF00 else if 0x80 ≤ o ∧ o ≤ 0xBC then 0x00FFFFFF else 0
  | 14 => if o = 4 then 0x00FFFFFF else 0
  | 18 => if o = 0x100 then 0x1F0F1F0F else if o = 0x104 then 0xFF1FFFFF else if o = 0x118 then 0x000FFFFF else 0
  | _ => 0

/-- CK registers with their reserved bits zero (R7). -/
def ckMasked (c : CkRegs) : CkRegs :=
  { hobCfg := c.hobCfg &&& ckMask 2 0, cchCfg := c.cchCfg &&& ckMask 3 0, grtCfg := c.grtCfg &&& ckMask 5 0,
    syncCfg := c.syncCfg.map fun w => w &&& ckMask 6 0x100, seqCfg := c.seqCfg &&& ckMask 11 0xF00,
    ontrk := c.ontrk.map fun w => w &&& ckMask 12 0x10, srvCfg := c.srvCfg.map fun w => w &&& ckMask 12 0x14,
    spnCfg0 := c.spnCfg0 &&& ckMask 13 0, spnCfg1 := c.spnCfg1 &&& ckMask 13 4, curve := c.curve.map fun w => w &&& ckMask 13 0x80,
    pwrCfg := c.pwrCfg &&& ckMask 14 4, cfgStripe := c.cfgStripe &&& ckMask 18 0x100, cfgSpare := c.cfgSpare &&& ckMask 18 0x104,
    cfgZns := c.cfgZns &&& ckMask 18 0x118 }

/-- The configuration CRC. -/
def ckCrc (c : CkRegs) : Word := crc32c ((ckWords c).flatMap fun w => leBytes 4 w.toNat)

/-! ## Field codes -/

/-- A quantity as two's complement in n bits, saturated. -/
def signedField (n : Nat) (x : Qty) : Nat :=
  let m : Int := 2 ^ (n - 1)
  let v := max (-m) (min (m - 1) x.floor)
  (v % (2 * m)).toNat

/-- Life-cycle codes (Table 16.8; 0 before the fuses are read). -/
def lcCode : LifeCycle → Nat
  | .unread => 0 | .manufacture => 1 | .factoryTest => 2 | .provisioned => 3 | .deployed => 4 | .diagnostic => 5
  | .decommissioned => 6

/-- JTAG of STN_LC. -/
def jtagCode : LifeCycle → Nat
  | .manufacture | .factoryTest => 2
  | .diagnostic => 1
  | _ => 0

/-- STATE of SPN_STAT (Table 8.1): degraded while a lockstep pair runs the spindle. -/
def spnCode (s : State) : Nat :=
  let deg := match s.spn.driver with | .lockstepPair _ => true | _ => false
  match s.spn.state with
  | .banked => 0 | .starting => 1
  | .running => if deg then 7 else 2
  | .changing => if deg then 7 else 3
  | .recatch => 4 | .restart => 5 | .decelerating => 6 | .degraded => 7

/-- MODE of the spindle role. -/
def spnModeCode : SpnMode → Nat
  | .off => 0 | .measuring => 1 | .braking => 2 | .openLoop => 3 | .closedLoop => 4 | .highZ => 5 | .regenerating => 6
  | .frozen => 7

/-- MODE of an actuator role (Table 7.4). -/
def actModeCode : ActMode → Nat
  | .unloaded => 0 | .loading => 1 | .seek => 2 | .settle => 3 | .track => 4 | .coast => 5 | .reacquire => 6 | .unloading => 7

/-- MODE of a sequencer (Table 11.9). -/
def seqModeCode : SeqMode → Nat
  | .quiet => 0 | .running => 1 | .waiting => 2 | .trap => 3

/-- A head state's code (Table 9.2). -/
def headCode : HeadState → Nat
  | .inService => 0 | .readOnly => 1 | .out => 2 | .absent => 3

/-- The role of a spare lane. -/
def laneRoleCode : LaneRole → Nat
  | .idle => 0 | .substitute => 1 | .standIn => 2

/-- Ones in a 16-bit word. -/
def ones (w : BitVec 16) : Nat := ((List.range 16).filter fun i => w.getLsbD i).length

/-- HEARTBEAT toggles (R496). -/
def hbRuns (s : State) : Bool :=
  s.flt.fwRunning && !s.flt.class3 && s.flt.lsRun.toList.all id

/-! ## Registers by block, at decoded offsets -/

/-- Word w of an entry of ACTn_CE_LOG (Table 5.15). -/
def ceWord (e : CeEntry) (w : Nat) : Word :=
  match w with
  | 0 => packFields [(24, 8, e.surface), (0, 16, e.ring)]
  | 1 => packFields [(16, 16, e.slot), (8, 8, e.hits), (7, 1, bit e.valid), (4, 3, e.step)]
  | 2 => packFields [(26, 6, e.iter), (0, 20, e.corrected)]
  | _ => BitVec.ofNat 32 e.hours

/-- Word w of an entry of HOB_CE_LOG or CCH_CE_LOG (Table 10.11). -/
def hobCeWord (e : HobCeEntry) (w : Nat) : Word :=
  match w with
  | 0 => packFields [(28, 4, e.bank), (16, 12, e.row), (0, 7, e.word)]
  | 1 => packFields [(24, 8, e.syndrome), (16, 8, e.hits), (15, 1, bit e.valid), (14, 1, bit e.ue), (13, 1, bit e.fb)]
  | 2 => BitVec.ofNat 32 e.hours
  | _ => packFields [(0, 5, e.master)]

/-- An entry of a log read at offsets 200h to 2FCh. -/
def logWord {α : Type} (l : List α) (f : α → Nat → Word) (o : Nat) : Word :=
  match l[(o - 0x200) / 16]? with
  | some e => f e (o % 16 / 4)
  | none => 0

/-- HRT. -/
def peekHRT (s : State) (o : Nat) : Word :=
  match o with
  | 0x000 => match s.fw.running with
    | some i => packFields [(16, 16, i.ver), (8, 8, i.svn), (0, 2, s.fw.active + 1)]
    | none => 0
  | 0x004 => BitVec.ofNat 32 s.prof.pversion
  | 0x008 => packFields [(4, 1, bit s.flt.lsRun[0]), (5, 1, bit s.flt.lsRun[1]), (0, 4, s.flt.appRun.toNat)]
  | _ => 0

/-- STN. -/
def peekSTN (s : State) (o : Nat) : Word :=
  match o with
  | 0x000 => packFields [(16, 8, s.sec.diagTrips), (12, 4, s.sec.svnShown), (10, 2, jtagCode s.sec.lc), (9, 1, bit s.sec.eval),
      (8, 1, bit s.sec.zeroized), (0, 3, lcCode s.sec.lc)]
  | 0x004 => packFields [(31, 1, bit s.sec.latched), (28, 3, s.sec.cause.toNat), (0, 16, s.sec.count.toNat)]
  | _ => 0

/-- HOB. -/
def peekHOB (s : State) (o : Nat) : Word :=
  match o with
  | 0x000 => s.reg.ck.hobCfg
  | 0x010 => packFields [(16, 16, s.hob.ue.toNat), (0, 16, s.hob.ce.toNat)]
  | 0x020 => (s.reg.hobFlip &&& 0x80FF07FF) ||| packFields [(30, 1, bit s.hob.flipValid), (28, 2, s.hob.flipResult.toNat)]
  | 0x024 => s.reg.hobMlo
  | 0x028 => s.reg.hobMhi
  | o =>
    if 0x200 ≤ o ∧ o ≤ 0x2FC then logWord s.hob.ceLog hobCeWord o
    else if 0x400 ≤ o ∧ o ≤ 0x4BC then
      let c := (vget s.hob.conf ((o - 0x400) / 8) 0).toNat
      BitVec.ofNat 32 (if o % 8 = 0 then c else c / 2 ^ 32)
    else 0

/-- CCH. -/
def peekCCH (s : State) (o : Nat) : Word :=
  match o with
  | 0x000 => s.reg.ck.cchCfg
  | 0x004 => packFields [(16, 16, s.cch.wayOff.toNat), (0, 10, lockedEmpty s)]
  | o => if 0x200 ≤ o ∧ o ≤ 0x2FC then logWord s.cch.ceLog hobCeWord o else 0

/-- A flue channel's registers (Tables 10.18 to 10.20). -/
def peekChannel (c : FluCh) (o : Nat) : Word :=
  let act := match c.active with | some d => d | none => c.whole
  let shd := c.shadow.headD default
  match o with
  | 0x00 => packFields [(31, 1, bit c.pause), (30, 1, bit c.shdValid), (28, 2, c.cls.toNat), (16, 6, c.serves.toNat)]
  | 0x04 => packFields [(31, 1, bit c.active.isSome), (30, 1, bit c.paused), (29, 1, bit c.overrun), (28, 1, bit c.descBad),
      (16, 8, c.reason.toNat), (0, 16, c.done.toNat)]
  | 0x08 => BitVec.ofNat 32 act.src
  | 0x0C => BitVec.ofNat 32 (act.src / 2 ^ 32)
  | 0x10 => BitVec.ofNat 32 act.dst
  | 0x14 => BitVec.ofNat 32 (act.dst / 2 ^ 32)
  | 0x18 => BitVec.ofNat 32 (if c.active.isSome then act.len else 0)
  | 0x1C => BitVec.ofNat 32 act.addr
  | 0x20 => BitVec.ofNat 32 shd.src
  | 0x24 => BitVec.ofNat 32 (shd.src / 2 ^ 32)
  | 0x28 => BitVec.ofNat 32 shd.dst
  | 0x2C => BitVec.ofNat 32 (shd.dst / 2 ^ 32)
  | 0x30 => BitVec.ofNat 32 shd.len
  | 0x34 => c.shdDesc
  | _ => 0

/-- FLU. -/
def peekFLU (s : State) (o : Nat) : Word :=
  let svc := fun (a n : Nat) => packFields ((List.range n).map fun i => (i, 1, bit ((s.flu.ch.toList.getD (a + i) s.flu.ch[0]).inService)))
  match o with
  | 0x004 => svc 0 32
  | 0x008 => svc 32 8
  | 0x010 => packFields [(31, 1, bit s.flu.stopped), (0, 16, s.flu.events.toNat)]
  | o =>
    if 0x100 ≤ o then match s.flu.ch.toList[(o - 0x100) / 64]? with
      | some c => peekChannel c (o % 64)
      | none => 0
    else 0

/-- GRT. -/
def peekGRT (s : State) (o : Nat) : Word :=
  let g := s.grt.grate.toList
  match o with
  | 0x000 => s.reg.ck.grtCfg
  | 0x004 => packFields ((28, 2, s.str.gratesLeft) :: (g.zipIdx.map fun (x, i) => (14 + i, 1, bit x.failed)) ++
      g.zipIdx.map fun (x, i) => (i, 1, bit x.inService))
  | 0x010 => packFields [(16, 16, s.grt.enter2.toNat), (0, 16, s.grt.enter1.toNat)]
  | 0x014 => packFields [(24, 8, s.grt.miscor.toNat), (12, 12, s.grt.enter4.toNat), (0, 12, s.grt.enter3.toNat)]
  | _ => 0

/-- ACT0 to ACT3. -/
def peekACT (s : State) (a o : Nat) : Word :=
  let c := chanAt s a
  let w := vget s.wrt.act a {}
  match o with
  | 0x100 => vget s.reg.ck.syncCfg a 0
  | 0x108 => packFields [(16, 16, c.priMiss.toNat), (0, 16, c.slip.toNat)]
  | 0x10C => packFields [(16, 16, c.blindFail.toNat), (0, 16, c.blindOk.toNat)]
  | 0x140 => irate0 s a
  | 0x144 => irate1 s a
  | 0x150 => packFields [(31, 1, bit (mseStale s a true)), (16, 15, c.mseT.toNat), (15, 1, bit (mseStale s a false)), (0, 15, c.mseL.toNat)]
  | 0x180 => vget s.grt.ceCnt a 0
  | 0x190 => vget s.reg.flipCtl a 0
  | 0x194 => vget s.reg.flipPos a 0
  | 0x198 => vget s.grt.flipRes a 0
  | 0x300 => packFields [(16, 16, w.abort.toNat), (0, 16, w.verifyFail.toNat)]
  | 0x304 => packFields [(31, 1, bit w.paValid), (24, 3, w.paHead), (0, 8, w.paFlags.toNat)]
  | o => if 0x200 ≤ o ∧ o ≤ 0x2FC then logWord (vget s.grt.ceLog a []) ceWord o else 0

/-- ACTS_XBAR (Table 4.9). -/
def peekACTS (s : State) : Word :=
  let f : Nat → Nat → List (Nat × Nat × Nat) := fun j o => let x := spareAt s j
    [(o + 4, 2, laneRoleCode x.role), (o + 2, 2, x.act), (o + 1, 1, bit x.trail), (o, 1, bit x.failed)]
  packFields (f 0 0 ++ f 1 8)

/-- SEQ. -/
def peekSEQ (s : State) (o : Nat) : Word :=
  match o with
  | 0xF00 => s.reg.ck.seqCfg
  | 0xF04 => packFields [(31, 1, bit s.seq.switchReq), (0, 16, s.seq.switches.toNat)]
  | o => match s.seq.sq.toList[o / 256]? with
    | none => 0
    | some q => match o % 256 with
      | 0x00 => packFields [(29, 3, q.serves), (27, 2, seqModeCode q.mode), (26, 1, bit q.hold), (14, 8, q.trapPend.toNat), (0, 14, q.pc.toNat)]
      | 0x04 => packFields [(16, 16, q.base.toNat), (8, 8, q.patch.toNat)]
      | 0x08 => q.crc
      | 0x0C => packFields [(25, 3, q.lastCause.toNat), (16, 9, q.storeCe.toNat), (0, 16, q.traps.toNat)]
      | _ => 0

/-- DMPn_STAT: in an actuator's role, in the spindle role, idle or retired. -/
def peekDmpStat (s : State) (n : Nat) : Word :=
  let r := vget s.srv.serves n 7
  if r = 4 then packFields [(31, 1, bit s.spn.stale), (28, 3, 4), (24, 3, spnModeCode s.spn.mode), (23, 1, bit s.spn.obsValid),
    (22, 1, bit s.spn.regenLim)]
  else match s.srv.loop.toList[r]? with
    | some l => packFields [(31, 1, bit (vget s.srv.stale n true)), (28, 3, r), (24, 3, actModeCode l.mode), (23, 1, bit l.onTrack),
        (22, 1, bit l.wrPermit), (21, 1, bit l.maSat), (20, 1, bit s.srv.shock)]
    | none => packFields [(31, 1, 1), (28, 3, r)]

/-- DMPn_POS, or DMPn_CUR in the spindle role. -/
def peekDmpPos (s : State) (n : Nat) : Word :=
  let r := vget s.srv.serves n 7
  if r = 4 then packFields [(16, 16, signedField 16 (s.spn.iDreg * 1000)), (0, 16, signedField 16 (s.spn.iQreg * 1000))]
  else match s.srv.loop.toList[r]? with
    | some l => BitVec.ofNat 32 (l.shownX * 256).floor.toNat
    | none => 0

/-- DMPn_PES. -/
def peekDmpPes (s : State) (n : Nat) : Word :=
  match s.srv.loop.toList[vget s.srv.serves n 7]? with
  | some l => BitVec.ofNat 32 (signedField 16 (l.shownE * 256))
  | none => 0

/-- A ratio in units of 2⁻¹², in 16 bits (R188). -/
def ratioField (x : Qty) : Nat := min 0xFFFF (x * 4096).floor.toNat

/-- DMPn_SEEK: the mean ratio and the latest. -/
def peekDmpSeek (s : State) (n : Nat) : Word :=
  let l := vget s.srv.meanOver (vget s.srv.serves n 7) []
  packFields [(16, 16, if l.isEmpty then 0 else ratioField (l.foldl (· + ·) 0 / l.length)), (0, 16, ratioField (l.headD 0))]

/-- DMP. -/
def peekDMP (s : State) (o : Nat) : Word :=
  if o = 0xC00 then packFields [(31, 1, bit s.srv.rvStale), (0, 16, s.srv.rvRms.toNat)]
  else if 6 ≤ o / 512 then 0
  else
    let n := o / 512
    match o % 512 with
    | 0x00 => peekDmpStat s n
    | 0x04 => peekDmpPos s n
    | 0x08 => peekDmpPes s n
    | 0x10 => vget s.reg.ck.ontrk n 0
    | 0x14 => vget s.reg.ck.srvCfg n 0
    | 0x18 => peekDmpSeek s n
    | 0x1C => packFields [(16, 16, (vget s.srv.missed n 0).toNat), (8, 8, (vget s.srv.lostCnt n 0).toNat),
        (0, 8, (vget s.srv.shockCnt n 0).toNat)]
    | _ => 0

/-- SPN. -/
def peekSPN (s : State) (o : Nat) : Word :=
  let p := s.spn
  match o with
  | 0x000 => s.reg.ck.spnCfg0
  | 0x004 => s.reg.ck.spnCfg1
  | 0x010 => packFields [(31, 1, bit p.stale), (28, 3, spnCode s), (27, 1, bit (inWindow s)), (26, 1, bit p.signalled),
      (25, 1, bit p.fwActive), (24, 1, bit p.limitV), (0, 16, p.target)]
  | 0x014 => packFields [(16, 16, p.vcapReg.toNat), (0, 16, p.speedReg.toNat)]
  | 0x018 => packFields [(24, 5, dirtyLimit s), (0, 16, p.floor)]
  | 0x020 => packFields [(24, 8, p.cntRestart.toNat), (16, 8, p.cntStartFail.toNat), (0, 16, p.cntRecatch.toNat)]
  | 0x024 => packFields [(31, 1, bit p.cuValid), (0, 16, p.cuRatio.toNat)]
  | 0x040 => packFields [(24, 8, p.draftG), (16, 8, p.draftB), (8, 8, p.draftQ), (0, 8, p.draft)]
  | o => if 0x080 ≤ o ∧ o ≤ 0x0BC then vget s.reg.ck.curve ((o - 0x080) / 4) 0 else 0

/-- PWR. -/
def peekPWR (s : State) (o : Nat) : Word :=
  let p := s.pwr
  match o with
  | 0x000 => packFields [(31, 1, bit p.banking), (30, 1, bit p.buckMotor), (29, 1, bit p.warn), (28, 1, bit p.wrHeld),
      (27, 1, bit p.vmotOk), (25, 2, p.outcome.toNat), (20, 4, p.warnIsl.toNat), (0, 16, p.dips.toNat)]
  | 0x004 => s.reg.ck.pwrCfg
  | 0x008 => packFields [(31, 1, bit p.ratioValid), (16, 12, p.ratio.toNat), (0, 16, p.holdMin.toNat)]
  | _ => 0

/-- FLT. -/
def peekFLT (s : State) (o : Nat) : Word :=
  let f := s.flt
  match o with
  | 0x000 => packFields [(31, 1, bit f.class3), (28, 3, f.cause3.toNat), (26, 2, f.worst.toNat), (25, 1, bit (hbRuns s)),
      (24, 1, bit f.faultPair), (16, 8, min 0xFF (f.pairs.toList.filter (·.masked)).length), (0, 10, 0x180)]
  | 0x004 => packFields [(24, 8, f.cnt2.toNat), (16, 8, f.cnt1.toNat), (0, 16, f.cnt0.toNat)]
  | 0x010 => s.reg.inj
  | _ => 0

/-- ASH. -/
def peekASH (s : State) (o : Nat) : Word :=
  match o with
  | 0x000 => BitVec.ofNat 32 s.ash.nextSeq
  | 0x004 => BitVec.ofNat 32 (s.ash.nextSeq / 2 ^ 32)
  | 0x008 => packFields [(16, 16, s.ash.dropped), (8, 6, min 0x3F s.ash.queue.length), (0, 8, s.ash.suppressed)]
  | _ => 0

/-- CFG. -/
def peekCFG (s : State) (o : Nat) : Word :=
  let heads := fun (a : Nat) => packFields ((List.range 16).map fun i => (2 * i, 2, headCode (headState s (a + i))))
  match o with
  | 0x100 => s.reg.ck.cfgStripe
  | 0x104 => s.reg.ck.cfgSpare
  | 0x108 => heads 0
  | 0x10C => heads 16
  | 0x110 => packFields [(30, 2, s.str.lanesLeft), (28, 2, s.str.gratesLeft), (27, 1, bit s.str.seqLeft), (26, 1, bit s.str.dmpLeft),
      (23, 3, s.str.flueLeft), (16, 7, s.hob.spareLeft.toList.foldl min 80), (12, 4, min 15 (ones s.cch.wayOff)),
      (1, 1, bit (actTol s)), (0, 1, bit s.str.redundant)]
  | 0x114 => packFields [(31, 1, bit (s.str.copy.any fun j => j.activity = 4)), (30, 1, bit s.str.reflowShort),
      (0, 20, (reflowGroups s).length)]
  | 0x118 => s.reg.ck.cfgZns ||| packFields [(24, 5, activeZones s)]
  | 0x120 => if s.flt.fwRunning then ckCrc s.reg.ck else 0
  | 0x124 => s.reg.crcRef
  | 0x128 => packFields [(31, 1, bit s.reg.editEnd.isSome), (16, 8, min 0xFF s.reg.reloads),
      (0, 14, match s.reg.editEnd with | some t => (t - s.time + 999) / 1000 | none => 0)]
  | _ => 0

/-- HST. -/
def peekHST (s : State) (o : Nat) : Word :=
  let l := s.host.link
  match o with
  | 0x000 => packFields [(31, 1, bit l.up), (28, 3, l.rate), (25, 3, l.width), (23, 2, if l.up then (Config.linkState s.time).val else 0), (0, 16, l.retrains)]
  | 0x004 => packFields [(16, 13, s.host.peak), (0, 13, s.host.ctxs.length)]
  | 0x008 => BitVec.ofNat 32 s.host.accept
  | 0x00C => BitVec.ofNat 32 (s.host.accept / 2 ^ 32)
  | _ => 0

/-- CAL_STAT (Table 18.8). -/
def peekCAL (s : State) : Word :=
  packFields [(31, 1, bit s.cal.ok), (30, 1, bit s.cal.done), (16, 8, s.cal.failed.toNat), (8, 8, s.cal.running.toNat), (0, 8, s.cal.runs.toNat)]

/-- The common registers of a block (R537). -/
def peekCommon (s : State) (b o : Nat) : Word :=
  let c := vget s.reg.blk b {}
  match o with
  | 0xFF0 => packFields [(31, 1, bit c.done), (0, 1, bit c.en)]
  | 0xFF4 => packFields [(31, 1, bit c.keyMiss), (16, 12, c.chkOfs.toNat), (0, 8, c.chkReason.toNat)]
  | 0xFF8 => packFields [(0, 1, bit c.armed)]
  | _ => packFields [(24, 8, b), (16, 8, 1), (0, 12, blkMask b)]

/-- What the register at a block and a decoded offset holds now. -/
def regPeek (s : State) (b o : Nat) : Word :=
  if 0xFF0 ≤ o then (if b < 20 then peekCommon s b o else 0)
  else match b with
    | 0 => peekHRT s o | 1 => peekSTN s o | 2 => peekHOB s o | 3 => peekCCH s o | 4 => peekFLU s o | 5 => peekGRT s o
    | 6 | 7 | 8 | 9 => peekACT s (b - 6) o
    | 10 => peekACTS s | 11 => peekSEQ s o | 12 => peekDMP s o | 13 => peekSPN s o | 14 => peekPWR s o | 15 => peekCAL s
    | 16 => peekFLT s o | 17 => peekASH s o | 18 => peekCFG s o | 19 => peekHST s o
    | _ => 0

/-! ## Captures (R108, R141, R185, R236, R307, R545) -/

/-- The offsets that a read of an offset captures. -/
def captures (b o : Nat) : List Nat :=
  if 6 ≤ b ∧ b ≤ 9 ∧ o = 0x144 then [0x140]
  else if (b = 2 ∨ b = 3 ∨ (6 ≤ b ∧ b ≤ 9)) ∧ 0x200 ≤ o ∧ o ≤ 0x2FC ∧ o % 16 = 0 then [o + 4, o + 8, o + 12]
  else if b = 12 ∧ o < 0xC00 ∧ o % 512 = 0 then [o + 4, o + 8]
  else []

/-- The registers that a read captures take the words they hold now. -/
def capture (s : State) (b o : Nat) : State :=
  { s with reg.caps := (captures b o).foldl (fun c i => assocSet c (b * 4096 + i) (regPeek s b i)) s.reg.caps }

/-- A bank-conflict counter as a read finds it: it has counted its master's delayed accesses since the last read, a number that
depends on the port's timing and is free (R31, R308, log entry 74). -/
def confTake (s : State) (b i : Nat) : State :=
  if b = 2 ∧ 0x400 ≤ i ∧ i ≤ 0x4BC then
    let d := BitVec.ofNat 64 (Config.conflicts s.freeCtr)
    { s with freeCtr := s.freeCtr + 1, hob.conf := vmod s.hob.conf ((i - 0x400) / 8) fun c => c + d }
  else s

/-- A read at an offset of a block: the captured word where the register is captured, what it holds now elsewhere. -/
def regRead (s : State) (b o : Nat) : State × Word :=
  let i := regDecode b o
  let s := confTake s b i
  (capture s b i, lookupD s.reg.caps (b * 4096 + i) (regPeek s b i))

/-- A read whose word the reader of the window gets. -/
def regReadTo (s : State) (b o : Nat) : State :=
  let r := regRead s b o
  { r.1 with reg.rdata := r.2 }

end Sys2Proof.Machine
end

