-- ==== Sys2Proof/Machine/Ops.lean ====
section
/-! DEFINITION. The shared operations: time, the ash and health logs, fault classes, heads and
rings, micro-traps and unloading. -/
namespace Sys2Proof.Machine
open Sys2Proof

/-! ## Time -/

/-- The clock moved to an instant a rule states, never backwards (log entry 4). -/
def State.at (s : State) (t : Nat) : State := { s with time := max s.time t }

/-- The index of the next free value, and the state that has used it. -/
def State.fresh (s : State) : Nat × State := (s.freeCtr, { s with freeCtr := s.freeCtr + 1 })

/-- A block is enabled. One that is not stops its work (R540; log entry 108). -/
def blkEn (s : State) (b : Nat) : Bool := (vget s.reg.blk b {}).en

/-! ## Logs -/

/-- A health log entry. -/
def noteHealth (s : State) (e : HealthEvent) : State :=
  { s with ash.health := (s.hours, e) :: s.ash.health }

/-- A record's rank in the queue (R501): class 3, banking sequence, ordinary. -/
def ashRank (r : AshRec) : Nat :=
  if r.cls = 3 then 0 else if r.trigger = 2 ∨ r.trigger = 3 ∨ r.trigger = 6 then 1 else 2

/-- A record placed behind those of its rank and before those of a later one. -/
def ashInsert (r : AshRec) (q : List AshRec) : List AshRec :=
  q.takeWhile (fun x => ashRank x ≤ ashRank r) ++ r :: q.dropWhile (fun x => ashRank x ≤ ashRank r)

/-- The newest record of a rank removed; none when the queue holds no such record. -/
def ashEvict (k : Nat) (q : List AshRec) : Option (List AshRec) :=
  if q.any (fun x => ashRank x = k) then
    let rev := q.reverse
    some (rev.takeWhile (fun x => ashRank x ≠ k) ++ (rev.dropWhile (fun x => ashRank x ≠ k)).tail).reverse
  else none

/-- One record dropped from the queue and counted in DROPPED. -/
def ashDrop (s : State) : State :=
  { s with ash.dropped := satAdd 0xFFFF s.ash.dropped 1, ash.dropSince := satAdd 0xFFFF s.ash.dropSince 1 }

/-- A record put into the queue of 64 by the precedence of R501. -/
def ashEnqueue (s : State) (r : AshRec) : State :=
  if s.ash.queue.length < 64 then { s with ash.queue := ashInsert r s.ash.queue }
  else if ashRank r = 2 then ashDrop s
  else
    match ashEvict 2 s.ash.queue with
    | some q => ashDrop { s with ash.queue := ashInsert r q }
    | none =>
      if ashRank r = 0 then
        match ashEvict 1 s.ash.queue with
        | some q => ashDrop { s with ash.queue := ashInsert r q }
        | none => ashDrop s
      else ashDrop s

/-- The trigger codes of the records written in the second before now. -/
def ashRecent (s : State) : List (Nat × Nat) := s.ash.recent.filter (fun p => s.time < p.2 + 1000000)

/-- The 4 bytes of each entry of a snapshot list (R500). -/
def listBytes (l : List (Nat × Nat)) : List Byte :=
  l.flatMap (fun e => BitVec.ofNat 8 e.1 :: 0 :: leBytes 2 e.2)

/-- The records of a trigger written in the last second, and those that wait to be (R502). -/
def ashCount (s : State) (trigger : Nat) : Nat :=
  ((ashRecent s).filter fun p => p.1 = trigger).length + (s.ash.queue.filter fun r => r.trigger = trigger).length

/-- A triggered event: snapshotted by its ASH_LIST, suppressed by R502 or queued by R501. A class of 255 is FFh, an
event that is not a fault. -/
def ashRecord (s : State) (trigger cls : Nat) (source : Element) (detail : List Nat) : State :=
  if cls ≠ 3 ∧ 16 ≤ ashCount s trigger then
    { s with ash.suppressed := satAdd 0xFF s.ash.suppressed 1,
             ash.supBy := assocSet s.ash.supBy trigger (lookupD s.ash.supBy trigger 0 + 1) }
  else
    let list := (lookupD s.prof.ashList trigger []).take 48
    let (s, snaps) := list.foldl (fun (a : State × List Word) e => let r := regRead a.1 e.1 e.2; (r.1, a.2 ++ [r.2])) (s, [])
    let r : AshRec :=
      { seq := 0, trigger := trigger, cls := cls, snaps := snaps, hours := s.hours,
        cycles := s.pwr.cycles, uptimeMs := s.uptimeMs, source := source,
        suppressed := satAdd 0xFFFF (lookupD s.ash.supBy trigger 0) 0, dropped := 0, detail := detail,
        pversion := s.prof.pversion, listCrc := crc32c (listBytes list) }
    ashEnqueue { s with ash.supBy := assocSet s.ash.supBy trigger 0 } r

/-- A second pair reports an element in the same clock: its input enters the DETAIL of the element's newest record (R489). -/
def ashAlso (s : State) (e : Element) (input : Nat) : State :=
  let q := s.ash.queue.reverse
  let pre := q.takeWhile fun r => r.source ≠ e
  match q.drop pre.length with
  | [] => s
  | r :: rest => { s with ash.queue := (pre ++ { r with detail := r.detail ++ [input] } :: rest).reverse }

/-! ## Fault classes (R490) -/

/-- WORST raised to a class. -/
def worstUp (s : State) (c : Nat) : State :=
  if s.flt.worst.toNat < c then { s with flt.worst := BitVec.ofNat 2 c } else s

/-- A class 0 fault: counted. -/
def fault0 (s : State) : State := { s with flt.cnt0 := satInc s.flt.cnt0 }

/-- A class 1 fault: counted, health log entry, ash record. -/
def fault1 (s : State) (e : Element) (trigger : Nat) (detail : List Nat) (h : HealthEvent := .class1 e) : State :=
  ashRecord (noteHealth (worstUp { s with flt.cnt1 := satInc s.flt.cnt1 } 1) h) trigger 1 e detail

/-- A class 2 fault: counted, health log entry, ash record. -/
def fault2 (s : State) (e : Element) (trigger : Nat) (detail : List Nat) (h : HealthEvent := .class2 e) : State :=
  ashRecord (noteHealth (worstUp { s with flt.cnt2 := satInc s.flt.cnt2 } 2) h) trigger 2 e detail

/-- The kind and index that SOURCE codes for an element (Table 17.8). -/
def elementCode : Element → Nat × Nat
  | .none => (0, 0) | .lane n => (1, n) | .grate n => (2, n) | .sequencer n => (3, n) | .damper n => (4, n)
  | .flue n => (5, n) | .hobBank n => (6, n) | .way n => (7, n) | .head n => (8, n) | .actuator n => (9, n)
  | .island n => (10, n) | .lockstep n => (11, n) | .hearthstone => (12, 0) | .firebrick => (13, 0)
  | .lpddr => (14, 0) | .configStore => (15, 0)

/-- Condition k of R8 stops holding or holds again: a record with trigger 0005h (R569). -/
def condition8 (s : State) (k : Nat) : State := ashRecord s 5 255 .none [k]

/-! ## Heads, rings and the dirty count -/

/-- A ring changed. -/
def onRing (s : State) (surface ring : Nat) (f : Ring → Ring) : State :=
  { s with str.rings := s.str.rings.map fun r => if r.1 = (surface, ring) then (r.1, f r.2) else r }

/-- A ring group changed. -/
def onGroup (s : State) (id : Nat) (f : Group → Group) : State :=
  { s with str.groups := s.str.groups.map fun g => if g.id = id then f g else g }

/-- A slot is in the defect map. -/
def slotDefect (s : State) (p : Pos) : Bool := s.str.defects.any fun d => d.pos = p

/-- The slots of a ring in the defect map. -/
def ringDefects (s : State) (surface ring : Nat) : Nat :=
  (((s.str.defects.filter fun d => d.pos.surface = surface ∧ d.pos.ring = ring).map (·.pos.slot)).dedup).length

/-! ## Micro-traps, frame aborts and write inhibit -/

/-- A sequencer's state by number. -/
def sqr (s : State) (n : Nat) : Sqr := vget s.seq.sq n { serves := 6 }

/-- A change to one sequencer. -/
def onSq (s : State) (n : Nat) (f : Sqr → Sqr) : State := { s with seq.sq := vmod s.seq.sq n f }

/-- Words of a store replaced. -/
def patchStore (st : Store) (p : Patch) : Store :=
  { micro := p.micro.foldl (fun m w => assocSet m w.1 w.2) st.micro,
    nano := p.nano.foldl (fun m w => assocSet m w.1 w.2) st.nano }

/-- The order in which sequencers take a patch: SQ4 first if idle, then SQ0–SQ3. -/
def patchOrder (s : State) : List Nat :=
  (if (sqr s 4).serves ≠ 6 then [4] else []) ++ (List.range 4).filter fun n => (sqr s n).serves < 4

/-- A sequencer's turn has come to take the patch in progress, or to be restored after its abandonment (R329). -/
def patchTurn (s : State) (n : Nat) : Bool :=
  s.seq.patching.isSome && if s.seq.undoing then (sqr s n).partly else (patchOrder s).find? (fun i => !(sqr s i).partly) == some n

/-- In-service sequencers that run no routine hold for a switch from its request on (R326). -/
def seqHolds (s : State) : State :=
  { s with seq.sq := s.seq.sq.map fun q => if q.serves < 4 ∧ q.routine.isNone ∧ q.mode = .quiet then { q with hold := true } else q }

/-- A Banking trap finds a sequencer whose store is being written, from its hold on: the writing stops at once, with a part of
the words written that nothing states, and the patch is to be abandoned after the banking sequence (R331). -/
def patchStop (s : State) : State :=
  match s.seq.patching, (List.range 5).find? (fun n => patchTurn s n && (sqr s n).hold && (sqr s n).mode == .quiet) with
  | some p, some n =>
    if s.seq.undoing then s
    else
      let k := Config.patchWritten s.freeCtr
      let part : Patch := { p with micro := p.micro.take k, nano := p.nano.take (k - p.micro.length) }
      { onSq s n (fun q => { q with store := patchStore q.store part, partly := true }) with
        seq.patchCut := true, freeCtr := s.freeCtr + 1 }
  | _, _ => s

/-- The number of the sequencer that serves an actuator. -/
def sqOf (s : State) (a : Nat) : Option Nat := (List.range 5).find? fun i => (vget s.seq.sq i { serves := 6 }).serves = a

/-- The priority of a micro-trap cause (Table 11.5). -/
def trapPrio : TrapCause → Nat
  | .banking => 0 | .recall => 1 | .abandon => 2 | .lostServo => 3 | .shock => 4 | .preamp => 5 | .writeAbort => 6
  | .pause => 7

/-- A cause sent to a sequencer: held in TRAP_PEND until it is taken (R321). -/
def trapSq (s : State) (i : Nat) (c : TrapCause) : State :=
  { s with seq.sq := vmod s.seq.sq i fun q => { q with trapPend := q.trapPend ||| (1#8 <<< trapPrio c) } }

/-- A cause sent to the sequencer of an actuator when it is running a routine. -/
def trapAct (s : State) (a : Nat) (c : TrapCause) : State :=
  match sqOf s a with
  | some i => if (vget s.seq.sq i { serves := 6 }).routine.isSome then trapSq s i c else s
  | none => s

/-- A cause sent to every in-service sequencer. -/
def trapAll (s : State) (c : TrapCause) : State :=
  (List.range 5).foldl (fun s i => if (vget s.seq.sq i { serves := 6 }).serves < 4 then trapSq s i c else s) s

/-- What the media hold at a position replaced. -/
def mediaPut (s : State) (f : Frame) : State :=
  { s with media.frames := f :: s.media.frames.filter (fun g => g.pos ≠ f.pos) }

/-- The frame at a position. -/
def mediaAt (s : State) (p : Pos) : Option Frame := s.media.frames.find? (fun f => f.pos = p)

/-- Write gate falls. -/
def gateFall (s : State) (a : Nat) : State := { s with wrt.act := vmod s.wrt.act a fun w => { w with gate := false } }

/-- A frame in progress is abandoned (R148): write gate falls, the abort is counted, the slot left with no valid leaf, its leaf
kept at the head of the write buffer to be written again in the same slot, and the sequencer micro-trapped. What was driven up
to the abort is not kept. -/
def frameAbort (s : State) (a : Nat) : State :=
  match (vget s.wrt.act a {}).frame with
  | none => gateFall s a
  | some j =>
    let s := { s with
      wrt.act := vmod s.wrt.act a fun w =>
        { w with frame := none, gate := false, pulses := [], abort := satInc w.abort, buffer := j :: w.buffer } }
    trapAct (mediaPut s ⟨j.1.pos, default, [], false⟩) a .writeAbort

/-- Every frame in progress is abandoned. -/
def frameAbortAll (s : State) : State := (List.range 4).foldl frameAbort s

/-- An actuator's damper engine raises write inhibit (R172): a frame in progress is abandoned. -/
def writeInhibit (s : State) (a : Nat) : State :=
  frameAbort { s with srv.loop := vmod s.srv.loop a fun l => { l with inhibit := true, wrPermit := false } } a

/-! ## Unloading -/

/-- An actuator's heads are to unload (R181), for a reason; HEAD_UNLOAD runs it. -/
def unloadAct (s : State) (why : Nat) (a : Nat) : State :=
  { s with srv.loop := vmod s.srv.loop a fun l =>
      if l.mode = .unloaded ∨ l.mode = .unloading then l else { l with unloadWhy := why } }

/-- Every actuator told to unload. -/
def unloadAll (s : State) (why : Nat) : State := (List.range 4).foldl (fun s a => unloadAct s why a) s

/-- Every actuator reports unloaded. -/
def allUnloaded (s : State) : Bool := s.srv.loop.toList.all fun l => l.mode = .unloaded

/-- The bellows retract of R182 parks an actuator: no damper engine takes part. -/
def retractAct (s : State) (a : Nat) : State :=
  let s := frameAbort s a
  { s with srv.loop := vmod s.srv.loop a fun l =>
      { l with mode := .unloaded, onTrack := false, wrPermit := false, inhibit := true, seek := none, softLeft := 0,
               parkAt := none, vcm := 0, ma := 0 } }

/-- The bellows retract parks all four actuators. -/
def retractAll (s : State) : State :=
  { (List.range 4).foldl retractAct s with flt.retracted := true }

end Sys2Proof.Machine
end

