-- ==== Sys2Proof/Machine/Store.lean ====
section
/-! DEFINITION. The leaf store: forming ring groups and stripes, the index log, the write staging, the read cache and
what a leaf is read from (R52 to R67, R237 to R241, R256, R278 to R292). -/
namespace Sys2Proof.Machine
open Sys2Proof

/-! ## The index log (R61, R65 to R67) -/

/-- A ring group record. -/
def groupRecord (g : Group) (wseq : Nat) : List Byte :=
  let st := match g.state with | .opened => 1 | .full => 2 | .freed => 3
  let body := leBytes 4 g.id ++ leBytes 8 wseq ++ leBytes 1 g.k ++ leBytes 1 g.m ++ leBytes 1 st ++ zeroBytes 5 ++
    g.members.flatMap fun mr => leBytes 2 mr.1 ++ leBytes 2 mr.2
  let len := (4 + body.length + 7) / 8 * 8
  padTo len (leBytes 2 3 ++ leBytes 2 len ++ body)

/-- An extent as records hold it. -/
def extentBytes (e : Extent) : List Byte := leBytes 4 e.group ++ leBytes 4 e.first ++ leBytes 4 e.count ++ zeroBytes 4

/-- Extents in parts of at most 1,024; the fuel is their number. -/
def extentParts : Nat → List Extent → List (List Extent)
  | 0, _ => []
  | _, [] => []
  | n + 1, l => l.take 1024 :: extentParts n (l.drop 1024)

/-- An extent record (R67). -/
def extentRecord (wseq objectId version part : Nat) (es : List Extent) : List Byte :=
  leBytes 2 4 ++ leBytes 2 (32 + 16 * es.length) ++ zeroBytes 4 ++ leBytes 8 wseq ++ leBytes 8 objectId ++
    leBytes 4 version ++ leBytes 2 part ++ leBytes 2 es.length ++ es.flatMap extentBytes

/-- A version record with its extent records (R66, R67). -/
def versionRecords (key : List Byte) (objectId : Nat) (v : Version) (wseq : Nat) : List (List Byte) :=
  let es := v.extents.take 1024
  let more := extentParts v.extents.length (v.extents.drop 1024)
  let klen := (key.length + 7) / 8 * 8
  (leBytes 2 1 ++ leBytes 2 (128 + klen + 16 * es.length) ++ zeroBytes 4 ++ leBytes 8 wseq ++ leBytes 8 objectId ++
    leBytes 4 v.no ++ leBytes 1 key.length ++ leBytes 1 (match v.state with | .live => 1 | .deleted => 2) ++
    leBytes 1 v.lrange ++ leBytes 1 (bit v.hold) ++ leBytes 8 v.length ++ leBytes 8 v.hours ++ leBytes 8 v.retain ++
    v.digest ++ leBytes 4 es.length ++ leBytes 2 more.length ++ zeroBytes 2 ++ padTo klen key ++ es.flatMap extentBytes) ::
  more.zipIdx.map fun p => extentRecord wseq objectId v.no (p.2 + 1) p.1

/-- A state record (R66). -/
def stateRecord (wseq objectId version state flags retain : Nat) : List Byte :=
  leBytes 2 2 ++ leBytes 2 40 ++ zeroBytes 4 ++ leBytes 8 wseq ++ leBytes 8 objectId ++ leBytes 4 version ++
    leBytes 1 state ++ leBytes 1 flags ++ zeroBytes 2 ++ leBytes 8 retain

/-- A page with one record more. -/
def pageAdd (page rec' : List Byte) : List Byte :=
  page.take 4 ++ leBytes 2 (leNat (slice page 4 2) + 1) ++ page.drop 6 ++ rec'

/-- The first 32 bytes of an index page: record count, page type and checkpoint number (R65). -/
def pageHead (count ckpt : Nat) (checkpoint : Bool) : List Byte :=
  [0x4A, 0x58, 0x49, 0x50] ++ leBytes 2 count ++ leBytes 2 (bit checkpoint) ++ leBytes 8 ckpt ++ zeroBytes 16

/-- Records packed into index pages, in order: each page takes as many as fit in 32,768 bytes. -/
def pagesOf (ckpt : Nat) (checkpoint : Bool) (recs : List (List Byte)) : List (List Byte) :=
  (recs.foldl (fun (ps : List (List Byte)) r => match ps with
    | p :: rest => if p.length + r.length ≤ 32768 then pageAdd p r :: rest else pageAdd (pageHead 0 ckpt checkpoint) r :: ps
    | [] => [pageAdd (pageHead 0 ckpt checkpoint) r]) []).reverse

/-- The next write sequence. -/
def nextWseq (s : State) : Nat × State := (s.str.wseq, { s with str.wseq := s.str.wseq + 1 })

/-! ## Staged leaves -/

/-- A staged leaf by its name. -/
def stagedBy (s : State) (uid : Nat) : Option StagedLeaf := s.stg.leaves.find? fun l => l.uid = uid

/-- A staged leaf changed. -/
def onStaged (s : State) (uid : Nat) (f : StagedLeaf → StagedLeaf) : State :=
  { s with stg.leaves := s.stg.leaves.map fun l => if l.uid = uid then f l else l }

/-- The xor of two byte strings, the shorter continued by zeros. -/
def xorPad : List Byte → List Byte → List Byte
  | [], b => b
  | a, [] => a
  | x :: a, y :: b => (x ^^^ y) :: xorPad a b

/-- The parity slot of a leaf's set takes the change of the leaf's bytes (R291). -/
def slotXor (g : StgS) (uid : Nat) (d : List Byte) : StgS :=
  match g.slots.find? fun x => x.2 = uid with
  | none => g
  | some x => { g with parity := assocSet g.parity (x.1 / 8) (xorPad (lookupD g.parity (x.1 / 8) []) d) }

/-- Leaves that the staging can still take: it has 672 slots (Table 10.1). -/
def stagingRoom (s : State) : Nat := 672 - s.stg.leaves.length

/-- A leaf takes the lowest free slot, in both copies of the header array; its bytes are written. -/
def slotTake (g : StgS) (uid : Nat) (b : List Byte) : StgS :=
  match (List.range 672).find? fun n => ¬ g.slots.any fun x => x.1 = n with
  | none => g
  | some n => slotXor { g with slots := g.slots ++ [(n, uid)], slotsCopy := g.slotsCopy ++ [(n, uid)] } uid b

/-- A leaf's slot is written to zero and leaves its set; a set with no slot taken has a parity slot of zeros. -/
def slotFree (g : StgS) (uid : Nat) (b : List Byte) : StgS :=
  let g := slotXor g uid b
  let slots := g.slots.filter fun x => x.2 ≠ uid
  { g with slots := slots, slotsCopy := g.slotsCopy.filter fun x => x.2 ≠ uid,
           parity := g.parity.filter fun p => slots.any fun x => x.1 / 8 = p.1 }

/-- A leaf enters the staging. -/
def stagedPut (s : State) (l : StagedLeaf) : State :=
  { s with stg := slotTake { s.stg with leaves := s.stg.leaves ++ [l] } l.uid l.payload }

/-- The leaves that are to stay in the staging stay; the slots of the others are freed. -/
def stagedKeep (s : State) (keep : StagedLeaf → Bool) : State :=
  let gone := s.stg.leaves.filter fun l => !keep l
  { s with stg := gone.foldl (fun g l => slotFree g l.uid l.payload) { s.stg with leaves := s.stg.leaves.filter keep } }

/-- A staged leaf takes new bytes, acknowledged with a command, and is dirty data anew (R289). -/
def stagedGrow (s : State) (l : StagedLeaf) (b : List Byte) (accept : List Byte × Nat) (f : StagedLeaf → StagedLeaf) : State :=
  onStaged { s with stg := slotXor s.stg l.uid (xorPad l.payload b) } l.uid fun l =>
    f { l with payload := b, validLen := b.length, dirty := true, accepts := accept :: l.accepts }

/-- The staged leaf at a stripe and piece. -/
def stagedAt (s : State) (stripe piece : Nat) : Option StagedLeaf :=
  s.stg.leaves.find? fun l => l.place = some (stripe, piece)

/-- A staged leaf's coded region. -/
def stagedCoded (l : StagedLeaf) : List Byte :=
  codedRegion l.objectId l.version l.validLen l.offset l.lrange l.hours l.payload

/-! ## Stripes -/

/-- The frame job of one piece of a stripe; none where the member's ring is unknown. -/
def pieceJob (s : State) (g : Group) (slot piece wseq : Nat) (kind : LeafKind) (coded : List Byte)
    (uid : Option Nat) : Option FrameJob :=
  match piecePos g slot piece with
  | none => none
  | some p =>
    let str := match ringAt s p.surface p.ring with | some r => r.strength | none => 0
    some ⟨p, sealLeaf (mkLeaf kind str g.k g.m piece p .data (stripeNo g.id slot) wseq coded), uid, 0⟩

/-- A stripe's data pieces as coded regions: the staged leaves, fillers elsewhere. -/
def stripeData (s : State) (g : Group) (slot : Nat) : List (List Byte) :=
  (List.range g.k).map fun i => match stagedAt s (stripeNo g.id slot) i with
    | some l => stagedCoded l
    | none => zeroCoded

/-- All k data leaves of a stripe are formed, or it is closed: parity is computed (R56) and its pieces join the write queue. -/
def stripeWrite (s : State) (g : Group) (slot : Nat) : State :=
  let (w, s) := nextWseq s
  let data := stripeData s g slot
  let dataKind : LeafKind := if g.role = .index then .index else .data
  let jobs := (List.range (g.k + g.m)).filterMap fun i =>
    if i < g.k then
      match stagedAt s (stripeNo g.id slot) i with
      | some l => pieceJob s g slot i w dataKind (data.getD i []) (some l.uid)
      | none => pieceJob s g slot i w .filler zeroCoded none
    else pieceJob s g slot i w .parity (stripeParity g.m (i - g.k) data) none
  { s with wrt.queue := s.wrt.queue ++ jobs }

/-- A slot is in the defect map on any member: a dead stripe is written there (R240). -/
def deadSlot (s : State) (g : Group) (slot : Nat) : Bool := g.members.any fun mr => slotDefect s ⟨mr.1, mr.2, slot⟩

/-- The group's next ordinal brought past the dead stripes, each of which is queued; the fuel is the ring's slots. -/
def skipDead (gid : Nat) : Nat → State → State
  | 0, s => s
  | n + 1, s =>
    match groupById s gid with
    | none => s
    | some g =>
      if g.next % g.k = 0 ∧ g.next / g.k < ringSlots g.role ∧ deadSlot s g (g.next / g.k) then
        skipDead gid n (onGroup (stripeWrite s g (g.next / g.k)) gid fun g => { g with next := g.next + g.k })
      else s

/-! ## Placing leaves and the index log -/

/-- The open group that takes leaves of a role, for a zone or for objects and the index. -/
def openGroup (s : State) (role : RingRole) (zone : Option Nat) : Option Group :=
  s.str.groups.find? fun g => g.state = .opened ∧ g.role = role ∧ g.zone = zone

/-- A group formed by R239 with its record's write sequence; none when R239 forms none. -/
def formGroup (s : State) (role : RingRole) (zone : Option Nat) : State × Option Group :=
  let (k, m, kMin) := roleProfile s role
  match groupShape (ringCounts s role) k m kMin with
  | none => (s, none)
  | some (kn, cap) =>
    let ms := sortBy (· ≤ ·) (chooseMembers (ringCounts s role) cap (kn + m) [])
    let (w, s) := nextWseq s
    let g : Group := ⟨s.str.nextGroup, role, kn, m, .opened, w, ms.map fun f => (f, (freeRings s role f).headD 0), 0, zone⟩
    ({ s with
        str.groups := s.str.groups ++ [g], str.newGroups := s.str.newGroups ++ [g.id], str.nextGroup := s.str.nextGroup + 1,
        str.rings := s.str.rings.map fun r => if r.1 ∈ g.members then (r.1, { r.2 with wp := 0 }) else r }, some g)

/-- Sessions and zones name a leaf at its new place. -/
def notePlace (s : State) (uid : Nat) (place : Nat × Nat) : State :=
  let ref := fun (r : LeafRef) => if r.uid = uid then { r with place := some place } else r
  { s with
    obj.slots := s.obj.slots.map fun sl => { sl with sess := sl.sess.map fun x => { x with leaves := x.leaves.map ref } },
    zns.zones := s.zns.zones.map fun z => { z with leaves := z.leaves.map ref } }

/-- A group's state is to be recorded with a new write sequence: its record joins those that the index log takes next (R61). -/
def groupDue (s : State) (gid : Nat) : State :=
  let (w, s) := nextWseq s
  { onGroup s gid (fun g => { g with wseq := w }) with
    str.newGroups := if gid ∈ s.str.newGroups then s.str.newGroups else s.str.newGroups ++ [gid] }

/-- A group that has taken its last slot is full, and its record is due. -/
def groupFilled (s : State) (gid : Nat) : State :=
  match groupById s gid with
  | some g => if g.state = .opened ∧ g.k * ringSlots g.role ≤ g.next then
      groupDue (onGroup s gid fun g => { g with state := .full }) gid else s
  | none => s

/-- A leaf placed at the next ordinal of a group: the leaf takes its stripe and piece; a stripe whose k leaves are formed
is written; a group whose last slot is taken is full. -/
def placeIn (s : State) (gid uid : Nat) : State :=
  let s := skipDead gid 8192 s
  match groupById s gid with
  | none => s
  | some g =>
    let slot := g.next / g.k
    let s := onStaged s uid fun l => { l with place := some (stripeNo g.id slot, g.next % g.k), formed := true }
    let s := notePlace s uid (stripeNo g.id slot, g.next % g.k)
    let s := if g.next % g.k + 1 = g.k then stripeWrite s g slot else s
    groupFilled (onGroup s gid fun g => { g with next := g.next + 1 }) gid

/-- The group a leaf is placed in: the open one, or a new one. -/
def groupFor (s : State) (role : RingRole) (zone : Option Nat) : State × Option Group :=
  match openGroup s role zone with
  | some g =>
    let s := skipDead g.id 8192 s
    match groupById s g.id with
    | some g =>
      if g.next < g.k * ringSlots g.role then (s, some g)
      else formGroup (groupFilled s g.id) role zone
    | none => (s, none)
  | none => formGroup s role zone

/-- The zone a data leaf belongs to (R416). -/
def zoneOfId (objectId : Nat) : Option Nat := if 2 ^ 63 ≤ objectId then some (objectId - 2 ^ 63) else none

/-- The key of a zone version (R417). -/
def zoneKey (z : Nat) : List Byte := [0x5A, 0x4F, 0x4E, 0x45] ++ leBytes 4 z

/-- A zone by number. -/
def zoneBy (s : State) (z : Nat) : Zone := s.zns.zones.getD z default

/-- A zone changed. -/
def onZone (s : State) (z : Nat) (f : Zone → Zone) : State :=
  { s with zns.zones := s.zns.zones.zipIdx.map fun (x, i) => if i = z then f x else x }

/-- A leaf is formed (R390): it is placed in the open group of its role. -/
def formLeaf (s : State) (uid : Nat) : State :=
  match stagedBy s uid with
  | some l =>
    if l.place.isSome then s
    else match groupFor s (if l.kind = .index then .index else .data) (zoneOfId l.objectId) with
      | (s, some g) => placeIn s g.id uid
      | (s, none) => s
  | none => s

/-- A leaf enters the staging: the newest in acknowledgement order, dirty. -/
def stageNew (s : State) (kind : LeafKind) (objectId version offset lrange : Nat) (payload : List Byte) (key : List Byte)
    (accept : Nat) : State × Nat :=
  let uid := s.stg.nextUid
  (stagedPut { s with stg.nextUid := uid + 1, stg.nextOrder := s.stg.nextOrder + 1 }
    ⟨uid, kind, objectId, version, offset, payload.length, lrange, s.hours, payload, key, s.stg.nextOrder, [(key, accept)], true, false,
      none, [], none⟩, uid)

/-- One record written to the index log (R65): into the open log leaf, or into a new one when it does not fit. -/
def idxAdd (s : State) (key : List Byte) (accept : Nat) (rec' : List Byte) : State :=
  match s.stg.leaves.find? fun l => l.kind = .index ∧ l.place = none ∧ l.payload.length + rec'.length ≤ 32768 with
  | some l => stagedGrow s l (pageAdd l.payload rec') (key, accept) fun l => { l with key := [] }
  | none =>
    -- an open log leaf with no room is formed
    let s := match s.stg.leaves.find? fun l => l.kind = .index ∧ l.place = none with
      | some l => formLeaf s l.uid
      | none => s
    (stageNew s .index 0 0 0 0 (pageAdd (pageHead 0 s.str.nextCkpt false) rec') key accept).1

/-- Records written to the index log, the ring group records that are due before them. -/
def idxWrite (s : State) (key : List Byte) (accept : Nat) (recs : List (List Byte)) : State :=
  let new := s.str.newGroups.filterMap fun gid => (groupById s gid).map fun g => groupRecord g g.wseq
  recs.foldl (fun s r => idxAdd s key accept r) (new.foldl (fun s r => idxAdd s [] 0 r) { s with str.newGroups := [] })

/-- What follows a step is admitted (R13, R14, R289): no banking sequence holds writes, the leaves it leaves dirty, index log
leaves among them, are within the present limit, and the staging has a slot for each leaf it adds. -/
def admits (s t : State) : Bool :=
  !s.pwr.wrHeld && decide (dirtyCount t ≤ 32 * dirtyLimit s ∧ t.stg.leaves.length ≤ s.stg.leaves.length + stagingRoom s)

/-- Ring group records that are due written once the dirty limit admits them. -/
def idxPending (s : State) : State :=
  if s.str.newGroups = [] then s
  else
    let t := idxWrite s [] 0 []
    if admits s t then t else s

/-- A group closed at its last complete stripe, or full: STATE 02h. -/
def groupFull (s : State) (gid : Nat) : State :=
  idxPending (groupDue (onGroup s gid fun g => { g with state := .full }) gid)

/-- The open stripe of a group closed with filler leaves (R241). -/
def closeStripe (s : State) (gid : Nat) : State :=
  match groupById s gid with
  | some g =>
    if g.state ≠ .opened ∨ g.next % g.k = 0 then s
    else
      let s := stripeWrite s g (g.next / g.k)
      groupFilled (onGroup s gid fun g => { g with next := (g.next / g.k + 1) * g.k }) gid
  | none => s

/-- Leaves made to be written: each is formed, and the stripe that holds it closed (R14, R241, R363). -/
def forceLeaves (s : State) (uids : List Nat) : State :=
  uids.foldl (fun s u =>
    let s := formLeaf s u
    match stagedBy s u with
    | some l => match l.place with
      | some (stripe, _) => match groupById s (stripeGroup stripe) with
        | some g => if g.next / g.k = stripeSlot stripe then closeStripe s g.id else s
        | none => s
      | none => s
    | none => s) s

/-- Dirty leaves written home at once, oldest acknowledgement first (R14). -/
def writeHome (s : State) : State :=
  idxPending <| forceLeaves s ((sortBy (fun a b => a.order ≤ b.order) (dirtyLeaves s)).map (·.uid))

/-! ## Durability (R397) and the end of a stripe's clean copies (R241, R289) -/

/-- A stripe has a piece still to be written. -/
def stripePending (s : State) (stripe : Nat) : Bool :=
  s.wrt.queue.any (fun j => j.leaf.stripe = stripe ∧ j.leaf.kind ≠ .ember) ||
  s.wrt.act.toList.any fun w =>
    w.buffer.any (fun j => j.1.leaf.stripe = stripe) || (w.frame.any fun j => j.1.leaf.stripe = stripe) ||
    w.verify.any fun j => j.leaf.stripe = stripe

/-- A stripe is the one that its open group is filling. -/
def stripeOpen (s : State) (stripe : Nat) : Bool :=
  (groupById s (stripeGroup stripe)).any fun g => decide (g.state = .opened ∧ g.next / g.k = stripeSlot stripe)

/-- Every piece of a stripe is written. -/
def stripeWritten (s : State) (stripe : Nat) : Bool := !stripePending s stripe && !stripeOpen s stripe

/-- Staged leaves that are clean, whose stripe is written whole and which hold no ember copies leave the staging. -/
def releaseStaged (s : State) : State :=
  stagedKeep s fun l =>
    match l.place with
    | some (stripe, _) => l.dirty || !l.emberCopies.isEmpty || l.mramGroup.isSome || !stripeWritten s stripe ||
        s.str.relocPending.any (fun r => r.1 = stripe)
    | none => true

/-- The place of a staged leaf counts as written: its stripe is written whole, or the leaf has left the staging. -/
def leafHome (s : State) (uid : Nat) : Bool :=
  match stagedBy s uid with
  | some l => match l.place with | some p => stripeWritten s p.1 | none => false
  | none => true

/-- A leaf leaves the dirty count. -/
def leafDurable (s : State) (uid : Nat) : State := onStaged s uid fun l => { l with dirty := false }

/-! ## Live leaves (R246) -/

/-- The stripe and piece of an extent's leaves. -/
def extentPlaces (s : State) (e : Extent) : List (Nat × Nat) :=
  match groupById s e.group with
  | some g => (List.range e.count).map fun i => (stripeNo g.id ((e.first + i) / g.k), (e.first + i) % g.k)
  | none => []

/-- The places of a version's leaves, in offset order. -/
def versionPlaces (s : State) (v : Version) : List (Nat × Nat) := v.extents.flatMap (extentPlaces s)

/-- Extents of places in offset order: consecutive ordinals of one group are one extent. -/
def extentsOf (s : State) (ps : List (Nat × Nat)) : List Extent :=
  (ps.foldl (fun (acc : List Extent) p =>
    match groupById s (stripeGroup p.1) with
    | none => acc
    | some g =>
      let o := stripeSlot p.1 * g.k + p.2
      match acc with
      | e :: es => if e.group = g.id ∧ e.first + e.count = o then ⟨e.group, e.first, e.count + 1⟩ :: es else ⟨g.id, o, 1⟩ :: acc
      | [] => [⟨g.id, o, 1⟩]) []).reverse

/-- A version still in use though it may be deleted: a Get reads it, or an audit or an export has still to pass it (R404,
R444, R451). -/
def verInUse (s : State) (oid no : Nat) : Bool :=
  s.host.ctxs.any (fun c => c.2.phase = .reading oid no) ||
  s.cyz.audit.any (fun a => a.todo.any fun i => i.objectId = oid ∧ i.version = no) ||
  s.cyz.exp.any (fun x => x.todo.any fun i => i.objectId = oid ∧ i.version = no)

/-- Every placed leaf that a live version, an open session, a zone or a read in progress names. -/
def livePlaces (s : State) : List (Nat × Nat) :=
  (s.obj.objs.flatMap fun o => (o.versions.filter fun v => v.state = .live ∨ verInUse s o.id v.no).flatMap (versionPlaces s)) ++
  (s.host.ctxs.flatMap fun c => match c.2.phase with
    | .reading _ _ | .moving _ => c.2.parts.filterMap (·.place)
    | _ => []) ++
  (s.obj.slots.flatMap fun sl => match sl.sess with | some x => x.leaves.filterMap (·.place) | none => []) ++
  s.zns.zones.flatMap fun z => z.leaves.filterMap (·.place)

/-- The live leaves of a group. -/
def groupLive (s : State) (gid : Nat) : List (Nat × Nat) := (livePlaces s).filter fun p => stripeGroup p.1 = gid

/-! ## Free capacity for host writes (R256) -/

/-- Rings that a pending reflow needs (log entry 22). -/
def reflowRings (s : State) : Nat :=
  ((reflowGroups s).map fun g => if g.role = .data then g.members.length else 0).foldl (· + ·) 0

/-- Rings of the zoned reserve that no zone has taken (R413). -/
def zonedRings (s : State) : Nat :=
  let (k, m, _) := roleProfile s .data
  (s.zns.zones.filter fun z => z.state = .empty).length * (k + m)

/-- Rings withheld from host writes. -/
def withheldRings (s : State) : Nat :=
  (bitsOf s.reg.ck.cfgSpare 31 24 * dataRings s + 99) / 100 + reflowRings s + zonedRings s

/-- Data slots of the groups that R239 could form one after another while more rings than the withheld ones stay free;
the fuel is the number of rings. -/
def formable (k m kMin withheld : Nat) : Nat → List (Nat × Nat) → Nat
  | 0, _ => 0
  | n + 1, counts =>
    match groupShape counts k m kMin with
    | none => 0
    | some (kn, cap) =>
      let ms := chooseMembers counts cap (kn + m) []
      let total := (counts.map (·.2)).foldl (· + ·) 0
      if total < withheld + ms.length then 0
      else
        kn * 8192 + formable k m kMin withheld n
          ((counts.map fun c => if c.1 ∈ ms then (c.1, c.2 - 1) else c).filter fun c => c.2 ≠ 0)

/-- Free data slots for host writes, before what commands have reserved. -/
def freeCapacity (s : State) : Nat :=
  let (k, m, kMin) := roleProfile s .data
  let open' := ((s.str.groups.filter fun g => g.state = .opened ∧ g.role = .data ∧ g.zone = none).map
    fun g => g.k * 8192 - g.next).foldl (· + ·) 0
  open' + formable k m kMin (withheldRings s) (dataRings s) (ringCounts s .data)

/-- Media space reserved and not yet used: object leaves opened and not yet placed (R388). -/
def reservedSlots (s : State) : Nat :=
  (s.stg.leaves.filter fun l => l.kind = .data ∧ l.place = none ∧ zoneOfId l.objectId = none).length

/-! ## The read cache (R278 to R288) -/

/-- The set of a leaf. -/
def cacheSet (stripe piece : Nat) : Nat := (stripe * 37 + piece) % 48

/-- The line keyed by an address. -/
def findLine (s : State) (stripe piece : Nat) : Option Line :=
  s.cch.lines.find? fun l => l.stripe = stripe ∧ l.piece = piece

/-- A line changed. -/
def onLine (s : State) (set way : Nat) (f : Line → Line) : State :=
  { s with cch.lines := s.cch.lines.map fun l => if l.set = set ∧ l.way = way then f l else l }

/-- A line made the most recently used. -/
def touchLine (s : State) (set way : Nat) : State :=
  { s with cch.lines := s.cch.lines.filter (fun l => l.set = set ∧ l.way = way) ++
      s.cch.lines.filter fun l => ¬ (l.set = set ∧ l.way = way) }

/-- An address lies in a request's release window (R121). -/
def inRelease (s : State) (stripe piece : Nat) : Bool :=
  s.reqs.any fun r => r.leaves.any fun l =>
    l.stripe = some stripe ∧ l.piece = piece ∧ r.released ≤ l.idx ∧ l.idx < r.released + 64

/-- Locked lines of a set. -/
def lockedIn (s : State) (set : Nat) : Nat := (s.cch.lines.filter fun l => l.set = set ∧ l.locked).length

/-- LOCK_MAX. -/
def lockMax (s : State) : Nat := bitsOf s.reg.ck.cchCfg 27 24

/-- An evicted line's leaf enters the second-level cache, in place of the leaf that lies where it belongs (R302: direct-mapped). -/
def l2Put (s : State) (l : Line) : State :=
  match l.leaf with
  | some lf =>
    if s.drm.withdrawn ∨ s.prof.dramSize = 0 ∨ l.valid ≠ 0xFF then s
    else
      let at' := Config.l2Index s.prof.dramSize
      { s with drm.l2 := (l.stripe, l.piece, lf) :: s.drm.l2.filter fun e =>
          ¬ (e.1 = l.stripe ∧ e.2.1 = l.piece) ∧ at' e.1 e.2.1 ≠ at' l.stripe l.piece }
  | none => s

/-- The object store asks for the lock of an address's line: a leaf of a pinned version (R450), a page of the current checkpoint
(R284), or an address whose line was locked in a way now disabled (R288). -/
def lockAsked (s : State) (p : Nat × Nat) : Bool :=
  decide (p ∈ s.cch.lockNext ∨ p ∈ s.str.ckptAt) ||
    s.obj.objs.any fun o => o.versions.any fun v => v.pinned && decide (p ∈ versionPlaces s v)

/-- A way taken by a new address: FILLING, most recently used, and locked where the address asks for it and LOCK_MAX allows. -/
def lineFor (s : State) (set way stripe piece : Nat) : State :=
  let lock := lockAsked s (stripe, piece) && decide (lockedIn s set < lockMax s)
  { s with
    cch.lockNext := if lock then s.cch.lockNext.filter (· ≠ (stripe, piece)) else s.cch.lockNext,
    cch.lines := ⟨set, way, .filling, stripe, piece, 0, lock, 0, none, none, false, false⟩ ::
      s.cch.lines.filter fun l => ¬ (l.set = set ∧ l.way = way) }

/-- A line allocated to an address (R281): an INVALID way, else the least recently used unlocked VALID line that lies in
no release window, which waits in EVICTING while it is pinned. With no candidate the cache is left as it is: the leaf
goes through a bypass line. -/
def cacheAlloc (s : State) (stripe piece : Nat) : State :=
  match findLine s stripe piece with
  | some l =>
    if l.state = .valid ∧ l.locked ∧ l.valid = 0 then onLine s l.set l.way fun l => { l with state := .filling } else s
  | none =>
    let set := cacheSet stripe piece
    let used := s.cch.lines.filter fun l => l.set = set
    match (List.range 16).find? fun w => ¬ s.cch.wayOff.getLsbD w ∧ (set, w) ∉ s.cch.lineOff ∧ ¬ used.any fun l => l.way = w with
    | some w => lineFor s set w stripe piece
    | none =>
      match (used.filter fun l => l.state = .valid ∧ ¬ l.locked ∧ ¬ inRelease s l.stripe l.piece).getLast? with
      | some v =>
        if v.pins = 0 then lineFor (l2Put s v) set v.way stripe piece
        else onLine s set v.way fun l => { l with state := .evicting, retag := some (stripe, piece) }
      | none => s

/-- A leaf checked and whole fills its line (R282). A line that a range operation covered keeps its valid bits clear. -/
def cacheFill (s : State) (stripe piece : Nat) (lf : Leaf) : State :=
  match findLine s stripe piece with
  | some l =>
    if l.state ≠ .filling then s
    else if l.noValid then
      if l.locked then onLine s l.set l.way fun l => { l with state := .valid, valid := 0, leaf := none, noValid := false }
      else { s with cch.lines := s.cch.lines.filter fun x => ¬ (x.set = l.set ∧ x.way = l.way) }
    else onLine s l.set l.way fun l => { l with state := .valid, valid := 0xFF, leaf := some lf }
  | none => s

/-- A line whose leaf ends unreadable returns to INVALID (R282); a locked one is locked-empty. -/
def cacheFail (s : State) (stripe piece : Nat) : State :=
  match findLine s stripe piece with
  | some l =>
    if l.state ≠ .filling then s
    else if l.locked then onLine s l.set l.way fun l => { l with state := .valid, valid := 0, leaf := none }
    else { s with cch.lines := s.cch.lines.filter fun x => ¬ (x.set = l.set ∧ x.way = l.way) }
  | none => s

/-- A hit: an EVICTING line returns to VALID, and the allocation that chose it picks another victim (R287). -/
def cacheHit (s : State) (l : Line) : State :=
  match l.state, l.retag with
  | .evicting, some (st, pc) =>
    let s := touchLine (onLine s l.set l.way fun l => { l with state := .valid, retag := none }) l.set l.way
    cacheAlloc s st pc
  | _, _ => touchLine s l.set l.way

/-- A range operation (R285, R286): unlocked lines leave, locked lines become locked-empty, FILLING lines will keep their
valid bits clear. -/
def cacheRange (s : State) (p : Nat → Bool) : State :=
  { s with
    cch.lines := (s.cch.lines.filter fun l => ¬ p l.stripe ∨ l.locked ∨ l.state = .filling ∨ l.retag.isSome).map fun l =>
      if ¬ p l.stripe then l
      else if l.state = .filling then { l with noValid := true }
      else { l with valid := 0, leaf := none },
    drm.l2 := s.drm.l2.filter fun e => ¬ p e.1 }

/-- The addresses of a freed group are used no more: no lock of them stays. -/
def locksEnd (s : State) (gid : Nat) : State :=
  { s with
    cch.lockNext := s.cch.lockNext.filter fun p => stripeGroup p.1 ≠ gid,
    cch.lines := (s.cch.lines.map fun l => if stripeGroup l.stripe = gid then { l with locked := false } else l).filter fun l =>
      ¬ (stripeGroup l.stripe = gid ∧ l.state = .valid ∧ l.valid = 0) }

/-- Every line and the whole second-level cache invalidated (R285, R302). -/
def cacheFlush (s : State) : State :=
  let s := cacheRange s fun _ => true
  { s with drm.l2 := [], drm.gen := s.drm.gen + 1 }

/-- A lock requested for the line of an address: granted while the set holds fewer than LOCK_MAX locked lines (R284). An address
with no line is locked as its line is allocated. -/
def cacheLock (s : State) (stripe piece : Nat) : State :=
  match findLine s stripe piece with
  | some l => if l.locked ∨ lockMax s ≤ lockedIn s l.set then s else onLine s l.set l.way fun l => { l with locked := true }
  | none => s

/-- An address unlocked: its line returns to the ordinary rules; a locked-empty line holds nothing. -/
def cacheUnlock (s : State) (stripe piece : Nat) : State :=
  { s with
    cch.lockNext := s.cch.lockNext.filter (· ≠ (stripe, piece)),
    cch.lines := (s.cch.lines.map fun l => if l.stripe = stripe ∧ l.piece = piece then { l with locked := false } else l).filter
      fun l => ¬ (l.stripe = stripe ∧ l.piece = piece ∧ l.state = .valid ∧ l.valid = 0) }

/-! ## Where a leaf is read from (R280, R292) -/

/-- A leaf known by its coded region only: a staged leaf, or a rebuilt piece (R244). -/
def bareLeaf (stripe piece : Nat) (coded : List Byte) : Leaf :=
  { (default : Leaf) with stripe := stripe, piece := piece, coded := coded }

/-- A leaf that is whole in the staging, the read cache or the second-level cache. -/
def leafHeld (s : State) (stripe piece : Nat) : Option Leaf :=
  match stagedAt s stripe piece with
  | some l => some (bareLeaf stripe piece (stagedCoded l))
  | none =>
    match (findLine s stripe piece).bind fun l => if l.valid = 0xFF then l.leaf else none with
    | some lf => some lf
    | none => (s.drm.l2.find? fun e => e.1 = stripe ∧ e.2.1 = piece).map (·.2.2)

/-- A read of a leaf in the staging changes nothing; a hit makes its line the most recently used; a leaf of the
second-level cache is promoted into a line (R282). -/
def touchLeaf (s : State) (stripe piece : Nat) : State :=
  if (stagedAt s stripe piece).isSome then s
  else match findLine s stripe piece with
    | some l => cacheHit s l
    | none =>
      match s.drm.l2.find? fun e => e.1 = stripe ∧ e.2.1 = piece with
      | some e =>
        let s := cacheAlloc s stripe piece
        { s with cch.lines := s.cch.lines.map fun l =>
            if l.stripe = stripe ∧ l.piece = piece ∧ l.state = .filling then { l with leaf := some e.2.2, promoted := true } else l }
      | none => s

/-- Lines pinned, or released, by a command that reads them. -/
def pinLines (s : State) (up : Bool) (places : List (Nat × Nat)) : State :=
  { s with cch.lines := s.cch.lines.map fun l =>
      if (l.stripe, l.piece) ∈ places then { l with pins := if up then l.pins + 1 else l.pins - 1 } else l }

end Sys2Proof.Machine
end

