-- ==== Sys2Proof/Machine/Service.lean ====
section
/-! DEFINITION. The start of a banking sequence, heads and actuators leaving service, spare elements and the fail-stop
(R252 to R260, R493, R515, R516). -/
namespace Sys2Proof.Machine
open Sys2Proof

/-! ## The banking sequence's start (R515, Table 18.1, steps 1 to 5) -/

/-- The bytewise exclusive-or of two byte strings. -/
def xorBytes (a b : List Byte) : List Byte := List.zipWith (· ^^^ ·) a b

/-- Dirty leaves in the order of R516: index log leaves first, then oldest acknowledgement first. -/
def bankOrder (s : State) : List StagedLeaf :=
  let d := sortBy (fun a b => a.order ≤ b.order) (dirtyLeaves s)
  d.filter (fun l => l.kind = .index) ++ d.filter (fun l => l.kind ≠ .index)

/-- Leaves cut into groups of up to eight; the fuel is the number of leaves. -/
def chunks8 {α : Type} : Nat → List α → List (List α)
  | 0, _ => []
  | _, [] => []
  | k + 1, l => l.take 8 :: chunks8 k (l.drop 8)

/-- One group written to the MRAM with its parity leaf: its leaves leave the dirty count (R397). -/
def mramGroup (s : State) (g : List StagedLeaf) : State :=
  let id := s.ember.nextGroup
  let parity := g.foldl (fun p l => xorBytes p (padTo 32768 l.payload)) (List.replicate 32768 0)
  { s with
    ember.mram := s.ember.mram ++ [⟨id, g, parity⟩], ember.nextGroup := id + 1,
    stg.leaves := s.stg.leaves.map fun l =>
      if g.any (·.uid = l.uid) then { l with dirty := false, mramGroup := some id } else l }

/-- Every dirty leaf written to the ember MRAM in groups of up to eight (R516). -/
def bankToMram (s : State) : State :=
  (chunks8 (dirtyCount s) (bankOrder s)).foldl mramGroup s

/-! ## Ember copies (R69, R257, R516) -/

/-- The writable ember rings of an actuator, as (surface, ring, distance from the actuator's present position). -/
def emberRingsOf (s : State) (a : Nat) : List (Nat × Nat × Nat) :=
  (s.str.rings.filter fun r => r.2.role = .ember ∧ actOf r.1.1 = a ∧ headWrites s r.1.1).map fun r =>
    (r.1.1, r.1.2, (absQ ((r.2.firstTrack : Qty) - (vget s.srv.loop a {}).x)).floor.toNat)

/-- An ember slot holds a copy whose home leaf is not yet verified, or is about to. -/
def emberUsed (s : State) (p : Pos) : Bool :=
  (s.stg.leaves ++ s.ember.copies).any (fun l => p ∈ l.emberCopies) || s.wrt.queue.any (fun j => j.pos = p) ||
  s.wrt.act.toList.any fun w => w.buffer.any (fun j => j.1.pos = p) || w.frame.any fun j => j.1.pos = p

/-- The lowest free ember slot of a ring; slots 2,032 to 2,047 are the scratch slots (R131). -/
def emberSlot (s : State) (surface ring : Nat) : Option Pos :=
  ((List.range 2032).map fun n => (⟨surface, ring, n⟩ : Pos)).find? fun p => ¬ slotDefect s p ∧ ¬ emberUsed s p

/-- The free ember slot nearest an actuator. -/
def emberPlace (s : State) (a : Nat) : Option Pos :=
  (sortBy (fun x y => x.2.2 ≤ y.2.2) (emberRingsOf s a)).findSome? fun r => emberSlot s r.1 r.2.1

/-- Actuators that hold, or are to hold, an ember copy of a leaf. -/
def emberHolders (s : State) (uid : Nat) : List Nat :=
  ((match stagedBy s uid with | some l => l.emberCopies | none => []) ++
   ((s.wrt.queue ++ s.wrt.act.toList.flatMap fun w => (w.buffer ++ w.frame.toList).map (·.1)).filter fun j =>
      j.uid = some uid ∧ j.leaf.kind = .ember).map (·.pos)).map fun p => actOf p.surface

/-- Ember frames an actuator has still to write. -/
def emberLoad (s : State) (a : Nat) : Nat :=
  (s.wrt.queue.filter fun j => j.leaf.kind = .ember ∧ actOf j.pos.surface = a).length

/-- One ember copy queued where a leaf has fewer than two, on the actuator with the fewest ember frames to write among those with a free ember slot that
hold no other copy (log entry 24); the leaf goes to the MRAM where no such actuator remains. -/
def emberCopy (s : State) (uid : Nat) : State :=
  match stagedBy s uid with
  | none => s
  | some l =>
    if 2 ≤ (emberHolders s uid).length then s
    else match (argMin (emberLoad s) ((emberActs s).filter fun a => a ∉ emberHolders s uid ∧ (emberPlace s a).isSome)).bind (emberPlace s),
        l.place.bind fun p => (groupById s (stripeGroup p.1)).map fun _ => p with
    | some pos, some (stripe, piece) =>
      let (w, s) := nextWseq s
      let str := match ringAt s pos.surface pos.ring with | some r => r.strength | none => 0
      let leaf := sealLeaf (mkLeaf .ember str 0 0 piece pos l.kind stripe w (stagedCoded l))
      { s with wrt.queue := s.wrt.queue ++ [⟨pos, leaf, some uid, 0⟩] }
    | _, _ => mramGroup s [l]

/-- Leaves held in the write buffers, but for those that `keep` names, go back to the head of the queue, in their order. -/
def buffersBack (s : State) (keep : FrameJob → Bool) : State :=
  let back := s.wrt.act.toList.flatMap fun w => (w.buffer.map (·.1)).filter fun j => !keep j
  { s with
    wrt.act := s.wrt.act.map fun w => { w with buffer := w.buffer.filter fun j => keep j.1 },
    wrt.queue := back ++ s.wrt.queue }

/-- Every dirty leaf queued as two ember leaves on two actuators, in the order of R516, ahead of every leaf that waits. -/
def bankToRings (s : State) : State :=
  let s := (bankOrder s).foldl (fun s l => emberCopy (emberCopy (formLeaf s l.uid) l.uid) l.uid)
    (buffersBack s fun j => j.leaf.kind = .ember)
  let ember := fun (j : FrameJob) => decide (j.leaf.kind = .ember)
  { s with wrt.queue := s.wrt.queue.filter ember ++ s.wrt.queue.filter fun j => !ember j }

/-- The destination that R516 chooses. -/
def bankDest (s : State) : BankDest := if s.spn.speed ≥ 3600 ∧ twoEmber s then .rings else .mram

/-- The trigger that starts a sequence writes its record: 0002h, 0003h or 0006h (Table 17.7). -/
def bankRecord (s : State) (c : BankCause) : State :=
  match c with
  | .marginWarn => ashRecord s 2 255 (.island s.pwr.warnIsl.toNat) [s.pwr.warnIsl.toNat, dirtyMiB s]
  | .vmotLoss => ashRecord s 3 255 .none [dirtyMiB s, s.spn.speed.floor.toNat]
  | .failStop => ashRecord s 6 255 .none [1, dirtyMiB s]
  | .slowRotor => ashRecord s 6 255 .none [2, dirtyMiB s]

/-- A banking sequence starts, or a trigger joins the one that runs (R515). -/
def bankStart (s : State) (c : BankCause) : State :=
  if s.pwr.banking then
    if c = .failStop then { s with
      pwr.cause := some .failStop, pwr.trialAt := none, pwr.trialPassed := false, pwr.buckMotor := true, pwr.ending := false } else s
  else
    let dest := bankDest s
    let s := patchStop s
    let s := { s with
      pwr.banking := true, pwr.wrHeld := true, pwr.buckMotor := true, pwr.cause := some c, pwr.dest := dest,
      pwr.startAt := s.time, pwr.trialAt := none, pwr.trialNext := s.time + 10000, pwr.ending := false, pwr.trialPassed := false, pwr.notBack := false,
      pwr.passedOnce := false,
      pwr.vStart := s.spn.speed, pwr.dirtyAtStart := dirtyCount s, pwr.ringBytes := 0,
      pwr.calRedo := s.cal.running, cal.running := 0,
      pwr.switchRedo := s.seq.switchReq, seq.switchReq := false,
      seq.sq := s.seq.sq.map (fun q => { q with hold := false }),
      str.copy := none, str.ckpt := none }
    let s := bankRecord (trapAll s .banking) c
    match dest with
    | .rings => bankToRings s
    | .mram => bankToMram s

/-! ## Leaving service -/

/-- Frames queued, held or in progress for a surface. -/
def jobsOn (s : State) (surface : Nat) : List FrameJob :=
  (s.wrt.queue ++ s.wrt.act.toList.flatMap fun w => (w.buffer ++ w.frame.toList).map (·.1)).filter fun j => j.pos.surface = surface

/-- Frames for a surface dropped. -/
def dropJobs (s : State) (surface : Nat) : State :=
  let on := fun (j : FrameJob) => decide (j.pos.surface = surface)
  { s with
    wrt.queue := s.wrt.queue.filter fun j => !on j,
    wrt.act := s.wrt.act.map fun w => { w with
      buffer := w.buffer.filter fun j => !on j.1, frame := w.frame.filter fun j => !on j.1,
      verify := w.verify.filter fun v => !on v } }

/-- Leaves of a surface that await their verify. -/
def verifiesOn (s : State) (surface : Nat) : List FrameJob :=
  (s.wrt.act.toList.flatMap (·.verify)).filter fun j => j.pos.surface = surface

/-- A head moves to READ_ONLY or OUT as a class 1 fault (R252). Its open groups close at their last complete stripe (R254,
step 1); the
reported capacity falls with the event of R358; stripes left incomplete, there or by frames the head can no longer write, are to be relocated; an ember copy
goes to another actuator (R516). -/
def headChange (s : State) (surface : Nat) (st : HeadState) : State :=
  let old := headState s surface
  let code : HeadState → Nat := fun h => match h with | .inService => 0 | .readOnly => 1 | .out => 2 | .absent => 3
  if code st ≤ code old then s
  else
    let cap := freeCapacity s
    let open' := s.str.groups.filter fun g => g.state = .opened ∧ g.members.any fun m => m.1 = surface
    let undone := open'.filterMap fun g => if g.next % g.k = 0 then none else some (stripeNo g.id (g.next / g.k))
    let jobs := jobsOn s surface ++ verifiesOn s surface
    let cut := ((jobs.filter fun j => j.leaf.kind ≠ .ember ∧ j.leaf.kind ≠ .cornerstone ∧ j.leaf.kind ≠ .scratch).map
      (·.leaf.stripe))
    let stripes := (undone ++ cut).dedup
    let embers := (jobs.filter fun j => j.leaf.kind = .ember).filterMap (·.uid)
    let s := dropJobs { s with str.heads := vset s.str.heads surface st } surface
    let s := open'.foldl (fun s g => groupFull s g.id) s
    let s := { s with
      str.relocPending := s.str.relocPending ++ stripes.map fun x => (x, true),
      str.redundant := s.str.redundant && stripes.isEmpty &&
        !(st = .out && s.str.groups.any (fun g => g.state ≠ .freed && g.members.any (fun m => m.1 = surface))) }
    let s := embers.foldl emberCopy s
    let s := if freeCapacity s < cap then { s with host.events := s.host.events ++ [(2, 0, 4)] } else s
    fault1 s (.head surface) 0x21 [surface, code old, code st] (.headState surface st)

/-- An actuator's write path goes out of service (R112): every head of it becomes READ_ONLY. -/
def writePathOut (s : State) (a : Nat) : State :=
  if (vget s.wrt.act a {}).outOfService then s
  else
    let s := { s with wrt.act := vmod s.wrt.act a fun w => { w with outOfService := true } }
    (List.range 8).foldl (fun s h => headChange s (8 * a + h) .readOnly) s

/-- A defect map entry made (R87, R250); a data ring whose slots reach RING_DEF_MAX is to be retired (R260). -/
def defectAdd (s : State) (d : Defect) : State :=
  let s := { s with str.defects := s.str.defects ++ [d] }
  match ringAt s d.pos.surface d.pos.ring with
  | some r =>
    if r.role = .data ∧ bitsOf s.reg.ck.cfgSpare 15 8 ≤ ringDefects s d.pos.surface d.pos.ring ∧
        (d.pos.surface, d.pos.ring) ∉ s.str.retiring then
      { s with str.retiring := s.str.retiring ++ [(d.pos.surface, d.pos.ring)] }
    else s
  | none => s

/-- The stripe of a slot is to be relocated by copy-forward, its slot entered in the defect map (R250); the head whose
surface has HEAD_RELOC_MAX relocations within 720 operating hours goes OUT (R252). -/
def relocateSlot (s : State) (p : Pos) : State :=
  match groupOfRing s p.surface p.ring with
  | none => s
  | some g =>
    let now := s.hours
    let s := defectAdd s ⟨p, 0, 0⟩
    let s := { s with
      str.relocPending := s.str.relocPending ++ [(stripeNo g.id p.slot, false)], str.redundant := false,
      str.relocs := (p.surface, now) :: s.str.relocs.filter fun r => now < r.2 + 11520 }
    if bitsOf s.reg.ck.cfgSpare 7 0 ≤ (s.str.relocs.filter fun r => r.1 = p.surface).length then headChange s p.surface .out
    else s

/-- An actuator leaves service (R253): parked, all its heads OUT, a class 2 fault with the cause's number. -/
def actuatorOut (s : State) (a cause : Nat) : State :=
  if vget s.str.actOut a true then s
  else
    let s := { retractAct s a with str.actOut := vset s.str.actOut a true }
    let s := (List.range 8).foldl (fun s h =>
      if headState s (8 * a + h) = .absent then s else headChange s (8 * a + h) .out) s
    fault2 s (.actuator a) 0x22 [cause] (.actuatorLeft a cause)

/-- A spare brought into service is recorded in the spare-substitution map: a class 1 fault (R258). -/
def spareUsed (s : State) (old new : Element) : State :=
  fault1 { s with str.spareMap := s.str.spareMap ++ [(old, new)] } old 0x20
    [(elementCode old).1, (elementCode old).2, (elementCode new).1, (elementCode new).2] (.spareUsed old)

/-- An element withdrawn with its spare budget spent: a class 2 fault with trigger 0024h (R259). -/
def budgetSpent (s : State) (e : Element) : State :=
  fault2 s e 0x24 [(elementCode e).1, (elementCode e).2]

/-! ## The fail-stop (R493) -/

/-- A measurement register extended (R465). -/
def measExtend (s : State) (i : Nat) (d : List Byte) : State :=
  { s with sec.meas := s.sec.meas.zipIdx.map fun (m, j) => if j = i then shake256 (m ++ d) 64 else m }

/-- A signature with the identity key: 1,280 bytes over 64 (R461). -/
def falconSig (s : State) (d : List Byte) : List Byte := padTo 1280 ((Config.falconSign s.sec.identity d s.freeCtr).take 1280)

/-- The firebrick is wiped (R275): every row is zero, and the EMBER island keeps the reason (R478). After a tamper response
or a class 3 fault nothing is derived until the next power-up. -/
def wipeFirebrick (s : State) (c : WipeCause) : State :=
  { s with
    sec.swk := none, sec.drbg := none, sec.meas := List.replicate 5 (zeroBytes 64), sec.identity := [], sec.wipe := c,
    sec.refusing := s.sec.refusing || decide (c = .tamper ∨ c = .class3) }

/-- The engine that runs the spindle is held in reset, or none remains (R493, step 6). -/
def engineGone (s : State) : Bool :=
  match s.spn.driver with
  | .lockstepPair n => decide (Element.lockstep n ∈ s.flt.held)
  | .bellows => true
  | .d4 | .d5 => false

/-- Step 6 of R493: the engine decelerates the spindle under control, or the bellows holds the phases at high impedance
until SHORT_RPM. A spindle at rest, or already shorted, stays so. -/
def spindleHalt (s : State) : State :=
  if s.spn.state = .banked ∨ s.spn.bank = .shorted then s
  else
    let gone := engineGone s
    { s with
      spn.state := .decelerating, spn.bank := .decel, spn.target := 0, spn.wanted := none, spn.signalled := false,
      spn.reference := s.spn.speed, spn.fwActive := false, spn.thenStart := false, spn.restOnly := false,
      spn.driver := if gone then .bellows else s.spn.driver, spn.mode := if gone then .highZ else .closedLoop }

/-- Steps 5 and 6 begin at once: the retract parks every actuator and the spindle decelerates. -/
def failStopPark (s : State) : State := spindleHalt { retractAll s with flt.bankLimitDone := true }

/-- A class 3 fault after the first: its element is held in reset too and its record written; during step 4 it begins steps 5 and 6
at once, and later it leaves the spindle to the bellows where no engine is left to run it. CLASS3 keeps the first cause. -/
def failStopAgain (s : State) (cause : BitVec 3) (e : Element) : State :=
  if e ∈ s.flt.held then s
  else
    let s := ashRecord { s with flt.held := e :: s.flt.held } 0x60 3 e [cause.toNat]
    if s.pwr.banking ∧ ¬ s.flt.bankLimitDone then failStopPark s
    else if s.spn.driver ≠ .bellows ∧ engineGone s then spindleHalt s else s

/-- A class 3 fault is declared. -/
def failStop (s : State) (cause : BitVec 3) (e : Element) : State :=
  if s.flt.class3 then failStopAgain s cause e
  else
    let s := { s with
      flt.class3 := true, flt.cause3 := cause, flt.worst := 3, flt.faultPair := true, flt.hbLevel := false,
      flt.held := e :: s.flt.held, flt.declaredAt := some s.time, host.cfs := true, host.fetching := false }
    let s := ashRecord s 0x60 3 e [cause.toNat]
    wipeFirebrick (bankStart s .failStop) .class3

end Sys2Proof.Machine
end

