-- ==== Sys2Proof/Machine/Demand.lean ====
section
/-! DEFINITION. The terms of the draft that the host's waiting commands and the background activities give (R33, Table
2.7). -/
namespace Sys2Proof.Machine
open Sys2Proof

/-- A leaf of a request is settled: checked and ready, or unreadable. -/
def leafSettled (l : ReqLeaf) : Bool := l.phase = .ready || l.phase = .unreadable

/-- A request is over: every leaf is settled. -/
def reqSettled (r : Request) : Bool := r.leaves.all leafSettled

/-- A command context's request that waits on the media: a host read, or the audit of a Receipt (contexts are numbered below
4,096). -/
def hostWaits (r : Request) : Bool := (r.purpose = .host || (r.purpose = .audit && decide (r.id < 4096))) && !r.abandoned && !reqSettled r

/-- A Sync or Flush that waits for leaves still dirty. -/
def syncWaits (s : State) (x : Ctx) : Bool :=
  match x.phase with
  | .waitDurable uids => uids.any fun u => (stagedBy s u).any (·.dirty)
  | _ => false

/-- n of R33: command contexts waiting on the media. -/
def mediaWaiters (s : State) : Nat :=
  (s.reqs.filter hostWaits).length + (s.host.ctxs.filter fun c => syncWaits s c.2).length

/-- The scrub interval in units of 1/16 h. -/
def scrubInterval (s : State) : Nat := s.prof.scrubDays * 384

/-- Groups the present scrub pass has still to read. -/
def scrubLeft (s : State) : List Group := s.str.groups.filter fun g => g.state ≠ .freed ∧ g.id ∉ s.str.scrubDone

/-- A scrub pass is due (log entry 23). -/
def scrubDue (s : State) : Bool := decide (s.str.scrubFrom ≤ s.hours) && !(scrubLeft s).isEmpty
/-- A scrub pass is past its interval. -/
def scrubOverdue (s : State) : Bool := scrubDue s && decide (s.str.scrubFrom + scrubInterval s ≤ s.hours)

/-- A full data group whose live leaves have fallen below RECLAIM_LIVE (R250). -/
def reclaimGroup (s : State) : Option Group :=
  s.str.groups.find? fun g =>
    g.state = .full ∧ g.role = .data ∧ g.zone = none ∧ (groupLive s g.id).length * 100 < s.prof.reclaimLive * (g.k * 8192)

/-- Free data rings of heads IN_SERVICE. -/
def freeDataRings (s : State) : Nat := ((ringCounts s .data).map (·.2)).foldl (· + ·) 0

/-- Free rings at or below the profile floor. -/
def ringsLow (s : State) : Bool := decide (freeDataRings s ≤ s.prof.ringFloor)

/-- A relocation, or the copy-forward before a ring's retirement, is pending. -/
def relocDue (s : State) : Bool := !s.str.relocPending.isEmpty || !s.str.retiring.isEmpty

/-- A reflow is due. DESIGN CHOICE (log entry 23): one that stopped short of space is due no longer, until space comes back. -/
def reflowDue (s : State) : Bool := !(reflowGroups s).isEmpty && !s.str.reflowShort

/-- G of R33: the highest level of Table 2.7 among the background activities that are due. -/
def bgLevel (s : State) : Nat :=
  let scrub := if scrubOverdue s then 96 else if scrubDue s then s.prof.bgDraft else 0
  let reclaim := if (reclaimGroup s).isSome then (if ringsLow s then 96 else s.prof.bgDraft) else 0
  let reloc := if relocDue s then 96 else 0
  let reflow := if reflowDue s then 128 else 0
  max (max scrub reclaim) (max reloc reflow)

/-- The share of grate capacity and media time of a background activity while Q > 0, in percent (Table 2.7). -/
def actShare (s : State) (activity : Nat) : Nat :=
  match activity with
  | 1 => if scrubOverdue s then 50 else 25
  | 2 => if ringsLow s then 50 else 25
  | _ => 50

end Sys2Proof.Machine
end

