-- ==== Sys2Proof/Machine/LeafCode.lean ====
section
/-! DEFINITION. Decoding a codeword and checking a leaf (R115, R116, R120, R129). -/
namespace Sys2Proof.Machine
open Sys2Proof

/-! ## Layered normalised min-sum (R115) -/

/-- The codeword bits of check i of block row r, ascending. -/
def checkBits (blks : List Blk) (r i : Nat) : List Nat :=
  (sortBy (fun a b => a.2.1 ≤ b.2.1) (blks.filter fun b => b.1 = r)).map (fun b => 512 * b.2.1 + (i + b.2.2) % 512) ++
    (if r = 0 then [] else [512 * (514 + r - 1) + i]) ++ [512 * (514 + r) + i]

/-- Saturation at ±m. -/
def satAt (m x : Int) : Int := max (-m) (min m x)

/-- The message to bit j of a check from the values Q of its bits, in units of 1/4. -/
def checkMsg (alpha beta : Qty) (q : List Int) (j : Nat) : Int :=
  let others := q.eraseIdx j
  let least := (others.map Int.natAbs).foldl min 1000000
  let neg := (others.filter (· < 0)).length % 2 = 1
  let mag := max (alpha * least - 4 * beta) 0
  satAt 31 (if neg then -(Config.msgRound mag) else Config.msgRound mag)

/-- One check processed: the values of the bits and its messages, before and after. -/
def checkStep (alpha beta : Qty) (bits : List Nat) (msgs : List Int) (l : List Int) : List Int × List Int :=
  let q := List.zipWith (fun v m => l.getD v 0 - m) bits msgs
  let new := (List.range bits.length).map (checkMsg alpha beta q)
  ((List.zip bits (List.zipWith (· + ·) q new)).foldl (fun l p => l.set p.1 (satAt 255 p.2)) l, new)

/-- One iteration over every check in order; the messages are held check by check. -/
def layeredPass (alpha beta : Qty) : List (List Nat) → List (List Int) → List Int → List Int × List (List Int)
  | [], _, l => (l, [])
  | b :: bs, ms, l =>
    let (l1, m) := checkStep alpha beta b (ms.headD (b.map fun _ => 0)) l
    let (l2, rest) := layeredPass alpha beta bs ms.tail l1
    (l2, m :: rest)

/-- hard(L): 1 where L is negative. -/
def hardBits (l : List Int) : List Bool := l.map fun x => decide (x < 0)

/-- Every check is satisfied by a bit string. -/
def checksHold (checks : List (List Nat)) (x : List Bool) : Bool :=
  checks.all fun c => (c.filter fun v => x.getD v false).length % 2 = 0

/-- Iterations up to a limit: the values at the end, the iterations run, and whether every check is satisfied. -/
def minSum (alpha beta : Qty) (checks : List (List Nat)) : Nat → Nat → List (List Int) → List Int → List Int × Nat × Bool
  | 0, it, _, l => (l, it, false)
  | n + 1, it, ms, l =>
    let (l, ms) := layeredPass alpha beta checks ms l
    if checksHold checks (hardBits l) then (l, it + 1, true) else minSum alpha beta checks n (it + 1) ms l

/-- All checks of a strength, block row by block row. -/
def codeChecks (strength : Nat) : List (List Nat) :=
  let blks := codeBlocks strength
  (List.range (codeParams strength).1).flatMap fun r => (List.range 512).map (checkBits blks r)

/-- alpha and beta of a ladder step (Table 5.4). -/
def stepParams (step : Nat) : Qty × Qty := if step = 0 then (3 / 4, 0) else (5 / 8, 1 / 4)

/-- The syndrome of a codeword is zero (R112, R126). -/
def syndromeZero (strength : Nat) (x : List Bool) : Bool := checksHold (codeChecks strength) x

/-- What decoding a codeword at a step with a limit gives: status, iterations, corrected and erased bits, information bytes. -/
structure Decoded where
  status : Nat
  iter : Nat
  corrected : Nat
  erased : Nat
  info : List Byte
deriving DecidableEq, Repr, Inhabited

/-- Erased bits of a codeword. -/
def erasedBits (soft : List Soft) : Nat := (soft.filter (·.erase)).length

/-- A codeword decoded (R115 to R117). -/
def decodeSoft (strength step limit : Nat) (soft : List Soft) : Decoded :=
  let er := erasedBits soft
  if (codeParams strength).1 * 512 < er then ⟨2, 0, 0, er, []⟩
  else
    let (alpha, beta) := stepParams step
    let lam := soft.map fun x => if x.erase then 0 else x.llr
    let (l, it, ok) := minSum alpha beta (codeChecks strength) limit 0 [] lam
    let hard := hardBits l
    let corr := ((List.zip soft hard).filter fun p => !p.1.erase && (decide (p.1.llr < 0) != p.2)).length
    ⟨if ok then 0 else 1, it, corr, er, if ok then bytesOfBits 32896 (hard.take 263168) else []⟩

/-- The iteration limits (R134). -/
def iterRetry (s : State) : Nat := bitsOf s.reg.ck.grtCfg 29 24
def iterFirst (s : State) : Nat := bitsOf s.reg.ck.grtCfg 21 16
def iterScrub (s : State) : Nat := bitsOf s.reg.ck.grtCfg 13 8
/-- CE_ITER. -/
def ceIter (s : State) : Nat := bitsOf s.reg.ck.grtCfg 5 0
/-- The limit of a ladder step (Table 5.4). -/
def stepLimit (s : State) (step : Nat) (scrub : Bool) : Nat :=
  if step = 0 then (if scrub then iterScrub s else iterFirst s) else iterRetry s

/-- The step a first decode runs at (R116): step 1 when more than 1 % of the bits are erased, and it can decode at all. -/
def firstStep (strength : Nat) (soft : List Soft) : Nat :=
  let er := erasedBits soft
  if codeBits strength < er * 100 ∧ er ≤ (codeParams strength).1 * 512 then 1 else 0

/-! ## The checks of R120 -/

/-- A leaf, of format version 1 (R38), passes the checks of R120 for a position, the kinds expected there, and its stripe and piece where they are known. -/
def leafPasses (p : Pos) (kinds : List LeafKind) (home : Option (Nat × Nat)) (l : Leaf) : Bool :=
  leafFormat l && decide (l.surface = p.surface ∧ l.ring = p.ring ∧ l.slot = p.slot) && kinds.contains l.kind &&
  (match home with | some (st, pc) => decide (l.stripe = st ∧ l.piece = pc) | none => true) &&
  decide (l.pieceCheck = pieceCheckOf l) &&
  (match l.kind with
   | .parity => true
   | .filler => l.coded == zeroCoded
   | _ => leafCrcOk l.coded)

/-- The kinds expected at a piece of a group (R120). -/
def pieceKinds (g : Group) (piece : Nat) : List LeafKind :=
  if g.k ≤ piece then [.parity] else if g.role = .index then [.index, .filler] else [.data, .filler]

/-! ## The correctable-error log (R128, R129) -/

/-- An entry that holds an address. -/
def ceAt (e : CeEntry) (p : Pos) : Bool := e.valid && decide (e.surface = p.surface ∧ e.ring = p.ring ∧ e.slot = p.slot)

/-- The entry an event at an address goes into: the one that holds it, else the lowest invalid one, else the one with the
lowest HITS, the oldest HOURS, the lowest index. -/
def cePick (log : List CeEntry) (p : Pos) : Nat :=
  match (List.range log.length).find? fun i => ceAt (log.getD i default) p with
  | some i => i
  | none => match (List.range log.length).find? fun i => !(log.getD i default).valid with
    | some i => i
    | none => (argMin (fun i => (log.getD i default).hits * 4294967296 + (log.getD i default).hours)
        (List.range log.length)).getD 0

/-- The log table after an event. -/
def ceUpdate (log : List CeEntry) (p : Pos) (step iter corrected hours : Nat) : List CeEntry :=
  let i := cePick log p
  let old := log.getD i default
  log.set i (if ceAt old p then
      { old with hits := satAdd 0xFF old.hits 1, step := max old.step step, iter := iter, corrected := corrected, hours := hours }
    else ⟨true, p.surface, p.ring, p.slot, 1, step, iter, corrected, hours⟩)

/-- A correctable-error event (R128): counted and logged on the actuator whose head holds the leaf. -/
def ceEvent (s : State) (p : Pos) (step iter corrected : Nat) : State :=
  let a := actOf p.surface
  { s with
    grt.ceCnt := vmod s.grt.ceCnt a satInc,
    grt.ceLog := vmod s.grt.ceLog a fun log => ceUpdate log p step iter corrected s.hours }

/-- A logged leaf's entry invalidated (R130). -/
def ceClear (s : State) (p : Pos) : State :=
  { s with grt.ceLog := vmod s.grt.ceLog (actOf p.surface) fun log =>
      log.map fun e => if ceAt e p then { e with valid := false } else e }

end Sys2Proof.Machine
end

