-- ==== Sys2Proof/Machine/Leaves.lean ====
section
/-! DEFINITION. Read requests: the leaves of a command or an internal task, their retry ladder, reconstruction and
release in order (R18, R120 to R125, R242 to R245, R399). -/
namespace Sys2Proof.Machine
open Sys2Proof

/-! ## Requests and their leaves -/

/-- A request by number. -/
def reqBy (s : State) (id : ReqId) : Option Request := s.reqs.find? fun r => r.id = id

/-- A leaf of a request. -/
def leafBy (s : State) (id : ReqId) (idx : Nat) : Option ReqLeaf := (reqBy s id).bind fun r => r.leaves.find? fun l => l.idx = idx

/-- A leaf of a request changed. -/
def onLeaf (s : State) (id : ReqId) (idx : Nat) (f : ReqLeaf → ReqLeaf) : State :=
  { s with reqs := s.reqs.map fun r => if r.id = id then { r with leaves := r.leaves.map fun l => if l.idx = idx then f l else l } else r }

/-- The lowest internal task number in no use. -/
def taskId (s : State) : ReqId :=
  ((List.range 4096).find? fun i => ¬ s.reqs.any fun r => r.id = 4096 + i).elim 8191 (4096 + ·)

/-- Entries of an actuator's soft-value store (R29): leaves whose soft values it holds. -/
def storeUsed (s : State) (a : Nat) : Nat :=
  (s.reqs.map fun r => (r.leaves.filter fun l => actOf l.pos.surface = a ∧ l.soft.isSome).length).foldl (· + ·) 0

/-- Leaves released in ascending index (R121): the count of the settled leaves that begin the request. -/
def releaseLeaves (s : State) : State :=
  { s with reqs := s.reqs.map fun r => { r with released := (r.leaves.takeWhile leafSettled).length } }

/-- A read in progress for a leaf is discarded. -/
def dropRead (s : State) (id : ReqId) (idx : Nat) : State :=
  { s with chan.act := s.chan.act.map fun c =>
      if c.read.any (fun j => j.req = id ∧ j.leafIdx = idx) then { c with read := none } else c }

/-- A leaf settled, with its data or unreadable: its store entry is freed, its re-read cancelled, its cache line's payload
written or the line failed, and requests that share the line settled with it. -/
def settleLeaf (s : State) (id : ReqId) (idx : Nat) (res : Option Leaf) : State :=
  match leafBy s id idx with
  | none => s
  | some l =>
    let s := dropRead s id idx
    let done := fun (l : ReqLeaf) => { l with
      phase := if res.isSome then LeafPhase.ready else LeafPhase.unreadable, soft := none, reread := false, ahead := false, data := res }
    let s : State := match l.stripe, res with
      | some st, some lf =>
        { s with
          cch.lines := s.cch.lines.map fun x =>
            if x.stripe = st ∧ x.piece = l.piece ∧ x.state = .filling then { x with leaf := some lf } else x }
      | some st, none => cacheFail s st l.piece
      | none, _ => s
    releaseLeaves
      { s with
        reqs := s.reqs.map fun r =>
          { r with
            leaves := r.leaves.map fun x =>
              if (r.id = id ∧ x.idx = idx) ∨ (x.phase = .sharing ∧ x.stripe = l.stripe ∧ x.piece = l.piece) then done x else x } }

/-! ## Deferred durability errors (R399) -/

/-- The open or committed version that names a leaf. -/
def ownerOf (s : State) (place : Nat × Nat) : Option (List Byte × Nat × Nat) :=
  (s.obj.objs.findSome? fun o => (o.versions.find? fun v => v.state = .live ∧ place ∈ versionPlaces s v).map
    fun v => (o.key, v.no, o.id)) <|>
  s.obj.slots.findSome? fun sl => match sl.sess with
    | some x => if x.leaves.any fun r => r.place = some place then some (x.key, x.version, x.objectId) else none
    | none => none

/-- Entries of the damage list (R399): versions of keys and of zones. -/
def damageCount (s : State) : Nat := s.obj.damage.length + s.zns.damage.length

/-- A version is listed as damaged, an event raised, an open session broken. -/
def damageVersion (s : State) (key : List Byte) (no oid : Nat) : State :=
  if (key, no) ∈ s.obj.damage then s
  else
    let s := noteHealth s (.damaged oid no)
    let s := ashRecord s 0x50 255 .none [oid]
    { s with
      obj.damage := if damageCount s < 1024 then s.obj.damage ++ [(key, no)] else s.obj.damage,
      obj.damagedLeaves := s.obj.damagedLeaves ++ [(key, no, s.host.accept)],
      obj.objs := s.obj.objs.map fun o => if o.key = key then
        { o with versions := o.versions.map fun v => if v.no = no then { v with damaged := true } else v } else o,
      obj.slots := s.obj.slots.map fun sl => match sl.sess with
        | some x => if x.key = key ∧ x.version = no then { sl with sess := some { x with broken := true, damaged := true } } else sl
        | none => sl,
      host.events := s.host.events ++ [(7, 0, 0xC0)] }

/-- Leaves of a zone are damaged: its present version is listed, and an event raised. -/
def damageZone (s : State) (z : Nat) (ords : List Nat) : State :=
  let no := (zoneBy s z).resets + 1
  let s := onZone s z fun x => { x with damaged := x.damaged ++ ords.filter (· ∉ x.damaged) }
  if (z, no) ∈ s.zns.damage ∨ ords.isEmpty then s
  else
    let s := noteHealth s (.damaged (2 ^ 63 + z) no)
    let s := ashRecord s 0x50 255 .none [2 ^ 63 + z]
    { s with
      zns.damage := if damageCount s < 1024 then s.zns.damage ++ [(z, no)] else s.zns.damage,
      obj.damagedLeaves := s.obj.damagedLeaves ++ [([], no, s.host.accept)],
      host.events := s.host.events ++ [(7, 0, 0xC0)] }

/-- The leaves of a zone that meet a condition. -/
def zoneOrds (s : State) (z : Nat) (hit : LeafRef → Bool) : List Nat :=
  (zoneBy s z).leaves.zipIdx.filterMap fun (r, i) => if hit r then some i else none

/-- An acknowledged leaf has no intact copy: what names it is damaged. -/
def damageLeaf (s : State) (place : Nat × Nat) : State :=
  match ownerOf s place with
  | some (key, no, oid) => damageVersion s key no oid
  | none => (List.range s.zns.zones.length).foldl (fun s z => damageZone s z (zoneOrds s z fun r => r.place = some place)) s

/-! ## Reconstruction (R242 to R245) -/

/-- The head an actuator has selected now. -/
def headNow (s : State) (a : Nat) : Nat := (vget s.srv.loop a {}).surface

/-- The cost of a candidate piece given the pieces already picked (R243). -/
def pickCost (s : State) (g : Group) (slot : Nat) (picked : List Nat) (i : Nat) : Nat :=
  match piecePos g slot i with
  | some p =>
    (picked.filter fun j => (piecePos g slot j).any fun q => actOf q.surface = actOf p.surface).length +
      (if p.surface = headNow s (actOf p.surface) then 0 else 1)
  | none => 0

/-- Sources picked one at a time by least cost, ties to the lowest piece (R243). -/
def pickSources (s : State) (g : Group) (slot : Nat) (cands : List Nat) : Nat → List Nat → List Nat
  | 0, picked => picked
  | n + 1, picked =>
    match argMin (pickCost s g slot picked) (cands.filter (· ∉ picked)) with
    | some i => pickSources s g slot cands n (picked ++ [i])
    | none => picked

/-- The pieces of a stripe that may be read: not the lost one, on heads that are read. -/
def readable (s : State) (g : Group) (slot piece : Nat) : List Nat :=
  (List.range (g.k + g.m)).filter fun i => i ≠ piece ∧
    ((leafHeld s (stripeNo g.id slot) i).isSome ∨
      (piecePos g slot i).any fun p => headState s p.surface = .inService ∨ headState s p.surface = .readOnly)

/-- A request's leaf for a piece of a stripe. -/
def pieceLeaf (s : State) (g : Group) (slot idx piece : Nat) : ReqLeaf :=
  { idx := idx, pos := (piecePos g slot piece).getD default, stripe := some (stripeNo g.id slot), piece := piece,
    kinds := pieceKinds g piece, phase := .waiting, step := 0, lastIter := 0, lastCorrected := 0, soft := none, reread := false,
    ahead := false, grate := 0, data := leafHeld s (stripeNo g.id slot) piece }

/-- A leaf that cannot be obtained (R243). Where heads that are OUT do not by themselves explain it, its content is lost (R399). -/
def leafLost (s : State) (id : ReqId) (idx : Nat) : State :=
  match leafBy s id idx with
  | some l =>
    let s := settleLeaf s id idx none
    match l.stripe with
    | some st => match groupById s (stripeGroup st) with
      | some g =>
        if g.k ≤ ((List.range (g.k + g.m)).filter fun i =>
            (piecePos g (stripeSlot st) i).any fun p => headState s p.surface ≠ .out).length
        then damageLeaf s (st, l.piece) else s
      | none => s
    | none => s
  | none => s

/-- A further piece to be read for a reconstruction. -/
def sourceRead (s : State) (b : Rebuild) (g : Group) (i : Nat) : State :=
  { s with reqs := s.reqs.map fun r => if r.id = b.srcReq then
      { r with leaves := r.leaves ++ [{ pieceLeaf s g (stripeSlot b.stripe) i i with data := none }] } else r }

/-- A reconstruction given up: its leaf is unreadable. -/
def rebuildEnd (s : State) (b : Rebuild) : State :=
  { s with str.rebuilds := s.str.rebuilds.filter (fun x => x.srcReq ≠ b.srcReq), reqs := s.reqs.filter fun r => r.id ≠ b.srcReq }

/-- Reconstruction of a leaf is requested (R242, R243): pieces whole in the hob first, then the pieces of least cost; they
are read on all actuators in parallel. -/
def startRebuild (s : State) (id : ReqId) (idx : Nat) : State :=
  match reqBy s id, leafBy s id idx with
  | some r, some l =>
    if r.purpose = .source then settleLeaf s id idx none
    else match l.stripe.bind fun st => groupById s (stripeGroup st) with
      | none => settleLeaf s id idx none
      | some g =>
        let st := l.stripe.getD 0
        let slot := stripeSlot st
        let cands := readable s g slot l.piece
        let held := (cands.filter fun i => (leafHeld s st i).isSome).take g.k
        let src := pickSources s g slot cands (g.k - held.length) held
        let s := onLeaf s id idx fun l => { l with phase := .rebuilding, step := 4, soft := none, reread := false, ahead := false }
        if src.length < g.k then leafLost s id idx
        else
          let sid := taskId s
          let toRead := src.filter fun i => (leafHeld s st i).isNone
          let b : Rebuild := ⟨id, idx, sid, st, l.piece, src, [], 0, [],
            held.filterMap fun i => (leafHeld s st i).map fun lf => ⟨i, lf.coded, 0, 0, true⟩⟩
          { s with
            str.rebuilds := s.str.rebuilds ++ [b],
            reqs := s.reqs ++ [⟨sid, .source, r.activity, toRead.map fun i => pieceLeaf s g slot i i, 0, false⟩] }
  | _, _ => s

/-- A source piece that fails is replaced by the next piece in the order of R243; a further piece that fails drops out. -/
def sourceFailed (s : State) (srcReq : ReqId) (i : Nat) : State :=
  match s.str.rebuilds.find? fun b => b.srcReq = srcReq with
  | none => s
  | some b => match groupById s (stripeGroup b.stripe) with
    | none => s
    | some g =>
      let failed := i :: b.failed
      let put := fun (s : State) (b' : Rebuild) =>
        { s with str.rebuilds := s.str.rebuilds.map fun x => if x.srcReq = srcReq then b' else x }
      if i ∈ b.sources then
        let keep := b.sources.filter (· ≠ i)
        let cands := (readable s g (stripeSlot b.stripe) b.piece).filter (· ∉ failed)
        match argMin (pickCost s g (stripeSlot b.stripe) keep) (cands.filter (· ∉ keep)) with
        | some j => sourceRead (put s { b with sources := keep ++ [j], failed := failed }) b g j
        | none => leafLost (rebuildEnd s b) b.req b.leafIdx
      else
        let extras := b.extras.filter (· ≠ i)
        let s := put s { b with extras := extras, failed := failed }
        match extras[b.sets - 1]? with
        | some j => sourceRead s b g j
        | none => leafLost (rebuildEnd s b) b.req b.leafIdx

/-- A source piece has arrived at the stripe engine. -/
def sourceArrived (s : State) (srcReq : ReqId) (a : Arrived) : State :=
  { s with str.rebuilds := s.str.rebuilds.map fun b => if b.srcReq = srcReq then { b with arrived := b.arrived ++ [a] } else b }

/-- Suspicion order (R245): most corrected bits, higher step, higher piece; pieces from the hob last. -/
def suspicion (b : Rebuild) : List Nat :=
  let of := fun (i : Nat) => b.arrived.find? fun a => a.piece = i
  let score := fun (i : Nat) => match of i with
    | some a => if a.held then 0 else 1 + a.corrected * 256 + a.step * 32 + a.piece
    | none => 0
  sortBy (fun i j => score j ≤ score i) b.sources

/-- The source set tried now: the first set, or set t with its t-th suspect replaced. -/
def sourceSet (b : Rebuild) : List Nat :=
  if b.sets = 0 then b.sources
  else match (suspicion b)[b.sets - 1]?, b.extras[b.sets - 1]? with
    | some out, some new => b.sources.map fun i => if i = out then new else i
    | _, _ => b.sources

/-- The unused readable pieces that replace suspects: parity pieces first, the rest in the order of R243. -/
def extraPieces (s : State) (g : Group) (b : Rebuild) : List Nat :=
  let slot := stripeSlot b.stripe
  let un := (readable s g slot b.piece).filter fun i => i ∉ b.sources ∧ i ∉ b.failed
  un.filter (g.k ≤ ·) ++ (pickSources s g slot (un.filter (· < g.k)) un.length b.sources).filter (· ∉ b.sources)

/-- A rebuilt piece is right (R245): a data or index piece by its LEAF_CRC, a filler by being all zero. -/
def rebuiltOk (g : Group) (piece : Nat) (coded : List Byte) : Bool :=
  decide (g.k ≤ piece) || leafCrcOk coded || coded == zeroCoded

/-- STRIPE_ENGINE_SOLVE: once the sources of the present set have arrived, the missing piece is solved for and checked;
a piece that fails is solved again with the next source set, at most m of them. -/
def stripeEngineSolve (s : State) (srcReq : Fin 8192) : State :=
  match s.str.rebuilds.find? fun b => b.srcReq = srcReq.val with
  | none => s
  | some b => match groupById s (stripeGroup b.stripe) with
    | none => s
    | some g =>
      let now := sourceSet b
      let src := now.filterMap fun i => (b.arrived.find? fun a => a.piece = i).map fun a => (i, a.coded)
      if src.length < g.k then s
      else
        let missing := (List.range (g.k + g.m)).filter fun i =>
          (piecePos g (stripeSlot b.stripe) i).any fun p => headState s p.surface = .out
        let s := { s with str.matrices := ((missing, now) :: s.str.matrices.filter (· ≠ (missing, now))).take 64 }
        match (solvePiece g.k g.m b.piece src).filter (rebuiltOk g b.piece) with
        | some coded => settleLeaf (rebuildEnd s b) b.req b.leafIdx (some (bareLeaf b.stripe b.piece coded))
        | none =>
          let extras := if b.sets = 0 then extraPieces s g b else b.extras
          match (if b.sets < g.m then extras[b.sets]? else none) with
          | none => leafLost (rebuildEnd s b) b.req b.leafIdx
          | some j =>
            let b' := { b with extras := extras, sets := b.sets + 1 }
            let s := { s with str.rebuilds := s.str.rebuilds.map fun x => if x.srcReq = b.srcReq then b' else x }
            match leafHeld s b.stripe j with
            | some lf => sourceArrived s b.srcReq ⟨j, lf.coded, 0, 0, true⟩
            | none => sourceRead s b g j

/-! ## The retry ladder (R124, R125) -/

/-- A leaf settled, with what a source piece means to its reconstruction. -/
def leafDone (s : State) (id : ReqId) (idx : Nat) (res : Option Leaf) (corrected step : Nat) : State :=
  match reqBy s id, leafBy s id idx with
  | some r, some l =>
    let s := settleLeaf s id idx res
    if r.purpose = .source then
      match res with
      | some lf => sourceArrived s id ⟨l.piece, lf.coded, corrected, step, false⟩
      | none => sourceFailed s id l.piece
    else s
  | _, _ => s

/-- A striped leaf is rebuilt from its stripe as the ladder's step 4, an unstriped one reported unreadable, and a source piece
of a reconstruction replaced by another. A rebuild by the ladder counts in ENTER4 and as a correctable-error event with STEP 4
(R120, R128); so does, in ENTER4, an unstriped leaf that has failed step 3. -/
def ladderStep4 (s : State) (id : ReqId) (idx : Nat) (event : Bool) : State :=
  match reqBy s id, leafBy s id idx with
  | some r, some l =>
    if r.purpose = .source then leafDone s id idx none 0 0
    else
      let s := if event ∧ (l.stripe.isSome ∨ l.step = 3) then { s with grt.enter4 := satInc s.grt.enter4 } else s
      if l.stripe.isNone then settleLeaf s id idx none
      else startRebuild (if event then ceEvent s l.pos 4 l.lastIter l.lastCorrected else s) id idx
  | _, _ => s

/-- A codeword of a leaf put into the shared queue at a ladder step. -/
def queueCodeword (s : State) (id : ReqId) (idx step : Nat) (soft : List Soft) : State :=
  match reqBy s id, leafBy s id idx with
  | some r, some l =>
    let str := match ringAt s l.pos.surface l.pos.ring with | some x => x.strength | none => 0
    let s := onLeaf s id idx fun l => { l with phase := .ladder, step := step, soft := some soft }
    { s with grt.queue := s.grt.queue ++
        [⟨id, idx, actOf l.pos.surface, l.pos, str, step, r.purpose = .scrub, r.activity, soft, l.unsure, false⟩] }
  | _, _ => s

/-- The step 2 is entered: its codeword is queued if its read has been taken already, else the read is waited for. -/
def enterStep2 (s : State) (id : ReqId) (idx : Nat) : State :=
  let s := { s with grt.enter2 := satInc s.grt.enter2 }
  match leafBy s id idx with
  | some l =>
    match l.ahead, l.soft with
    | true, some soft => queueCodeword (onLeaf s id idx fun l => { l with ahead := false }) id idx 2 soft
    | _, _ => onLeaf s id idx fun l =>
        { l with step := 2, reread := true, phase := if l.phase = .blind then .blind else .ladder }
  | none => s

/-- A failed step moves a leaf up the ladder of Table 5.4; a leaf undecodable by its erased count at step 0 or 1 goes
straight to step 2. -/
def ladderFail (s : State) (id : ReqId) (idx step : Nat) (byErased : Bool) : State :=
  match step, leafBy s id idx with
  | 0, some l =>
    let s := onLeaf s id idx fun l => { l with reread := true }
    if byErased then enterStep2 s id idx
    else
      let s := { s with grt.enter1 := satInc s.grt.enter1 }
      queueCodeword s id idx 1 (l.soft.getD [])
  | 1, some l =>
    let s := onLeaf s id idx fun l => { l with reread := l.reread || !l.ahead }
    if l.phase = .rebuilding then s else enterStep2 s id idx
  | 2, some _ =>
    let s := { s with grt.enter3 := satInc s.grt.enter3 }
    onLeaf s id idx fun l => { l with step := 3, reread := true, phase := .ladder }
  | _, some _ => ladderStep4 s id idx true
  | _, none => s

/-! ## Abandoning (R122) and fetching -/

/-- A codeword of an abandoned request in a grate: one that is being decoded, or whose result waits, is marked so that its
result is discarded (R122). -/
def codewordDrop (gone : ReqId → Bool) (c : Codeword) : Codeword := if gone c.req then { c with dead := true } else c
/-- A result record marked with its codeword. -/
def resultDrop (gone : ReqId → Bool) (r : GrateResult) : GrateResult := { r with cw := codewordDrop gone r.cw }

/-- A leaf that shared a cache line now freed is to be read itself: the first of those that wait for the place. -/
def shareBroken (s : State) (place : Nat × Nat) : State :=
  let sharer := fun (l : ReqLeaf) => decide (l.phase = .sharing ∧ l.stripe = some place.1 ∧ l.piece = place.2)
  match s.reqs.find? fun r => r.leaves.any sharer with
  | some r => match r.leaves.find? sharer with
    | some l => cacheAlloc (onLeaf s r.id l.idx fun l => { l with phase := .waiting }) place.1 place.2
    | none => s
  | none => s

/-- A request abandoned: its queued codewords leave, its store entries and cache lines are freed, and the reconstructions
it waits for end. A decode already running completes and its result is discarded. -/
def abandonReq (s : State) (id : ReqId) : State :=
  let srcs := (s.str.rebuilds.filter fun b => b.req = id).map (·.srcReq)
  let gone := fun (i : ReqId) => decide (i = id ∨ i ∈ srcs)
  let places := (s.reqs.filter fun r => gone r.id).flatMap fun r =>
    (r.leaves.filter fun l => ¬ leafSettled l ∧ l.phase ≠ .sharing).filterMap fun l => l.stripe.map fun st => (st, l.piece)
  let s := places.foldl (fun s p => cacheFail s p.1 p.2) s
  let s := { s with
    reqs := s.reqs.filter fun r => ¬ gone r.id,
    str.rebuilds := s.str.rebuilds.filter fun b => b.req ≠ id,
    grt.queue := s.grt.queue.filter fun c => ¬ gone c.req,
    grt.grate := s.grt.grate.map fun g => { g with
      working := g.working.map (codewordDrop gone), inputBuf := g.inputBuf.filter fun c => ¬ gone c.req,
      slot := g.slot.map (resultDrop gone), heldBack := g.heldBack.map (resultDrop gone) },
    chan.act := s.chan.act.map fun c => if c.read.any fun j => gone j.req then { c with read := none } else c }
  places.foldl shareBroken s

/-- Leaves within their request's window that lie on a head no longer read are rebuilt; leaf i + 64 waits for leaf i (R121). -/
def rebuildDue (s : State) : State :=
  let due := s.reqs.flatMap fun r => (r.leaves.filter fun l =>
    decide (l.phase = .waiting ∧ l.idx < r.released + 64 ∧ (headState s l.pos.surface = .out ∨ headState s l.pos.surface = .absent))).map
      fun l => (r.id, l.idx)
  due.foldl (fun s x => startRebuild s x.1 x.2) s

/-- The phase in which a leaf of a new request begins: shared with a fetch that fills its line, rebuilt where its head is
not read, else waiting for its pass. -/
def firstPhase (s : State) (l : ReqLeaf) : LeafPhase :=
  if l.data.isSome then .ready
  else if (s.reqs.any fun r => r.purpose ≠ .source ∧ r.leaves.any fun x => x.stripe = l.stripe ∧ x.piece = l.piece ∧ ¬ leafSettled x)
  then .sharing else .waiting

/-- Leaves wanted by a command or a task, each by stripe and piece. When all are at hand they are answered at once; else a
request is made, and answered here once it is over. `fresh` reads what is written from the media (R285). -/
def fetchLeaves (s : State) (id : ReqId) (purpose : ReadPurpose) (activity : Nat) (fresh : Bool) (want : List (Nat × Nat)) :
    State × Option (List (Option Leaf)) :=
  match reqBy s id with
  | some r =>
    if reqSettled r then ({ s with reqs := s.reqs.filter fun x => x.id ≠ id }, some (r.leaves.map (·.data)))
    else (rebuildDue s, none)
  | none =>
    let at' := fun (p : Nat × Nat) =>
      if fresh then (stagedAt s p.1 p.2).map fun l => bareLeaf p.1 p.2 (stagedCoded l) else leafHeld s p.1 p.2
    let held := want.map at'
    if held.all (·.isSome) then (want.foldl (fun s p => touchLeaf s p.1 p.2) s, some held)
    else
      let leaves := want.zipIdx.filterMap fun (p, i) =>
        (groupById s (stripeGroup p.1)).map fun g => { pieceLeaf s g (stripeSlot p.1) i p.2 with data := at' p }
      if leaves.length < want.length then (s, some (want.map fun _ => none))
      else
        let leaves := leaves.map fun l => { l with phase := firstPhase s l }
        let s := leaves.foldl (fun s l => match l.phase, l.stripe with
          | .waiting, some st => cacheAlloc s st l.piece
          | _, _ => s) s
        (rebuildDue (releaseLeaves { s with reqs := s.reqs ++ [⟨id, purpose, activity, leaves, 0, false⟩] }), none)

/-- A request for leaves that lie at known positions outside any stripe (ember and cornerstone reads, R62, R69), each with the
stripe and piece that its reader knows it by (R120). -/
def fetchUnstriped (s : State) (id : ReqId) (purpose : ReadPurpose) (kind : LeafKind) (want : List (Pos × Option (Nat × Nat))) : State :=
  let leaves := want.zipIdx.map fun (p, i) =>
    ({ idx := i, pos := p.1, stripe := none, piece := 0, kinds := [kind], phase := .waiting, step := 0, lastIter := 0,
       lastCorrected := 0, soft := none, reread := false, ahead := false, grate := 0, data := none, home := p.2 } : ReqLeaf)
  { s with reqs := s.reqs ++ [⟨id, purpose, 0, leaves, 0, false⟩] }

end Sys2Proof.Machine
end

