-- ==== Sys2Proof/Machine/Spindle.lean ====
section
/-! DEFINITION. The draft and the spindle (chapters 2 and 8). -/
namespace Sys2Proof.Machine
open Sys2Proof

/-- The engine that performs a role; none when no engine does. -/
def engineOf (s : State) (role : Nat) : Option Nat := (List.range 6).find? fun n => vget s.srv.serves n 6 = role

/-! ## Figures of the profile -/

/-- Pole pairs. -/
def polePairs (s : State) : Qty := (s.prof.poles : Qty) / 2

/-- k_T of R191, N·m per ampere. -/
def kT (s : State) : Qty := 3 / 2 * polePairs s * s.prof.ke

/-- ω_m at a speed in rpm, rad/s. -/
def omegaM (v : Qty) : Qty := 2 * piQ * v / 60

/-- ω_e at a speed in rpm, electrical rad/s. -/
def omegaE (s : State) (v : Qty) : Qty := omegaM v * polePairs s

/-- The drag current DRAG_A + DRAG_B × v (R196). -/
def dragI (p : Prof) (v : Qty) : Qty := p.dragA + p.dragB * v

/-- E(v) of R204 in mJ. -/
def kinetic (p : Prof) (v : Qty) : Qty := 500 * p.spnJ * (omegaM v * omegaM v)

/-- The hold-up floor F of R207: the least whole speed from 3,600 rpm whose square reaches 3,600² × (1 + HOLD_E ÷ E(3,600)). -/
def holdFloor (p : Prof) : Nat :=
  let e := kinetic p 3600
  if e = 0 then 3600
  else
    let x := 3600 * 3600 * (1 + (p.holdE : Qty) / e)
    let n := isqrt x.floor.toNat
    if ((n : Qty) * n < x) then n + 1 else n

/-- The square of the steady phase voltage at a speed (R209). -/
def phaseVoltSq (p : Prof) (v : Qty) : Qty :=
  let w := omegaM v * ((p.poles : Qty) / 2)
  let i := dragI p v
  let a := p.ke * w + p.rPh * i
  let b := p.lPh * w * i
  a * a + b * b

/-- The square of the steady phase voltage at a speed with a field-weakening current: the model of R209 with I_d ≠ 0. -/
def fwVoltSq (p : Prof) (v d : Qty) : Qty :=
  let w := omegaM v * ((p.poles : Qty) / 2)
  let i := dragI p v
  let a := p.ke * w + p.rPh * i + p.lPh * w * d
  let b := p.rPh * d - p.lPh * w * i
  a * a + b * b

/-- The square of 0.95 × VMOT ÷ √3. -/
def availVoltSq (vm : Qty) : Qty := (19 / 20 * vm) * (19 / 20 * vm) / 3

/-- v_cap of R209: the highest whole speed, below 131,072 rpm, whose steady phase voltage fits. -/
def vcapOf (p : Prof) (vm : Qty) : Nat :=
  greatestBelow (fun v => phaseVoltSq p v ≤ availVoltSq vm) 17 0

/-- The draft-to-speed curve's value: linear between points, rounded down (R201). -/
def curveAt (pts : List (Nat × Nat)) (d : Nat) : Nat :=
  match pts with
  | (d0, v0) :: (d1, v1) :: rest =>
    if d < d1 then v0 + (v1 - v0) * (d - d0) / (d1 - d0) else curveAt ((d1, v1) :: rest) d
  | [(_, v)] => v
  | [] => 3600

/-- The 16 points of SPN_CURVE as (draft, rpm). -/
def curvePoints (s : State) : List (Nat × Nat) :=
  s.reg.ck.curve.toList.map fun w => (bitsOf w 23 16, bitsOf w 15 0)

/-- T_ON of SPN_CFG0. -/
def tOn (s : State) : Nat := bitsOf s.reg.ck.spnCfg0 31 24
/-- T_BANK of SPN_CFG0. -/
def tBank (s : State) : Nat := bitsOf s.reg.ck.spnCfg0 23 16
/-- BANK_S of SPN_CFG0. -/
def bankS (s : State) : Nat := bitsOf s.reg.ck.spnCfg0 15 0
/-- SLEW of SPN_CFG1, rpm/s. -/
def slew (s : State) : Nat := bitsOf s.reg.ck.spnCfg1 31 16
/-- FW_MAX of SPN_CFG1, A. -/
def fwMax (s : State) : Qty := (bitsOf s.reg.ck.spnCfg1 15 8 : Qty) / 100

/-- The target of R203 before the cap: the highest of the curve value, the floor and 3,600 rpm. -/
def targetWanted (s : State) : Nat := max (curveAt (curvePoints s) s.spn.draft) (max s.spn.floor 3600)

/-- The target of R203, capped at v_cap (R209). -/
def targetCapped (s : State) : Nat := min (targetWanted s) s.spn.vcap

/-! ## Speed window -/

/-- The spindle's turning states other than decelerating to rest. -/
def spnTurning (st : SpnState) : Bool :=
  match st with
  | .running | .changing | .recatch | .restart | .degraded | .starting => true
  | .banked | .decelerating => false

/-- An actuator has a valid servo sample: its loop runs on samples, and the last was not missed (R194, R195). -/
def servoValid (l : Loop) : Bool :=
  l.missRun = 0 && !l.lost && (l.mode = .track || l.mode = .settle || l.mode = .seek || l.mode = .reacquire)

/-- The lowest-numbered actuator with a valid sample (R195). -/
def wedgeSource (s : State) : Option Nat := (List.range 4).find? fun a => servoValid (vget s.srv.loop a {})

/-- Heads are loaded, or loading or unloading, on some actuator. -/
def anyLoaded (s : State) : Bool := s.srv.loop.toList.any fun l => l.mode ≠ .unloaded

/-- Speed outside ±0.10 % of a target that has not changed abandons every frame in progress (R148); a pending target has not
changed yet (R147). -/
def speedAborts (s : State) : State :=
  if s.spn.target ≠ 0 ∧ ¬ speedWithin s (1 / 1000) ∧ ¬ s.pwr.banking then frameAbortAll s else s

/-- Running is at the target within ±0.05 % (Table 8.1): a spindle that leaves the band is settling on its target again. -/
def offTarget (s : State) : State :=
  if s.spn.state = .running ∧ ¬ speedWithin s (5 / 10000) then { s with spn.state := .changing, spn.settled := 0 } else s

/-! ## Target changes (R198, R200) -/

/-- The pending change is signalled to the ACT islands once the dirty data is within the limit (R198, step 2). -/
def signalChange (s : State) : State :=
  match s.spn.wanted with
  | some _ =>
    if s.spn.signalled ∨ ¬ dirtyWithin s then s
    else { s with spn.signalled := true,
                  wrt.act := s.wrt.act.map fun w => { w with changePend := true, acked := false } }
  | none => s

/-- A new target is asked for: a lower one first lowers the dirty limit and waits (R198, step 1), while dirty leaves are
written home at once (R14). -/
def askTarget (s : State) (t : Nat) : State :=
  if t = s.spn.target ∧ s.spn.wanted = none then s
  else
    let st := if s.spn.state = .running then SpnState.changing else s.spn.state
    let s := { s with spn.wanted := some t, spn.signalled := false, spn.state := st, spn.settled := 0 }
    signalChange (if dirtyWithin s then s else writeHome s)

/-- A target change that awaited acknowledgements is dropped. -/
def dropChange (s : State) : State :=
  { s with spn.wanted := none, spn.signalled := false,
           wrt.act := s.wrt.act.map fun w => { w with changePend := false, acked := false } }

/-! ## Starting (R212 to R216, R582) and banking (R217) -/

/-- The spindle may start: not in a fail-stop, VMOT present again where it was lost, v_cap not below F (R211, Table 18.2). -/
def mayStart (s : State) : Bool := !s.flt.class3 && !s.pwr.vmotLostNow && !s.spn.capBlock && !s.pwr.banking

/-- The start procedure begins: all phases at high impedance for the 20 ms measurement (R212). -/
def startMeasure (s : State) : State :=
  { s with spn.mode := .measuring, spn.measureAt := s.time, spn.observing := false, spn.overRun := 0,
           spn.cleanRun := 0, spn.overNow := false, spn.cmdD := 0, spn.cmdQ := 0 }

/-- The spindle starts (R212). -/
def spnStart (s : State) : State :=
  if ¬ mayStart s then s
  else
    let s := dropChange s
    startMeasure { s with spn.state := .starting, spn.bank := .none, spn.fails := 0, spn.thenStart := false,
                          spn.restOnly := false, spn.bankTimer := none, spn.target := targetCapped s,
                          spn.settled := 0 }

/-- The low-side phases are shorted (R217, step 4). -/
def spnShort (s : State) : State :=
  { s with spn.mode := .braking, spn.bank := .shorted, spn.backward := false, spn.observing := false, spn.clamping := false, spn.cmdD := 0, spn.cmdQ := 0 }

/-- Controlled deceleration begins (R217, step 3). -/
def spnDecel (s : State) : State :=
  let s := dropChange s
  { s with spn.state := .decelerating, spn.bank := .decel, spn.mode := .closedLoop, spn.target := 0,
           spn.reference := s.spn.speed, spn.fwActive := false, spn.cmdD := 0 }

/-- The spindle coasts with its phases at high impedance (Table 18.2). -/
def spnCoast (s : State) : State :=
  { dropChange s with
      spn.state := .decelerating, spn.bank := .decel, spn.mode := .highZ, spn.target := 0, spn.observing := false,
      spn.fwActive := false, spn.cmdD := 0, spn.cmdQ := 0 }

/-- The next step of R217 taken once its condition holds: dirty data at or below 4 MiB, every actuator unloaded,
300 rpm reached. After a class 3 fault step 6 of R493 follows the unload; with VMOT lost the spindle coasts (Table 18.2),
and a coasting spindle is shorted below SHORT_RPM. -/
def bankProgress (s : State) : State :=
  match s.spn.bank with
  | .none | .shorted => s
  | .waitDirty => if dirtyCount s ≤ 128 then unloadAll { s with spn.bank := .unloading } 1 else s
  | .unloading =>
    if ¬ allUnloaded s then s
    else if s.flt.class3 then spindleHalt s
    else if ¬ s.pwr.vmotOk then spnCoast s
    else spnDecel s
  | .decel =>
    if s.spn.mode = .highZ then (if s.spn.speed < s.prof.shortRpm then spnShort s else s)
    else if s.spn.speed ≤ 300 then spnShort s else s

/-- The spindle banks (R217): the limit falls to 4 MiB first. -/
def spnBank (s : State) : State :=
  if s.spn.bank ≠ .none ∨ s.spn.state = .banked then s
  else
    let s := { s with spn.bank := .waitDirty, spn.bankTimer := none }
    bankProgress (if dirtyCount s ≤ 128 then s else writeHome s)

/-- The rotor is at rest with nothing to start: Banked. -/
def spnBanked (s : State) : State :=
  { dropChange s with
      spn.state := .banked, spn.mode := .off, spn.bank := .none, spn.target := 0, spn.thenStart := false, spn.restOnly := false, spn.observing := false, spn.speed := 0, spn.reference := 0, spn.fwActive := false }

/-- Initial position detection (R214) from the current rises of the 12 pulses: the pulse of the fastest rise, when it
exceeds the second fastest by 5 % of itself or more. -/
def fastestPulse (rises : List Qty) : Option Nat :=
  let best := rises.foldl max 0
  let i := rises.idxOf best
  let rest := (rises.eraseIdx i).foldl max 0
  if rises = [] ∨ (best - rest) * 100 < 5 * best then none else some i

/-- An observer at an electrical angle, in turns, turning at an electrical speed. -/
def observerAt (turn omega : Qty) : Observer := ⟨(turnQ turn).1, (turnQ turn).2, omega, 0, 0⟩

/-- The open-loop start begins from an electrical angle (R215). -/
def openLoopFrom (s : State) (turn : Qty) : State :=
  { s with spn.obs := observerAt turn 0, spn.forced := 0, spn.forcedTurn := turn, spn.cmdQ := s.prof.startI, spn.alignAt := none }

/-- A rotor at rest: position detection, then the open-loop start, or the alignment when the angle is not resolved. -/
def startAtRest (s : State) (rises : List Qty) : State :=
  let s := { s with spn.bank := .none, spn.thenStart := false, spn.speed := 0, spn.mode := .openLoop, spn.overRun := 0,
                    spn.cleanRun := 0, spn.overNow := false }
  match fastestPulse rises with
  | some i => openLoopFrom s (Config.pulseTurn i)
  | none => { s with spn.alignAt := some s.time, spn.obs := observerAt Config.alignTurn 0, spn.cmdQ := s.prof.alignI }

/-- The element that runs the spindle. -/
def spnEngine (s : State) : Element :=
  match s.spn.driver with
  | .d4 => .damper 4 | .d5 => .damper 5 | .lockstepPair n => .lockstep n | .bellows => .none

/-- A start has failed (R215): braked to rest and tried again; the third is a class 2 fault and the spindle stays Banked. -/
def startFail (s : State) : State :=
  let n := s.spn.fails + 1
  let s := { s with spn.fails := n, spn.cntStartFail := satInc s.spn.cntStartFail, spn.mode := .braking,
                    spn.bank := .shorted, spn.cmdQ := 0, spn.observing := false, spn.thenStart := n < 3,
                    spn.restOnly := 3 ≤ n }
  if n < 3 then s else fault2 s (spnEngine s) 0x40 [2, 0, s.spn.speed.floor.toNat] .startFailed

/-- The open-loop start fails when the observer has not taken over by 600 rpm. -/
def startFailCheck (s : State) : State :=
  if s.spn.mode = .openLoop ∧ ¬ s.spn.observing ∧ s.spn.alignAt = none ∧ s.spn.speed ≥ 600 then startFail s else s

/-! ## Losing and re-catching the rotor (R221 to R224) -/

/-- The states in which a rotor loss is declared (R221). -/
def lossStates (s : State) : Bool :=
  s.spn.observing &&
    (match s.spn.state with
     | .running | .changing | .recatch | .degraded | .restart => true
     | .decelerating => decide (s.spn.speed ≥ 300)
     | .starting | .banked => false)

/-- The controlled restart of R223: the torque ramps to zero over one electrical period (step 1), the observer and the current
loop are reset (step 2); the start procedure follows at that period's end. -/
def spnRestart (s : State) : State :=
  let s := { s with spn.state := .restart, spn.cntRestart := satInc s.spn.cntRestart, spn.recFails := 0,
                    spn.recEnd := none, spn.fails := 0, spn.mode := .frozen, spn.toMeasure := true, spn.obsN := 0, spn.obsSum := 0,
                    spn.frozen := s.spn.cmdQ, spn.regD := 0, spn.regQ := 0, spn.observing := false }
  (fault2 s (spnEngine s) 0x40 [1, s.spn.cntRecatch.toNat, s.spn.speed.floor.toNat] .restart)

/-! ### The centre tap (R193) -/

/-- The back-EMF of the phases in the stationary frame. -/
def emfFrame (a b c : Qty) : Qty × Qty := ((2 * a - b - c) / 3, (b - c) / sqrtQ 3)

/-- The electrical speed that a back-EMF shows: its amplitude over KE. -/
def emfOmega (s : State) (a b c : Qty) : Qty :=
  let e := emfFrame a b c
  if s.prof.ke = 0 then 0 else sqrtQ (e.1 * e.1 + e.2 * e.2) / s.prof.ke

/-- The observer locked to a back-EMF (R213, R221): in forward turning the EMF leads the rotor angle by a quarter turn. -/
def emfLock (s : State) (a b c : Qty) : Observer :=
  let e := emfFrame a b c
  let m := sqrtQ (e.1 * e.1 + e.2 * e.2)
  if m = 0 then ⟨1, 0, 0, 0, 0⟩ else ⟨e.2 / m, -e.1 / m, emfOmega s a b c, 0, 0⟩

/-- Speed in rpm of an electrical speed in rad/s. -/
def rpmOf (s : State) (w : Qty) : Qty := if polePairs s = 0 then 0 else w / polePairs s * 60 / (2 * piQ)

/-- The re-catch of Table 8.5 begins: torque frozen for one electrical period. -/
def recatchBegin (s : State) : State :=
  { s with spn.state := .recatch, spn.mode := .frozen, spn.recPeriods := 0, spn.overRun := 0, spn.cleanRun := 0,
           spn.frozen := s.spn.cmdQ, spn.settled := 0 }

/-- The rotor is declared lost (R221, R223): a loss during a re-catch, or within 20 ms after one, is that re-catch's
failure; after three consecutive failures the spindle restarts, or, while Decelerating, coasts to SHORT_RPM. -/
def rotorLost (s : State) : State :=
  let failed := s.spn.state = .recatch ∨ s.time ≤ s.spn.recEnd.elim 0 (· + 20000) ∧ s.spn.recEnd.isSome
  let fails := if failed then s.spn.recFails + 1 else 0
  let ret := if s.spn.state = .recatch then s.spn.retState else s.spn.state
  let s := { s with spn.cntRecatch := satInc s.spn.cntRecatch, spn.recFails := fails, spn.retState := ret, spn.recEnd := none }
  if fails < 3 then recatchBegin s
  else if ret = .decelerating then
    { s with spn.state := .decelerating, spn.mode := .highZ, spn.observing := false, spn.recFails := 0 }
  else spnRestart s

/-- The end of an electrical period: the observer's speed averaged over it (R195), clean or over OBS_THR, and the progress of a
re-catch (R221, steps 1 to 5): it is locked to the centre tap's measurement. A restart's ramp ends in the start procedure. -/
def periodEnd (s : State) (smp : CurSample) : State :=
  let s := { s with
    spn.obsSpeed := if s.spn.obsN = 0 then s.spn.obsSpeed else rpmOf s (s.spn.obsSum / s.spn.obsN),
    spn.obsSum := 0, spn.obsN := 0, spn.ramp := min 4 (s.spn.ramp + 1) }
  if s.spn.toMeasure then startMeasure { s with spn.toMeasure := false, spn.obs := ⟨1, 0, 0, 0, 0⟩ } else
  let exc := s.spn.overNow
  let n := s.spn.recPeriods + 1
  let s := { s with
    spn.overNow := false,
    spn.overRun := if exc then s.spn.overRun + 1 else 0,
    spn.cleanRun := if exc ∨ (s.spn.state = .recatch ∧ n ≤ 7) ∨ (s.spn.mode = .openLoop ∧ s.spn.forced < 300) then 0
      else s.spn.cleanRun + 1,
    spn.recPeriods := n }
  let s := if s.spn.state = .recatch then
      if n = 1 then { s with spn.mode := .highZ, spn.cmdQ := 0 }
      else if n = 3 then { s with spn.mode := .closedLoop, spn.overRun := 0,
                                    spn.obs := emfLock s smp.emfA smp.emfB smp.emfC, spn.obsSpeed := rpmOf s (emfOmega s smp.emfA smp.emfB smp.emfC) }
      else if 3 < n ∧ n ≤ 7 then { s with spn.cmdQ := s.spn.frozen * (n - 3 : Nat) / 4 }
      else s
    else s
  if 3 ≤ s.spn.overRun ∧ lossStates s ∧ ¬ (s.spn.state = .recatch ∧ n ≤ 3) then rotorLost s else s

/-- Torque is applied: not while measuring, at high impedance or off (R224). -/
def torqueApplied (m : SpnMode) : Bool :=
  match m with
  | .measuring | .highZ | .off | .braking => false
  | .openLoop | .closedLoop | .regenerating | .frozen => true

/-- Below F + 30 rpm while a re-catch or restart has no torque applied, the banking sequence starts (R224). -/
def slowRotor (s : State) : State :=
  if (s.spn.state = .recatch ∨ s.spn.state = .restart) ∧ ¬ torqueApplied s.spn.mode ∧ s.spn.speed < s.spn.floor + 30 then
    bankStart s .slowRotor
  else s

/-! ## Meanings: the draft -/

/-- The draft after one update (R35). -/
def draftNext (draft raw : Nat) : Nat := if raw ≥ draft then raw else draft - (draft - raw + 7) / 8

/-- The draft crosses a point between two updates. -/
def crosses (a b p : Nat) : Bool := (a < p) != (b < p)

/-- Q of R33. -/
def draftQ (tOn n : Nat) : Nat := if n = 0 then 0 else min 255 (tOn + 4 * (n - 1))

/-- B of R33. -/
def draftB (s : State) : Nat := 128 * dirtyCount s / (32 * dirtyLimit s)

/-- DRAFT_UPDATE (R33, R35, R36, R202, R203): every 10 ms; the time spent turning counts as spindle-on time (R73). -/
def draftUpdate (s : State) : State :=
  let s := s.at (s.spn.lastDraft + 10000)
  let s := if spnTurning s.spn.state then { s with chan.spinOn := s.chan.spinOn + 10000 } else s
  let q := draftQ (tOn s) (mediaWaiters s)
  let b := draftB s
  let g := bgLevel s
  let raw := min 255 (q + b + g)
  let old := s.spn.draft
  let new := draftNext old raw
  -- the restore holds the draft at T_ON or above (R521)
  let new := if s.pwr.restore then max new (tOn s) else new
  let s := { s with spn.lastDraft := s.time, spn.draft := new, spn.draftQ := q, spn.draftB := b, spn.draftG := g }
  let crossed := crosses old new (tOn s) || crosses old new (tBank s)
  let s := match s.spn.state with
    | .banked => if new ≥ tOn s then spnStart s else s
    | .decelerating => if new ≥ tOn s ∧ mayStart s then spnStart s else s
    | _ =>
      let engine := s.spn.driver = .d4 ∨ s.spn.driver = .d5
      let timer := if new < tBank s ∧ engine then some (s.spn.bankTimer.getD s.time) else none
      let s := { s with spn.bankTimer := timer }
      let t := targetCapped s
      let p := s.spn.wanted.getD s.spn.target
      let fixed := s.spn.driver ≠ .d4 ∧ s.spn.driver ≠ .d5      -- degraded: the draft no longer moves the target
      if fixed ∨ s.spn.bank ≠ .none then s
      else if (50 * (max t p - min t p) ≥ p ∧ t ≠ p) ∨ (crossed ∧ t ≠ p) then askTarget s t
      else s
  bankProgress (signalChange s)

/-- BANKING_TIMER_EXPIRE (R202): the draft has stayed below T_BANK for BANK_S seconds. -/
def bankingTimerExpire (s : State) : State :=
  match s.spn.bankTimer with
  | some t => if s.spn.draft < tBank s ∧ spnTurning s.spn.state then spnBank (s.at (t + bankS s * 1000000)) else s
  | none => s

/-! ## Meanings: starting -/

/-- The rotor's state from the start measurement (R212): two zero crossings show the phase order, the interval of a sixth of an
electrical period between them the speed. In forward turning a phase's crossing is followed by that of the phase two after it. -/
def rotorFound (s : State) (m : EmfSeen) : RotorFound :=
  if m.ampA < s.prof.restMv ∧ m.ampB < s.prof.restMv ∧ m.ampC < s.prof.restMv then .atRest
  else match m.crossings with
  | (p, t) :: (q, u) :: _ =>
    let dt := (u - t) * polePairs s
    if dt ≤ 0 ∨ p = q then .indeterminate
    else if q = p + 2 then .forward (10 / dt) else .backward (10 / dt)
  | _ => .indeterminate

/-- START_MEASURE_DONE (R212, Table 8.3): the rotor's state is classified after 20 ms. -/
def startMeasureDone (s : State) (m : EmfSeen) (rises : List Qty) : State :=
  if s.spn.mode ≠ .measuring then s
  else
    let s := s.at (s.spn.measureAt + 20000)
    let brake := { s with spn.mode := SpnMode.braking, spn.bank := .shorted, spn.thenStart := !s.spn.restOnly }
    match rotorFound s m with
    | .atRest => if s.spn.restOnly then spnBanked s else startAtRest s rises
    | .indeterminate => brake
    | .forward rpm =>
      if rpm < 300 then { brake with spn.speed := rpm }
      else  -- catch and synchronise (R213): zero current, then a ramp of the torque over 4 periods
        { s with spn.mode := .closedLoop, spn.observing := true, spn.obs := emfLock s m.emfA m.emfB m.emfC, spn.speed := rpm,
                 spn.obsSpeed := rpm, spn.reference := rpm, spn.cmdD := 0, spn.cmdQ := 0, spn.ramp := 0, spn.restOnly := false,
                 spn.bank := .none, spn.target := if s.spn.target = 0 then targetCapped s else s.spn.target }
    | .backward rpm =>
      if rpm < s.prof.shortRpm then { brake with spn.speed := rpm }
      else
        let o := emfLock s m.emfA m.emfB m.emfC
        { s with spn.mode := .closedLoop, spn.bank := .decel, spn.speed := rpm, spn.thenStart := !s.spn.restOnly, spn.backward := true,
                 spn.obs := ⟨-o.cosA, -o.sinA, -o.omega, 0, 0⟩ }

/-- ROTOR_ALIGN_DONE (R214): ALIGN_I held for 300 ms; the open-loop start begins from that pair's angle. -/
def rotorAlignDone (s : State) : State :=
  match s.spn.alignAt with
  | some t => startFailCheck (openLoopFrom (s.at (t + 300000)) Config.alignTurn)
  | none => s

/-- OBSERVER_HANDOVER (R215): after 4 consecutive clean electrical periods above 300 rpm. -/
def observerHandover (s : State) : State :=
  if s.spn.mode = .openLoop ∧ s.spn.speed ≥ 300 ∧ 4 ≤ s.spn.cleanRun ∧ s.spn.alignAt = none then
    { s with spn.observing := true, spn.mode := .closedLoop, spn.cmdQ := s.prof.startI, spn.reference := s.spn.speed }
  else startFailCheck s

/-- REST_DECLARED (R212, R217): the back-EMF has stayed below REST_MV for 100 ms. -/
def restDeclared (s : State) (rises : List Qty) : State :=
  if s.spn.mode ≠ .braking then s
  else if s.spn.thenStart ∧ mayStart s then startAtRest s rises
  else spnBanked s

/-! ## Meanings: the loops -/

/-- The largest braking I_q that the bus watch allows (R218). -/
def brakeMax (s : State) (vm v : Qty) : Qty :=
  let p := s.prof
  let kw := kT s * omegaM v
  if kw = 0 then p.iRunMax else (vm * p.regenMax / 1000 + 3 / 2 * p.rPh * p.iRunMax * p.iRunMax) / kw

/-- The length of a current cycle in seconds: 80 kHz, and 20 kHz in degraded mode (R191, R225). -/
def curDt (s : State) : Qty :=
  match s.spn.driver with | .lockstepPair _ => 1 / 20000 | _ => 1 / 80000

/-- D4 brakes by R218: a controlled deceleration, or a spindle above its target with no head loaded (R198). -/
def braking (s : State) : Bool :=
  s.spn.mode = .closedLoop && (s.spn.bank = .decel ||
    (!anyLoaded s && s.spn.observing && decide (s.spn.state ≠ .recatch ∧ s.spn.target ≠ 0 ∧ s.spn.speed > s.spn.target)))

/-- The braking I_q of a cycle (R218, R219): the deceleration asked for, SLEW where the spindle banks and no limit where it falls
with no head loaded (R198), within the bus watch; above VM_CLAMP less than in the cycle before, until VMOT is 0.3 V below it. -/
def brakeI (s : State) (vm : Qty) (clamp : Bool) : Qty :=
  let lim := min s.prof.iRunMax (brakeMax s vm s.spn.speed)
  let asked := if s.spn.bank ≠ .decel then s.prof.iRunMax
    else if kT s = 0 then 0 else s.prof.spnJ * (2 * piQ / 60) * (slew s) / kT s
  let i := min asked lim
  if clamp then max 0 (min i (Config.busReduce (absQ s.spn.cmdQ))) else i

/-- The I_d added to a braking I_q so that the power returned stays within VMOT × REGEN_MAX (R218), rounded away from 0; the
magnitude stays within I_RUN_MAX. -/
def brakeD (s : State) (vm i : Qty) : Qty :=
  let r := 3 / 2 * s.prof.rPh
  let x := if r = 0 then 0 else (kT s * i * omegaM s.spn.speed - vm * s.prof.regenMax / 1000) / r - i * i
  if x ≤ 0 then 0 else -(min (sqrtQ x + 1 / 2 ^ 40) (sqrtQ (s.prof.iRunMax * s.prof.iRunMax - i * i)))

/-- One cycle of the observer (R192): the currents predicted for the next sample by the motor model, one step of the cycle's
length, from the applied voltages and the back-EMF at the present angle; angle and speed as corrected. In an open-loop start
below 300 rpm the forced angle stands in its place. -/
def observerStep (s : State) (smp : CurSample) : Observer :=
  let o := s.spn.obs
  let dt := curDt s
  let p := s.prof
  let c := if s.spn.mode = .openLoop ∧ s.spn.forced < 300 then
      ((turnQ s.spn.forcedTurn).1, (turnQ s.spn.forcedTurn).2, omegaE s s.spn.forced)
    else Config.observerCorrect o (smp.iAlpha - o.predAlpha) (smp.iBeta - o.predBeta) dt
  let ea := -(p.ke * o.omega * o.sinA)
  let eb := p.ke * o.omega * o.cosA
  let next := fun (i v e : Qty) => if p.lPh = 0 then i else i + dt / p.lPh * (v - p.rPh * i - e)
  ⟨c.1, c.2.1, c.2.2, next smp.iAlpha s.spn.vAlpha ea, next smp.iBeta s.spn.vBeta eb⟩

/-- The rotor frame of a cycle: the observer's angle, in an open-loop start the forced one (R191, R215). -/
def rotorFrame (s : State) : Qty × Qty :=
  if s.spn.mode = .openLoop ∧ ¬ s.spn.observing ∧ s.spn.alignAt = none then turnQ s.spn.forcedTurn else (s.spn.obs.cosA, s.spn.obs.sinA)

/-- The forced angle of an open-loop start one cycle on: START_ACC, and the measured speed with it (R215). -/
def forcedStep (s : State) : State :=
  if s.spn.mode = .openLoop ∧ ¬ s.spn.observing ∧ s.spn.alignAt = none then
    let v := s.spn.forced + s.prof.startAcc * curDt s
    { s with spn.forced := v, spn.forcedTurn := s.spn.forcedTurn + v / 60 * polePairs s * curDt s, spn.speed := v }
  else s

/-- The current commands of a cycle: braking (R218), against the turning of a rotor found turning backward, holding the bus as a generator (R208), or, in a restart, the torque ramped
to zero over one electrical period (R223). -/
def cycleCommand (s : State) (vm : Qty) : State :=
  let clamp := decide (s.prof.vmClamp < vm) || (s.spn.clamping && decide (s.prof.vmClamp - 3 / 10 < vm))
  let s := { s with spn.vmBus := vm, spn.clamping := clamp && braking s }
  if braking s then
    let i := brakeI s vm clamp
    let lim := min s.prof.iRunMax (brakeMax s vm s.spn.speed)
    let asked := if kT s = 0 then 0 else s.prof.spnJ * (2 * piQ / 60) * (slew s) / kT s
    { s with spn.cmdQ := if s.spn.backward then i else -i, spn.cmdD := brakeD s vm i, spn.regenLim := decide (lim < asked) || clamp }
  else
    let s := { s with spn.regenLim := false }
    if s.spn.mode = .regenerating then
      let r := Config.busHold s.prof.holdV vm s.spn.regenInt
      { s with spn.cmdQ := -(max 0 (min s.prof.iRunMax r.1)), spn.cmdD := 0, spn.regenInt := r.2 }
    else if s.spn.toMeasure then
      let n := s.spn.speed / 60 * polePairs s * curDt s * s.spn.obsN
      { s with spn.cmdQ := s.spn.frozen * max 0 (1 - n) }
    else s

/-- The engine that runs the spindle writes its state to the mirror (R183). -/
def mirrorSpindle (s : State) : State :=
  let p := s.spn
  { s with srv.mirrorSpn := ⟨p.obs, p.regD, p.regQ, p.intQ, p.reference, p.cmdD, p.cmdQ, p.vAlpha, p.vBeta⟩ }

/-- One more sample of the engine that performs a role, for the check of one in 256 (R183). -/
def countSample (s : State) (role : Nat) : State :=
  { s with srv.mirrorN := match engineOf s role with | some e => vmod s.srv.mirrorN e (· + 1) | none => s.srv.mirrorN }

/-- CURRENT_LOOP_CYCLE (R191, R192): the currents transformed and regulated, the voltages set; the observer stepped and the
residual judged, losses of the rotor declared, the copper loss accumulated. vm is VMOT at this cycle. With the phases at high
impedance the centre tap shows the speed (R193). -/
def currentLoopCycle (s : State) (smp : CurSample) (vm : Qty) : State :=
  if s.spn.mode = .off ∨ ¬ blkEn s 13 then s
  else
    let o := s.spn.obs
    let fr := rotorFrame s
    let iD := fr.1 * smp.iAlpha + fr.2 * smp.iBeta
    let iQ := fr.1 * smp.iBeta - fr.2 * smp.iAlpha
    let da := smp.iAlpha - o.predAlpha
    let db := smp.iBeta - o.predBeta
    let thr := s.prof.obsThr * s.prof.iRunMax
    let exc := thr * thr < da * da + db * db
    let s := cycleCommand s vm
    let (reg, volts) := Config.currentRegulator (s.spn.cmdD, s.spn.cmdQ) (iD, iQ) (s.spn.regD, s.spn.regQ)
    let drive := s.spn.mode = .closedLoop ∨ s.spn.mode = .openLoop ∨ s.spn.mode = .frozen ∨ s.spn.mode = .regenerating
    let stale := s.cal.running.getLsbD 4
    let s := { s with
      spn.iD := iD, spn.iQ := iQ, spn.curCycles := s.spn.curCycles + 1, spn.stale := stale,
      spn.iDreg := if stale then s.spn.iDreg else iD, spn.iQreg := if stale then s.spn.iQreg else iQ,
      spn.obs := observerStep s smp, spn.obsSum := s.spn.obsSum + o.omega, spn.obsN := s.spn.obsN + 1,
      spn.obsValid := !exc && decide (300 ≤ s.spn.speed), spn.overNow := s.spn.overNow || exc,
      spn.regD := reg.1, spn.regQ := reg.2,
      spn.vAlpha := if drive then fr.1 * volts.1 - fr.2 * volts.2 else 0,
      spn.vBeta := if drive then fr.2 * volts.1 + fr.1 * volts.2 else 0,
      spn.obsSpeed := if s.spn.mode = .highZ then rpmOf s (emfOmega s smp.emfA smp.emfB smp.emfC) else s.spn.obsSpeed }
    let s := forcedStep s
    let s := if s.spn.state = .running ∧ ¬ s.spn.fwActive then
        { s with spn.cuCycles := s.spn.cuCycles + 1, spn.cuSum := s.spn.cuSum + iD * iD + iQ * iQ,
                 spn.cuTorque := s.spn.cuTorque + iQ }
      else s
    let s := if smp.periodEnd then periodEnd s smp else s
    let s := if s.spn.mode = .highZ ∧ s.spn.state = .decelerating ∧ s.spn.speed < s.prof.shortRpm then spnShort s else s
    countSample (mirrorSpindle (bankProgress (startFailCheck s))) 4

/-- The reference one speed-loop cycle later (R198): no slew limit while no head is loaded; else the lower of SLEW and
18 % of the present speed per second; never more than 1 % ahead of the measured speed. -/
def referenceNext (s : State) : Qty :=
  let tgt : Qty := if s.spn.bank = .decel then 300 else s.spn.target
  let rate : Qty := if anyLoaded s ∨ s.spn.bank = .decel then min (slew s : Qty) (18 / 100 * s.spn.speed) * (8 * curDt s) else 100000
  let r := s.spn.reference
  let r := if r < tgt then min tgt (r + rate) else max tgt (r - rate)
  if r > s.spn.speed * 101 / 100 then max (s.spn.speed * 101 / 100) (min r 300)
  else if r < s.spn.speed * 99 / 100 then s.spn.speed * 99 / 100 else r

/-- The angle bin of a table of n entries. -/
def angleBin (n : Nat) (a : Qty) : Nat := (a * n).floor.toNat % n

/-- The integrator added to its angle bin; after 64 revolutions each bin's mean is blended with weight 1/16 into the
background copies (R220). -/
def cogAdapt (s : State) : State :=
  match s.spn.mechAngle with
  | none => s
  | some a =>
    if s.spn.state ≠ .running ∨ s.spn.driver ≠ .d4 ∧ s.spn.driver ≠ .d5 then s
    else
      let k := angleBin 1024 a
      let sums := s.spn.cogSum.modify k fun p => (p.1 + s.spn.intQ, p.2 + 1)
      if s.spn.revs < 64 then { s with spn.cogSum := sums }
      else
        let mean := fun (p : Qty × Nat) (d : Qty) => if p.2 = 0 then d else d * 15 / 16 + p.1 / p.2 / 16
        let bins := (List.range 64).map fun i => (slice sums (16 * i) 16).foldl (fun t p => (t.1 + p.1, t.2 + p.2)) ((0 : Qty), 0)
        { s with spn.cogSum := List.replicate 1024 (0, 0), spn.revs := 0,
                 spn.cogBg := List.zipWith mean sums s.spn.cogBg,
                 spn.fricBg := List.zipWith mean bins s.spn.fricBg }

/-- The speed that a braking short leaves after a time (R217): dv/dt = −v ÷ τ − a_0. -/
def shortedSpeed (s : State) (v dt : Qty) : Qty :=
  let p := s.prof
  let pp := polePairs s
  let f : Qty := 60 / (2 * piQ)
  let inv := if p.spnJ = 0 ∨ p.rPh = 0 then 0 else kT s * (p.ke * pp / p.rPh + p.dragB * f) / p.spnJ
  let a0 := if p.spnJ = 0 then 0 else kT s * p.dragA / p.spnJ * f
  max 0 (v - (v * inv + a0) * dt)

/-- The measured speed while no actuator has a valid sample (R195): the observer's, averaged over one electrical period; while
the low-side phases are shorted no observer runs, and the speed is that of R217. -/
def noWedgeSpeed (s : State) : Qty :=
  match s.spn.mode with
  | .braking => shortedSpeed s s.spn.speed (8 * curDt s)
  | .openLoop => if s.spn.observing then s.spn.obsSpeed else s.spn.speed
  | .measuring => s.spn.speed
  | _ => s.spn.obsSpeed

/-- The mechanical angle one speed-loop cycle later (R194): it turns with the speed, and is unknown while no head is loaded. -/
def angleNext (s : State) : Option Qty :=
  if ¬ anyLoaded s then none
  else s.spn.mechAngle.map fun a =>
    let b := a + s.spn.speed / 60 * (8 * curDt s)
    b - b.floor

/-- The time to the next wedge that D4 predicts from the mechanical angle and the speed, in seconds (R194). -/
def wedgeAhead (s : State) : Option Qty :=
  s.spn.mechAngle.bind fun a =>
    if s.spn.speed ≤ 0 then none else some ((((a * 480).floor + 1 : Int) - a * 480) / 480 * 60 / s.spn.speed)

/-- The I_q that the speed loop commands: its output with the tables of R220 and the drag term (R196), within I_RUN_MAX beside
I_d, and braking no more than the bus watch allows (R198, R218). -/
def speedIq (s : State) (out : Qty) : Qty :=
  let tables : Qty := match s.spn.mechAngle with
    | some a => (if s.spn.driver = .d4 ∨ s.spn.driver = .d5 then interp (s.spn.cog ++ s.spn.cog.take 1) (a * 1024) else 0)
        + s.spn.fric.getD (angleBin 64 a) 0 * s.spn.speed / 7200
    | none => 0
  let q := (clampDQ s.prof.iRunMax s.spn.cmdD (out + tables + dragI s.prof s.spn.speed)).2
  max q (-(max 0 (brakeMax s s.spn.vmBus s.spn.speed)))

/-- SPEED_LOOP_CYCLE (R191, R195, R196, R198): every eighth current cycle. The feedback is the observer's speed, corrected for
bias while the wedge source is available. -/
def speedLoopCycle (s : State) : State :=
  if s.spn.mode = .off ∨ ¬ blkEn s 13 then s
  else
    let s := if wedgeSource s = none then { s with spn.speed := noWedgeSpeed s } else s
    let r := referenceNext s
    let s := { s with spn.slewNow := (r - s.spn.reference) / (8 * curDt s), spn.reference := r, spn.mechAngle := angleNext s }
    let fb := if wedgeSource s = none then s.spn.obsSpeed else s.spn.obsSpeed + s.spn.bias
    let (out, int) := Config.speedLoop s.spn.reference fb s.spn.intQ
    let s := { s with spn.intQ := int }
    let s := match s.spn.mode with
      | .closedLoop =>
        if s.spn.state = .recatch ∨ braking s then s
        else
          let q := if ¬ anyLoaded s ∧ s.spn.speed < s.spn.target then s.prof.startI else speedIq s out
          { s with spn.cmdQ := q * s.spn.ramp / 4 }
      | _ => s
    -- a start ends when the target is reached (Table 8.4); a spindle that leaves the band of its target settles again
    let s := if s.spn.state = .starting ∧ s.spn.observing ∧ s.spn.target ≠ 0 ∧ speedWithin s (5 / 10000)
      then { s with spn.state := .changing, spn.settled := 0 } else s
    let s := offTarget s
    let s := cogAdapt s
    mirrorSpindle (bankProgress (signalChange (slowRotor (speedAborts s))))

/-- RECATCH_COMPLETE (R221, R223): four clean periods after the ramp, within ±0.05 % of the target; or the failure of
the re-catch, which starts the next. -/
def recatchComplete (s : State) : State :=
  if s.spn.state ≠ .recatch then s
  else if 3 ≤ s.spn.overRun then rotorLost s
  else if 4 ≤ s.spn.cleanRun ∧ 11 ≤ s.spn.recPeriods ∧ (s.spn.retState = .decelerating ∨ speedWithin s (5 / 10000)) then
    let s := { s with spn.state := s.spn.retState, spn.mode := .closedLoop, spn.recEnd := some s.time, spn.cmdQ := s.spn.frozen }
    ashRecord (noteHealth s .recatch) 0x40 255 (spnEngine s) [0, s.spn.cntRecatch.toNat, s.spn.speed.floor.toNat]
  else s

/-- SPEED_SETTLED (R199): within ±0.05 % of the target for 16 consecutive wedges. -/
def speedSettled (s : State) : State :=
  if 16 ≤ s.spn.settled ∧ s.spn.wanted = none ∧ (s.spn.state = .changing ∨ s.spn.state = .restart ∨ s.spn.state = .starting)
  then { s with spn.state := .running, spn.recFails := 0 } else s

/-! ## Meanings: target changes and the voltage cap -/

/-- SPEED_TARGET_APPLY (R198): dirty data within the new limit and every ACT island has acknowledged. -/
def speedTargetApply (s : State) : State :=
  let s := signalChange s
  match s.spn.wanted with
  | some t =>
    if s.spn.signalled ∧ dirtyWithin s ∧ s.wrt.act.toList.all (·.acked) then
      { dropChange s with spn.target := t, spn.settled := 0,
                          spn.state := if s.spn.state = .running then .changing else s.spn.state }
    else s
  | none => s

/-- TARGET_CHANGE_ACK (R147): an ACT write path with no frame in progress acknowledges a pending change. -/
def targetChangeAck (s : State) (a : Fin 4) : State :=
  let w := s.wrt.act[a]
  if w.changePend ∧ w.frame = none then { s with wrt.act := s.wrt.act.set a { w with acked := true } } else s

/-- SPEED of SPN_SPEED: units of 1/8 rpm. -/
def speedField (v : Qty) : BitVec 16 := BitVec.ofNat 16 (min 0xFFFF (8 * v).floor.toNat)

/-- The magnitude of the field-weakening current (R210): the least, in units of 10 mA, with which the speed's voltage fits, FW_MAX
where none does, and never above I_RUN_MAX. -/
def fwCurrent (s : State) (vm : Qty) : Qty :=
  let n := bitsOf s.reg.ck.spnCfg1 15 8
  let k := ((List.range n).find? fun k => fwVoltSq s.prof s.spn.speed (-(k : Qty) / 100) ≤ availVoltSq vm).getD n
  min s.prof.iRunMax ((k : Qty) / 100)

/-- VCAP_UPDATE (R209 to R211): every 10 ms, from VMOT averaged over 100 ms. -/
def vcapUpdate (s : State) (vm : Qty) : State :=
  let cap := vcapOf s.prof vm
  let okSince := if cap ≥ s.spn.floor then some (s.spn.vcapOkSince.getD s.time) else none
  let s := { s with
    spn.vmot := vm, spn.vcap := cap, spn.vcapReg := BitVec.ofNat 16 (min 0xFFFF cap),
    spn.stale := s.cal.running.getLsbD 4,
    spn.speedReg := if s.cal.running.getLsbD 4 then s.spn.speedReg else speedField s.spn.speed,
    spn.vcapOkSince := okSince, spn.capBlock := s.spn.capBlock || decide (cap < s.spn.floor) }
  if ¬ spnTurning s.spn.state then { s with spn.limitV := false }
  else
    let s := { s with spn.limitV := decide (cap < targetWanted s) }
    -- field weakening while the present speed needs more voltage than is available (R210)
    let need := phaseVoltSq s.prof s.spn.speed > availVoltSq vm
    let s := { s with spn.fwActive := need, spn.cmdD := if need then -(fwCurrent s vm) else if braking s then s.spn.cmdD else 0 }
    if cap < 3650 then
      if s.spn.bank = .none then spnBank (noteHealth s .vcapBanked) else s
    else if cap < s.spn.wanted.getD s.spn.target then askTarget s cap
    else s

/-- VCAP_RECOVER_START (R211): v_cap has stayed at F or above for 1 s; a spindle banked by the cap may start again. -/
def vcapRecoverStart (s : State) : State :=
  match s.spn.vcapOkSince with
  | some t =>
    if s.spn.capBlock then
      let s := { s.at (t + 1000000) with spn.capBlock := false }
      if s.spn.state = .banked ∧ s.spn.draft ≥ tOn s then spnStart s else s
    else s
  | none => s

/-- COPPER_LOSS_MEASURE (R226, R233): after 65,536 current cycles in Running. -/
def copperLossMeasure (s : State) : State :=
  if s.spn.cuCycles < 65536 then s
  else
    let n : Qty := s.spn.cuCycles
    let iMin := s.spn.cuTorque / n
    let ratio := if iMin = 0 then 1 else s.spn.cuSum / n / (iMin * iMin)
    let r := (ratio * 4096).floor.toNat
    let s := { s with spn.cuCycles := 0, spn.cuSum := 0, spn.cuTorque := 0, spn.cuValid := true,
                      spn.cuRatio := BitVec.ofNat 16 (min 0xFFFF r) }
    if ratio > 104 / 100 then ashRecord s 0x44 255 (spnEngine s) [3, r] else s

/-- COG_TABLE_SWITCH (R220): at least 60 s after the last switch, with a head loaded. -/
def cogTableSwitch (s : State) : State :=
  if wedgeSource s = none then s
  else { s.at (s.spn.lastSwitch + 60000000) with
           spn.lastSwitch := max s.time (s.spn.lastSwitch + 60000000), spn.cog := s.spn.cogBg, spn.fric := s.spn.fricBg }

/-! ## D4 faults (R225) -/

/-- A faulty D4 is replaced by D5 when D5 is idle, else a supervising lockstep pair takes over in degraded mode; a fault of
D5 in the role leads there too. -/
def spindleEngineFault (s : State) : State :=
  let takeover := fun (s : State) =>
    let pair : Fin 2 := if vget s.flt.lsRun 0 false ∨ ¬ vget s.flt.lsRun 1 false then 0 else 1
    let s := { s with spn.driver := .lockstepPair pair, spn.bankTimer := none }
    fault2 (if s.spn.wanted.isSome then dropChange s else s) (.damper (if s.spn.driver = .d5 then 5 else 4)) 0x45 [4] .degraded
  match s.spn.driver with
  | .d4 =>
    let s := { s with srv.serves := vset s.srv.serves 4 6 }
    if s.str.dmpLeft then
      let m := s.srv.mirrorSpn
      -- D5 loads the state from the mirror; the outputs are held for that cycle (R225)
      let s := { s with spn.obs := m.obs, spn.regD := m.regD, spn.regQ := m.regQ, spn.intQ := m.intQ, spn.reference := m.reference,
                        spn.cmdD := m.cmdD, spn.cmdQ := m.cmdQ }
      spareUsed { s with spn.driver := .d5, srv.serves := vset s.srv.serves 5 4, str.dmpLeft := false } (.damper 4) (.damper 5)
    else takeover s
  | .d5 => takeover { s with srv.serves := vset s.srv.serves 5 6 }
  | .lockstepPair _ | .bellows => s

end Sys2Proof.Machine
end

