-- ==== Sys2Proof/Machine/Servo.lean ====
section
/-! DEFINITION. Timing-based servo and actuator control (chapter 7). -/
namespace Sys2Proof.Machine
open Sys2Proof

/-! ## Settings -/

/-- DMPn_ONTRK of the engine that serves a role; the role's own register where none does. -/
def ontrkOf (s : State) (a : Nat) : Word := vget s.reg.ck.ontrk ((engineOf s a).getD a) 0
/-- DMPn_SRV_CFG of the engine that serves a role. -/
def srvCfgOf (s : State) (a : Nat) : Word := vget s.reg.ck.srvCfg ((engineOf s a).getD a) 0
def settleN (s : State) (a : Nat) : Nat := bitsOf (ontrkOf s a) 27 24
def wrFault (s : State) (a : Nat) : Qty := (bitsOf (ontrkOf s a) 23 16 : Qty) / 256
def rdOntrk (s : State) (a : Nat) : Qty := (bitsOf (ontrkOf s a) 15 8 : Qty) / 256
def wrOntrk (s : State) (a : Nat) : Qty := (bitsOf (ontrkOf s a) 7 0 : Qty) / 256
def lostN (s : State) (a : Nat) : Nat := bitsOf (srvCfgOf s a) 19 16
def softN (s : State) (a : Nat) : Nat := bitsOf (srvCfgOf s a) 15 8
def srvWin (s : State) (a : Nat) : Nat := bitsOf (srvCfgOf s a) 7 0

/-- The profile's values of a head and zone. -/
def headZone (s : State) (surface zone : Nat) : HeadZone :=
  match s.prof.heads.find? fun h => h.surface = surface ∧ h.zone = zone with
  | some h => h
  | none => { surface := surface, zone := zone }

/-- A counter of the engine that serves a role raised. -/
def countEngine {n : Nat} (s : State) (a : Nat) (v : Vector (BitVec n) 6) : Vector (BitVec n) 6 :=
  match engineOf s a with
  | some e => vmod v e satInc
  | none => v

/-- A change to one actuator's loop. -/
def onLoop (s : State) (a : Nat) (f : Loop → Loop) : State := { s with srv.loop := vmod s.srv.loop a f }

/-! ## Demodulation (R159 to R161) -/

/-- What a reader shows at a wedge, where its sample is valid (R160): demodulated, with the wedge number after the last one and
the track within ±2 of the estimator's prediction. A lost loop searches every cell (R180); one that has left the ramp has no
previous wedge and no prediction either (log entry 7). A reader with no lane, or itself out, gives no sample (R161). -/
def readerSample (s : State) (l : Loop) (win : Nat) (trail : Bool) (r : ReaderSample) : Option Demod :=
  let fresh := l.mode = .loading || l.wedge = none
  if readerOut s l.surface trail then none
  else match demod (if l.lost || fresh then none else some win) r with
  | none => none
  | some d =>
    let diff := burstU d.tCD d.tAC - burstU d.tAB d.tAC - 1 / 2
    let off := absQ (diff - (diff + 1 / 2).floor)
    let t : Qty := (ungray d.gray).toNat
    if decide (d.tAC ≠ 0) && !parity10 d.wedge && (fresh || decide (some (bitsOf d.wedge 8 0) = l.wedge.map fun k => (k + 1) % 480))
      && decide (off ≤ 1 / 16) && (fresh || decide (absQ (t - l.est.pred.floor) ≤ 2)) then some d else none

/-- A valid reader's position with the offset of its head and zone (R161). -/
def readerY (s : State) (surface : Nat) (trail : Bool) (d : Demod) : Qty :=
  let t := (ungray d.gray).toNat
  let h := headZone s surface (zoneOf s.media.zones t)
  readerPos t (burstU d.tAB d.tAC) (burstU d.tCD d.tAC) + ((if trail then h.trailOfs else h.leadOfs) : Qty) / 256

/-- The head position of R161; none when neither reader's sample is valid. -/
def headPos (s : State) (l : Loop) (win : Nat) (w : WedgeSample) : Option Qty :=
  match readerSample s l win false w.lead, readerSample s l win true w.trail with
  | some a, some b => some ((readerY s l.surface false a + readerY s l.surface true b) / 2)
  | some a, none => some (readerY s l.surface false a)
  | none, some b => some (readerY s l.surface true b)
  | none, none => none

/-- The wedge number that the readers show. -/
def wedgeSeen (s : State) (l : Loop) (win : Nat) (w : WedgeSample) : Option Nat :=
  ((readerSample s l win false w.lead).orElse fun _ => readerSample s l win true w.trail).map fun d => bitsOf d.wedge 8 0

/-! ## Seeks (R173 to R175) -/

/-- T_min of R174. -/
def tMin (a tr vMax d : Qty) : Qty :=
  if d < 2 * a * tr * tr then 4 * cbrtQ (d * tr / (2 * a))
  else
    let tau := (tr + sqrtQ (tr * tr + 4 * d / a)) / 2
    if a * (tau - tr) ≤ vMax then 2 * tau
    else
      let tau := vMax / a + tr
      2 * tau + (d - vMax * tau) / vMax

/-- T_min for an actuator's profile values; the plan's own time takes 0.95 of I_MAX (R173). -/
def seekTime (p : ProfAct) (frac d : Qty) : Qty :=
  if p.fRes1 = 0 ∨ p.accPerA * p.iMax = 0 then 0 else tMin (p.accPerA * p.iMax * frac) (1 / p.fRes1) p.vMax d

/-- The trajectory of R174 as pieces (Table 7.2): duration, and the rate at which the acceleration changes over it. The current
rises and falls within t_r; a short seek's never reaches its limit, a long one's may coast at V_MAX. -/
def trajPieces (a tr vMax d : Qty) : List (Qty × Qty) :=
  let j := a / tr
  if d < 2 * a * tr * tr then
    let q := cbrtQ (d * tr / (2 * a))
    [(q, j), (2 * q, -j), (q, j)]
  else
    let tau := (tr + sqrtQ (tr * tr + 4 * d / a)) / 2
    let fast := decide (a * (tau - tr) ≤ vMax)
    let tau := if fast then tau else vMax / a + tr
    let coast := if fast then 0 else (d - vMax * tau) / vMax
    let h := tau - 2 * tr
    [(tr, j), (h, 0), (tr, -j), (coast, 0), (tr, -j), (h, 0), (tr, j)]

/-- Position, velocity and acceleration a time into a trajectory, from those at its start; at rest after its end. -/
def trajAt : List (Qty × Qty) → Qty → Qty × Qty × Qty → Qty × Qty × Qty
  | [], _, m => (m.1, 0, 0)
  | (d, j) :: ps, t, (x, v, a) =>
    let u := min t d
    let m := (x + v * u + a * u * u / 2 + j * u * u * u / 6, v + a * u + j * u * u / 2, a + j * u)
    if t ≤ d then m else trajAt ps (t - d) m

/-- The first ON_TRACK sample of a seek: a qualifying seek's ratio is recorded (R175). -/
def seekRecord (s : State) (a : Nat) : State :=
  let l := vget s.srv.loop a {}
  match l.seek with
  | none => s
  | some k =>
    let s := onLoop s a fun l => { l with seek := none }
    if k.clean ∧ k.d * 100 ≥ s.prof.nT ∧ k.tMin > 0 then
      let r := k.elapsed / k.tMin
      let s := { s with srv.meanOver := vmod s.srv.meanOver a fun m => (r :: m).take 1024 }
      if r > 112 / 100 then ashRecord s 0x44 255 (.actuator a) [2, ratioField r] else s
    else s

/-! ## Shock (R178) -/

/-- A shock is declared: write inhibit on every actuator, a micro-trap to every sequencer running a routine. -/
def shockDeclare (s : State) : State :=
  if s.srv.shock then s
  else
    let s := { s with
      srv.shock := true, srv.calmSince := none,
      srv.shockCnt := (List.range 4).foldl (fun v a => countEngine s a v) s.srv.shockCnt,
      srv.loop := s.srv.loop.map fun l => { l with seek := l.seek.map fun k => { k with clean := false } } }
    (List.range 4).foldl (fun s a => trapAct (writeInhibit s a) a .shock) s

/-! ## The read-back of R179 -/

/-- Slots of the track below whose frames overlap the span from a frame's start to the abort, the abort lying in a
given wedge. -/
def overlapSlots (s : State) (p : Pos) (wedgeNow : Nat) : List Pos :=
  match ringAt s p.surface p.ring with
  | none => []
  | some r =>
    match s.media.zones[r.zone]? with
    | none => []
    | some z =>
      let l := framesPerTrack z.dz r.strength
      if l = 0 ∨ p.slot < l ∨ conventional r.role then []
      else
        let t := p.slot / l
        let w0 := slotWedge r z l p.slot
        let span := (wedgeNow + 480 - w0) % 480
        ((List.range l).filter fun i =>
          let q := (t - 1) * l + i
          let first := slotWedge r z l q
          let len := (frameBits r.strength + z.dz - 1) / z.dz
          let d := (first + 480 - w0) % 480
          -- the frame begins within the span, or covers the span's start
          decide (d ≤ span) || decide (480 ≤ d + len)).map fun i => ⟨p.surface, p.ring, (t - 1) * l + i⟩

/-- A frame on a shingled ring abandoned with e below −WR_FAULT leaves slots to be read back (R179). -/
def excursion (s : State) (a : Nat) (e : Qty) (wedgeNow : Nat) : State :=
  match (vget s.wrt.act a {}).frame with
  | some j =>
    if e < -(wrFault s a) then
      let ps := overlapSlots s j.1.pos wedgeNow
      { s with wrt.act := vmod s.wrt.act a fun w => { w with readback := w.readback ++ ps.filter (· ∉ w.readback) } }
    else s
  | none => s

/-! ## The control step (R163) -/

/-- G(|e|) of R165: 16 points at eighths of a track, in units of 1/64. -/
def gainAt (lut : List Nat) (e : Qty) : Qty :=
  let i := 8 * absQ e
  if i > 15 then (lut.getD 15 64 : Qty) / 64 else interp (lut.map fun g => (g : Qty)) i / 64

/-- The mode that a loop follows: the one that coasting interrupts (R180). -/
def way (l : Loop) : ActMode := if l.mode = .coast then l.before else l.mode

/-- Reference position, velocity and acceleration a time after the last sample (R163, R166, R173): trajectory, soft start or
target. -/
def loopRef (p : ProfAct) (n : Nat) (l : Loop) (dt : Qty) : Qty × Qty × Qty :=
  match way l, l.seek with
  | .seek, some k =>
    let m := trajAt (trajPieces (p.accPerA * p.iMax * 95 / 100) (1 / p.fRes1) p.vMax k.d) (k.elapsed + dt) (0, 0, 0)
    let dir : Qty := if l.target < l.seekRef then -1 else 1
    (l.seekRef + dir * m.1, dir * m.2.1, dir * m.2.2)
  | _, _ =>
    if l.softLeft = 0 ∨ n = 0 then (l.target, 0, 0)
    else (l.target + (l.softFrom - l.target) * l.softLeft / n, 0, 0)

/-- The entry of FRIC at a position: its pivot angle, by the profile's geometry polynomial (R167). -/
def pivotBin (p : ProfAct) (x : Qty) : Nat :=
  (Config.pivotIndex (p.geom.foldr (fun c r => c + x * r) 0)).floor.toNat % 64

/-- RV_RMS of DMP_RV in rad/s². -/
def rvRmsNow (s : State) : Qty := (s.srv.rvRms.toNat : Qty) / 16

/-- Both accelerometers are in use. -/
def accInUse (s : State) : Bool := !(vget s.srv.accOut 0 true) && !(vget s.srv.accOut 1 true)

/-- Feed-forward current (R163 step 5): the trajectory's, bias, friction with the reference velocity's sign (R167), rotational
vibration (R176) and coupling (R177). -/
def feedForward (s : State) (a : Nat) (l : Loop) (r : Qty × Qty × Qty) : Qty :=
  let p := vget s.prof.act a {}
  let vRef := r.2.1
  let traj := if p.accPerA = 0 then 0 else r.2.2 / p.accPerA
  let bias := if s.prof.nT = 0 then 0 else interp l.bias (128 * l.x / s.prof.nT)
  let sign : Qty := if vRef < 0 then -1 else if vRef > 0 then 1 else 0
  let scale : Qty := if p.vStick = 0 ∨ absQ vRef ≥ p.vStick then 1 else absQ vRef / p.vStick
  let fric := l.fric.getD (pivotBin p l.x) 0 * sign * scale
  let rv := if accInUse s then (List.zipWith (· * ·) l.taps l.rvIn).foldl (· + ·) 0 else 0
  traj + bias + fric + rv + (List.zipWith (· * ·) (s.prof.couple.getD a []) l.lag).foldl (· + ·) 0

/-- A loop's inputs a quarter of the wedge period on: α resampled between the last two readings (R176), and the lags of the
coupling paths on the other actuators' commands (R177). -/
def driftInputs (s : State) (a : Nat) (l : Loop) : Loop :=
  let dt := l.period / 4
  let ago := l.accAgo + dt
  let new := s.srv.alpha.headD 0
  let old := s.srv.alpha.getD 1 new
  { l with
    accAgo := ago, rvIn := ((old + (new - old) * min 1 (ago * 50000)) :: l.rvIn).take 8,
    lag := (List.range 4).map fun b =>
      if b = a then 0 else Config.lagStep b a (l.lag.getD b 0) (vget s.srv.loop b {}).vcm dt }

/-- The taps of the RV filter after a sample (R176): normalised least mean squares on e with step 2⁻¹⁰, held in seek mode,
while RV_RMS is below 0.5 rad/s², and while an accelerometer is out of use. -/
def rvAdapt (s : State) (l : Loop) : List Qty :=
  let p := (l.rvIn.map fun x => x * x).foldl (· + ·) 0
  if way l = .seek ∨ rvRmsNow s < 1 / 2 ∨ ¬ accInUse s ∨ p = 0 then l.taps
  else List.zipWith (fun w x => w + l.e * x / p / 1024) l.taps l.rvIn

/-- The mean of 256 on-track integrator values blended with weight 1/16 into the neighbouring entries of the background
tables, weighted as for the interpolation (R167). -/
def biasAdapt (p : ProfAct) (nT : Nat) (l : Loop) : Loop :=
  if l.adaptN < 256 then l
  else
    let mean := l.adaptSum / l.adaptN
    let i : Qty := if nT = 0 then 0 else 128 * l.x / nT
    let k := i.floor.toNat
    let f := i - k
    let blend := fun (w old : Qty) => old + w * (mean - old) / 16
    { l with adaptN := 0, adaptSum := 0,
             biasBg := (l.biasBg.modify k (blend (1 - f))).modify (k + 1) (blend f),
             fricBg := l.fricBg.modify (pivotBin p l.x) (blend 1) }

/-! ### Coefficients (R164) -/

/-- A value between two, at a fraction from the first. -/
def mix (f a b : Qty) : Qty := a + (b - a) * f

/-- The discrete coefficient sets of an actuator for nine speeds, 3,600 to 7,200 rpm in steps of 450 rpm (R164). -/
def coefSets (p : ProfAct) : List CoefSet :=
  (List.range 9).map fun i =>
    let t : Qty := 1 / (8 * (3600 + 450 * i : Nat))
    ⟨t, Config.discreteLaw p.law t, p.res.map fun r => Config.discreteNotch r t⟩

/-- The coefficients at a wedge period: between the two neighbouring sets, linearly in the period; the end sets hold beyond. -/
def coefAt : List CoefSet → Qty → CoefSet
  | a :: b :: rest, t =>
    if a.period ≤ t then a
    else if b.period ≤ t then
      let f := (t - a.period) / (b.period - a.period)
      ⟨t, List.zipWith (mix f) a.law b.law, List.zipWith (List.zipWith (mix f)) a.notch b.notch⟩
    else coefAt (b :: rest) t
  | [a], _ => a
  | [], t => ⟨t, [], []⟩

/-- A command through the notch filters in turn. -/
def notchAll : List (List Qty) → List (List Qty) → Qty → Qty × List (List Qty)
  | [], _, x => (x, [])
  | c :: cs, ss, x =>
    let r := Config.notchStep c (ss.headD []) x
    let t := notchAll cs ss.tail r.1
    (t.1, r.2 :: t.2)

/-! ### Command and on-track states -/

/-- The microactuator gain of the active head, in servo tracks per volt: measured, or the model's before a measurement; 0 for a
head whose measurement failed, which tracks with the voice coil alone (R170). -/
def maGainOf (p : ProfAct) (l : Loop) : Qty :=
  match l.maGain.find? fun e => e.1 = l.surface with
  | some (_, g) => g.getD 0
  | none => Config.maNominal p.law

/-- The estimated displacement of the microactuator (R169). -/
def mHat (p : ProfAct) (l : Loop) : Qty := Config.maModel p.law (maGainOf p l * l.ma)

/-- A voltage for a displacement of the microactuator, within its stroke and ±40 V (R163, R168); 0 in a seek until the distance
left is at most MA_STROKE ÷ 2 (R169). -/
def maVolts (p : ProfAct) (l : Loop) (m : Qty) : Qty :=
  let g := maGainOf p l
  if (way l = .seek ∧ absQ (l.target - l.x) > p.maStroke / 2) ∨ g = 0 then 0 else clampQ 40 (clampQ p.maStroke m / g)

/-- Steps 4 to 8 of R163: the voice-coil path acts on e + m̂ with its proportional and derivative paths scaled by G(|e|), the
microactuator path on e (R169); the feed-forward is added, the notches follow, and the commands are clamped. The first output
of a soft start is the last one applied: its integrator and its notches are preloaded (R166). -/
def loopCommand (s : State) (a : Nat) (l : Loop) (period : Qty) (r : Qty × Qty × Qty) : Loop :=
  let p := vget s.prof.act a {}
  let c := coefAt (vget s.srv.coefs a []) period
  let g := gainAt p.gainLut l.e
  let (pd, int) := Config.lawPaths c.law (l.e + mHat p l) (r.2.1 - l.est.vel) l.integ
  let ff := feedForward s a l r
  let int := if l.preload then l.vcm - g * pd - ff else int
  let (v, notch) := if l.preload then (l.vcm, c.notch.map fun k => Config.notchRest k l.vcm) else notchAll c.notch l.notch (g * pd + int + ff)
  { l with
    vcm := clampQ p.iMax v, vcmSat := decide (p.iMax < absQ v), ma := maVolts p l (Config.maPath c.law (g * l.e)),
    integ := int, notch := notch, ref := r.1, refV := r.2.1, ff := ff, preload := false, updates := 0 }

/-- Coasting (R180): a missed sample leaves the estimator to its prediction; a valid one resumes the mode it interrupted. -/
def coastStep (l : Loop) (valid : Bool) : Loop :=
  if valid then { l with mode := way l, missRun := 0 } else { l with before := way l, mode := .coast, missRun := l.missRun + 1 }

/-- A seek after a sample (R173, R175): its time runs; it qualifies while no sample is missed and RV_RMS stays below RV_THRESH.
Settle mode begins when the trajectory ends, after a head switch with a soft start (R171). -/
def seekStep (s : State) (p : ProfAct) (n : Nat) (l : Loop) (valid : Bool) (period : Qty) : Loop :=
  match l.seek with
  | none => l
  | some k =>
    let k := { k with elapsed := k.elapsed + period, clean := k.clean && valid && decide (rvRmsNow s < s.prof.rvThresh) }
    if way l = .seek ∧ k.elapsed ≥ seekTime p (95 / 100) k.d then
      { l with mode := if l.mode = .coast then .coast else .settle, before := .settle, seek := some k,
               softLeft := if l.headSw then n else 0, softFrom := l.x, preload := l.headSw, headSw := false }
    else { l with seek := some k }

/-- The on-track states of Table 7.1 after a sample, with the samples within WR_ONTRK counted from the end of a soft start, and
MA_SAT (R169, R172). Through one missed sample a coasting loop keeps the ON_TRACK of the mode it interrupts. -/
def trackStep (s : State) (a : Nat) (l : Loop) (valid soft : Bool) : Loop :=
  let p := vget s.prof.act a {}
  let on := decide ((way l = .track ∨ way l = .settle) ∧ l.missRun < 2 ∧ absQ l.e ≤ rdOntrk s a)
  let mode := if l.mode = .settle ∧ on then .track
    else if l.mode = .reacquire ∧ l.softLeft = 0 then .track else l.mode
  let on := on || decide (mode = .track ∧ absQ l.e ≤ rdOntrk s a)
  let okRun := if valid ∧ ¬ soft ∧ absQ l.e ≤ wrOntrk s a then l.okRun + 1 else 0
  let satRun := if absQ (mHat p l) ≥ 95 / 100 * p.maStroke ∧ l.ma ≠ 0 then l.satRun + 1 else 0
  let sat := decide (2 ≤ satRun)
  let permit := decide (settleN s a ≤ okRun ∧ absQ (l.target - l.est.pred) ≤ wrOntrk s a ∧ mode = .track ∧ l.softLeft = 0)
    && !sat && !s.srv.shock
  let inhibit := decide (absQ l.e > wrFault s a) || !valid || sat || s.srv.shock || decide (way l = .seek)
  { l with mode := mode, onTrack := on, okRun := okRun, satRun := satRun, maSat := sat, wrPermit := permit,
           inhibit := inhibit || (l.inhibit && !permit) }

/-- The position readouts are stale (R185): the voice-coil current sense, or a lane of the actuator, is being calibrated. -/
def posStale (s : State) (a : Nat) : Bool := s.cal.running.getLsbD 3 || switching s a false || switching s a true

/-- The loop after one sample (R163): position or prediction, estimator, reference and error, on-track states, command; the time
of track following is kept for R170, and what the registers show for R185. -/
def loopStep (s : State) (a : Nat) (l : Loop) (x? : Option Qty) (period : Qty) : Loop :=
  let p := vget s.prof.act a {}
  let n := softN s a
  let x := x?.getD l.est.pred
  let soft := decide (l.softLeft ≠ 0)
  let est := Config.estimatorStep p.estGains l.est (x - l.est.pred) l.vcm period
  let l := coastStep { l with x := x, est := est, softLeft := l.softLeft - 1, period := period } x?.isSome
  let l := seekStep s p n l x?.isSome period
  let r := loopRef p n l 0
  let l := { l with e := r.1 - x }
  let l := loopCommand s a (trackStep s a { l with taps := rvAdapt s l } x?.isSome soft) period r
  let track := l.mode = .track
  let l := if track then { l with maTrack := assocSet l.maTrack l.surface (lookupD l.maTrack l.surface 0 + period) } else l
  let l := if track ∧ l.onTrack then { l with adaptN := l.adaptN + 1, adaptSum := l.adaptSum + l.integ } else l
  let l := if posStale s a then l else { l with shownX := l.x, shownE := l.e }
  biasAdapt p s.prof.nT l

/-- The spindle's share of a wedge: measured speed from the wedge source, the settled count, the mechanical angle
(R194, R195, R199). -/
def wedgeSpeed (s : State) (a wedge : Nat) (period : Qty) : State :=
  if wedgeSource s ≠ some a ∨ period ≤ 0 then s
  else
    let v := 1 / (8 * period)
    let s := { s with spn.speed := v, spn.bias := Config.speedBias s.spn.bias (v - s.spn.obsSpeed), spn.mechAngle := some ((wedge : Qty) / 480) }
    let s := { s with
      spn.settled := if speedWithin s (5 / 10000) ∧ s.spn.target ≠ 0 then s.spn.settled + 1 else 0,
      spn.revs := if wedge = 0 then s.spn.revs + 1 else s.spn.revs }
    slowRotor (speedAborts (offTarget s))

/-- A valid sample after a loss or a head load: a soft start from the measured position begins with this sample (R166, R180,
Table 7.3). A loss reacquired without an unload is recorded with CLASS FFh. -/
def reacquire (s : State) (a : Nat) (x : Qty) : State :=
  let l := vget s.srv.loop a {}
  let n := softN s a
  let reset := fun (l : Loop) => { l with
    lost := false, lostRun := 0, mode := .reacquire, softLeft := n + 1, softFrom := x, preload := true, est := ⟨x, 0, l.est.bias, x⟩,
    target := if l.mode = .loading then x else l.target }
  if l.mode = .loading then onLoop s a fun l => { reset l with reloads := 0, unloadWhy := 0 }
  else
    let s := onLoop s a reset
    ashRecord (noteHealth s (.lostServo a)) 0x41 255 (.actuator a) [a, l.missRun, 0]

/-- The wedge period of a sample: the measured interval; while servo is lost, the one that D4 gives (R180, R194). -/
def samplePeriod (s : State) (l : Loop) (w : WedgeSample) (valid : Bool) : Qty :=
  if l.lost ∧ ¬ valid ∧ 0 < s.spn.speed then 1 / (8 * s.spn.speed) else w.period

/-- One sample of a loop that runs on samples: the step, an excursion or a write inhibit that abandons a frame, the seek's
record, a shock, and the spindle's share of the wedge. -/
def sampleStep (s : State) (a : Nat) (x? : Option Qty) (number : Nat) (period : Qty) : State :=
  let l := loopStep s a (vget s.srv.loop a {}) x? period
  let s := if l.inhibit then excursion s a l.e number else s
  let s := { s with srv.loop := vset s.srv.loop a l, srv.mirror := vset s.srv.mirror a l }
  let s := if l.inhibit then frameAbort s a else s
  let s := if l.onTrack then seekRecord s a else s
  let s := if l.mode = .track ∧ absQ l.e > wrFault s a then shockDeclare s else s
  wedgeSpeed s a number period

/-- One wedge of one actuator (R159 to R175, R180). A missed sample is counted; a lost loop, or one that has left the ramp,
takes up its control again at a valid sample. -/
def servoStep (s : State) (a : Fin 4) (w : WedgeSample) : State :=
  let l := s.srv.loop[a]
  if l.mode = .unloaded ∨ l.mode = .unloading then s
  else
    let x? := headPos s l (srvWin s a) w
    let next := match l.wedge with | some k => (k + 1) % 480 | none => 0
    let number := (wedgeSeen s l (srvWin s a) w).getD next
    let period := samplePeriod s l w x?.isSome
    let s := countSample s a
    let s := { s with srv.stale := match engineOf s a with | some e => vset s.srv.stale e (posStale s a) | none => s.srv.stale }
    let s := if x?.isNone then { s with srv.missed := countEngine s a s.srv.missed } else s
    let s := onLoop s a fun l => { l with
      wedges := l.wedges + 1, wedge := if x?.isSome ∨ l.wedge.isSome then some number else none }
    if l.lost ∨ l.mode = .loading then
      match x? with
      | some x => sampleStep (reacquire s a x) a (some x) number period
      | none => onLoop s a fun l => { l with
          lostRun := l.lostRun + 1, est := Config.estimatorStep (s.prof.act[a]).estGains l.est 0 l.vcm period }
    else sampleStep s a x? number period

/-- ACTUATOR_OUTPUT_UPDATE (R168, R173): the commands at the next quarter of the wedge period follow the engine's prediction,
with the reference and the feed-forward of that instant. A lost loop keeps bias feed-forward and 0 V (R180); heads that load or
unload are moved by the bellows (R181). -/
def outputUpdate (s : State) (a : Fin 4) : State :=
  let l := s.srv.loop[a]
  if l.mode = .unloaded ∨ l.mode = .loading ∨ l.mode = .unloading ∨ l.lost ∨ 4 ≤ l.updates then s
  else
    let p := s.prof.act[a]
    let (vcm, ma) := Config.outputPredict l.est l.vcm l.ma (l.updates + 1)
    onLoop s a fun l =>
      let l := driftInputs s a l
      let r := loopRef p (softN s a) l (l.period * (l.updates + 1 : Nat) / 4)
      let ff := feedForward s a l r
      let v := vcm + (ff - l.ff)
      { l with updates := l.updates + 1, vcm := clampQ p.iMax v, vcmSat := decide (p.iMax < absQ v),
               ma := maVolts p l (maGainOf p l * ma), ref := r.1, refV := r.2.1, ff := ff }

/-- The bellows reports an open or shorted voice coil on an actuator's bridge; a second test 10 ms later confirms it, and the
actuator leaves service (R253, cause 5), or does not. -/
def bridgeTest (s : State) (a : Fin 4) (bad : Bool) : State :=
  match s.srv.loop[a].bridgeAt with
  | none => if bad then onLoop s a fun l => { l with bridgeAt := some s.time } else s
  | some t =>
    if s.time < t + 10000 then s
    else
      let s := onLoop s a fun l => { l with bridgeAt := none }
      if bad then actuatorOut s a 5 else s

/-- ACTUATOR_OUTPUT_UPDATE: the outputs, and the bellows' report of the bridge that drives them. `bridge`: it reports an open or
shorted voice coil. -/
def actuatorOutputUpdate (s : State) (a : Fin 4) (bridge : Bool) : State :=
  if ¬ blkEn s 12 then s else bridgeTest (outputUpdate s a) a bridge

/-! ## Lost servo (R180) -/

/-- LOST_SERVO: after LOST_N consecutive missed samples. -/
def lostServo (s : State) (a : Fin 4) : State :=
  let l := s.srv.loop[a]
  if l.lost ∨ l.missRun < lostN s a ∨ l.mode = .unloaded ∨ l.mode = .unloading ∨ l.mode = .loading then s
  else
    let s := { s with srv.lostCnt := countEngine s a s.srv.lostCnt }
    let bias := if s.prof.nT = 0 then 0 else interp l.bias (128 * l.x / s.prof.nT)
    let s := writeInhibit s a
    trapAct (onLoop s a fun l => { l with
      lost := true, lostRun := 0, mode := .reacquire, seek := none, softLeft := 0, onTrack := false, wrPermit := false,
      vcm := bias, ma := 0 }) a .lostServo

/-- Unload-and-reload times of an actuator within the hour before now. -/
def reloadsWithinHour (s : State) (a : Nat) : Nat :=
  (s.str.reloadAt.filter fun p => p.1 = a ∧ s.time < p.2 + 3600000000).length

/-- LOST_SERVO_TIMEOUT (R180, R253): no valid sample within 480 samples of the loss, or of leaving the ramp. -/
def lostServoTimeout (s : State) (a : Fin 4) : State :=
  let l := s.srv.loop[a]
  if l.lostRun < 480 then s
  else if l.mode = .loading then
    if l.reloads = 0 then unloadAct s 3 a else actuatorOut s a 4
  else if l.lost then
    let s := fault2 s (.actuator a) 0x41 [a, l.missRun, 1] (.lostServo a)
    let s := { s with str.reloadAt := (a.val, s.time) :: s.str.reloadAt }
    if 2 ≤ reloadsWithinHour s a then actuatorOut s a 4
    else unloadAct (onLoop s a fun l => { l with lost := false, lostRun := 0, reloads := l.reloads + 1 }) 3 a
  else s

/-! ## Engines and D5 (R183, R184) -/

/-- An engine is declared faulty: D5 takes an actuator role over at the loop's next sample, with
the state of the mirror and the outputs held, or the actuator is parked
and leaves service; a spindle engine's fault is R225's. An idle D5 is retired. -/
def damperFault (s : State) (n : Nat) : State :=
  let role := vget s.srv.serves n 6
  if role = 4 then spindleEngineFault s
  else if role < 4 then
    let s := { s with srv.serves := vset s.srv.serves n 6 }
    if s.str.dmpLeft then
      let s := writeInhibit { s with srv.serves := vset s.srv.serves 5 role, str.dmpLeft := false } role
      let k := softN s role
      spareUsed (onLoop s role fun l =>
        { vget s.srv.mirror role l with
          vcm := l.vcm, ma := l.ma, inhibit := true, wrPermit := false, softLeft := k + 1, softFrom := l.x, preload := true,
          okRun := 0 }) (.damper n) (.damper 5)
    else actuatorOut s role 1
  else if role = 7 then
    fault1 { s with srv.serves := vset s.srv.serves n 6, str.dmpLeft := false } (.damper n) 0x24 [4, n]
  else s

/-- The outputs that the mirror gives for an engine's role: coil current and microactuator voltage, or the phase voltages. -/
def mirrorOutputs (s : State) (role : Nat) : Int × Int :=
  if role = 4 then (Config.outCode s.srv.mirrorSpn.vAlpha, Config.outCode s.srv.mirrorSpn.vBeta)
  else
    let l := vget s.srv.mirror role {}
    (Config.outCode l.vcm, Config.outCode l.ma)

/-- DAMPER_MIRROR_CHECK (R183): one sample in 256 is recomputed from the mirror and compared with the engine's outputs, given as
codes; a difference above 1 LSB declares the engine faulty. -/
def damperMirrorCheck (s : State) (n : Fin 6) (c1 c2 : Int) : State :=
  if s.srv.mirrorN[n] < 256 then s
  else
    let s := { s with srv.mirrorN := s.srv.mirrorN.set n 0 }
    let m := mirrorOutputs s s.srv.serves[n]
    if 1 < (m.1 - c1).natAbs ∨ 1 < (m.2 - c2).natAbs then damperFault s n else s

/-! ## Accelerometers (R176, R178, R190) -/

/-- The value of a reading. -/
def accValue : AccReading → Qty
  | .value g => g | .full | .silent => 0

/-- One accelerometer's health after a reading: silent, or at full scale for 1 ms, takes it out of use. -/
def accJudge (s : State) (i : Nat) (r : AccReading) : State :=
  if vget s.srv.accOut i true then s
  else
    let since := match r with
      | .full => some ((vget s.srv.accFull i none).getD s.time)
      | _ => none
    let bad := match r, since with
      | .silent, _ => true
      | .full, some t => decide (t + 1000 ≤ s.time)
      | _, _ => false
    let s := { s with srv.accFull := vset s.srv.accFull i since }
    if bad then noteHealth { s with srv.accOut := vset s.srv.accOut i true } (.accelerometer i) else s

/-- ACCELEROMETER_SAMPLE (R176): both accelerometers read, every 20 µs; readings in g, α in rad/s² with RV_BASE in metres. A seek
that does not stay below RV_THRESH no longer qualifies (R175). -/
def accelerometerSample (s : State) (r0 r1 : AccReading) : State :=
  if ¬ blkEn s 12 then s else
  let s := { s with time := s.time + 20 }
  let s := accJudge (accJudge s 0 r0) 1 r1
  let usable := accInUse s
  let a0 := accValue r0
  let a1 := accValue r1
  let shock := (usable && decide (absQ (a0 + a1) / 2 > s.prof.shockG)) || r0 = .full || r1 = .full
  let calm := r0 ≠ .full && r1 ≠ .full && decide (absQ a0 < s.prof.shockG / 2 ∧ absQ a1 < s.prof.shockG / 2)
  let s := { s with srv.calmSince := if calm then some (s.srv.calmSince.getD s.time) else none }
  let s := if usable ∧ ¬ s.srv.accCal ∧ s.prof.rvBase ≠ 0 then
      let al := 980665 / 100000 * (a0 - a1) / s.prof.rvBase
      let sq := (s.time, al * al) :: s.srv.alphaSq.filter (fun p => s.time < p.1 + 1000000)
      let rms := sqrtQ ((sq.foldl (fun t p => t + p.2) 0) / sq.length)
      { s with
        srv.alphaSq := sq, srv.alpha := (al :: s.srv.alpha).take 8, srv.rvStale := false,
        srv.rvRms := BitVec.ofNat 16 (min 0xFFFF (16 * rms).floor.toNat) }
    else { s with srv.rvStale := true }
  let s := { s with srv.loop := s.srv.loop.map fun l =>
    { l with accAgo := 0, seek := l.seek.map fun k => { k with clean := k.clean && decide (rvRmsNow s < s.prof.rvThresh) } } }
  if shock then shockDeclare s else s

/-- SHOCK_CLEAR (R178): both accelerometers below SHOCK_G ÷ 2 for 2 ms, every loaded actuator ON_TRACK. -/
def shockClear (s : State) : State :=
  match s.srv.calmSince with
  | some t =>
    if s.srv.shock ∧ t + 2000 ≤ s.time ∧ s.srv.loop.toList.all (fun l => l.mode = .unloaded ∨ l.onTrack) then
      { s with srv.shock := false }
    else s
  | none => s

/-! ## Seeks, loads and unloads -/

/-- The track target for reading a slot, or for writing it (R171): c + 1/2 + HEAD_OFS, and JOG for writing; none where the ring or
its zone is not known. -/
def trackTarget (s : State) (p : Pos) (write : Bool) : Option Qty :=
  match ringAt s p.surface p.ring with
  | none => none
  | some r => match s.media.zones[r.zone]? with
    | none => none
    | some z =>
      let h := headZone s p.surface r.zone
      let c : Qty := slotTrack r (framesPerTrack z.dz r.strength) p.slot
      some (c + 1 / 2 + ((h.headOfs + if write then h.jog else 0 : Int) : Qty) / 256)

/-- A seek begins (R173, R175), or a head switch followed by a soft start (R171). -/
def seekTo (s : State) (a surface : Nat) (target : Qty) : State :=
  let p := vget s.prof.act a {}
  onLoop (writeInhibit s a) a fun l =>
    let d := absQ (target - l.x)
    { l with
      mode := .seek, target := target, seekRef := l.x, headSw := decide (surface ≠ l.surface), surface := surface,
      seek := some ⟨d, seekTime p 1 d, 0, !s.srv.shock && decide (rvRmsNow s < s.prof.rvThresh)⟩, onTrack := false,
      wrPermit := false, okRun := 0, ma := if d > p.maStroke / 2 then 0 else l.ma, softLeft := 0, preload := false }

/-- SEEK_REQUEST (R89, R171, R173): a seek to a slot's target, for reading it or for writing it; it loses the acquisition of the
data channel. -/
def seekRequest (s : State) (a : Fin 4) (p : Pos) (write : Bool) : State :=
  let l := s.srv.loop[a]
  if l.lost ∨ ¬ (l.mode = .track ∨ l.mode = .settle ∨ l.mode = .seek) ∨ actOf p.surface ≠ a.val then s
  else match trackTarget s p write with
  | some x =>
    let s := seekTo s a p.surface x
    { s with chan.act := s.chan.act.set a { s.chan.act[a] with acquired := false } }
  | none => s

/-- HEAD_LOAD (R181, R216): only at a measured speed of 3,600 rpm or more. -/
def headLoad (s : State) (a : Fin 4) : State :=
  let l := s.srv.loop[a]
  if l.mode ≠ .unloaded ∨ s.spn.speed < 3600 ∨ ¬ spnTurning s.spn.state ∨ s.spn.bank ≠ .none ∨ s.flt.class3 ∨
      s.pwr.banking ∨ s.str.actOut[a] then s
  else onLoop s a fun l => { l with
    mode := .loading, lost := false, lostRun := 0, missRun := 0, wedge := none, inhibit := true, wrPermit := false,
    onTrack := false, parkAt := none, maSince := [] }

/-- HEAD_UNLOAD (R181): the unload that was asked for runs under back-EMF velocity control. -/
def headUnload (s : State) (a : Fin 4) : State :=
  let l := s.srv.loop[a]
  if l.unloadWhy = 0 ∨ l.mode = .unloaded ∨ l.mode = .unloading then s
  else onLoop (writeInhibit s a) a fun l => { l with
    mode := .unloading, onTrack := false, wrPermit := false, seek := none, softLeft := 0, ma := 0, lost := false }

/-- RAMP_STOP (R181): the actuator reaches the ramp stop and reports unloaded; the bellows holds PARK_I. -/
def rampStop (s : State) (a : Fin 4) : State :=
  if (s.srv.loop[a]).mode ≠ .unloading then s
  else bankProgress (onLoop s a fun l => { l with
    mode := .unloaded, parkAt := some s.time, unloadWhy := 0, vcm := s.prof.parkI, wedge := none, missRun := 0 })

/-- PARK_RELEASE (R181): PARK_I held for 50 ms; the current is removed. -/
def parkRelease (s : State) (a : Fin 4) : State :=
  match (s.srv.loop[a]).parkAt with
  | some t => onLoop (s.at (t + 50000)) a fun l => { l with parkAt := none, vcm := 0 }
  | none => s

/-! ## Gains, tables and the read-back -/

/-- Two measurements agree within a fraction of the first. -/
def agreeRel (f a b : Qty) : Bool := absQ (a - b) ≤ f * absQ a

/-- The rule of R523: the mean of two measurements that agree, the first two before either with the third. -/
def agree3 (ok : Qty → Qty → Bool) (m1 m2 m3 : Qty) : Option Qty :=
  if ok m1 m2 then some ((m1 + m2) / 2)
  else if ok m1 m3 then some ((m1 + m3) / 2)
  else if ok m2 m3 then some ((m2 + m3) / 2)
  else none

/-- An item of Table 18.5 has run: FAILED, CAL_OK and RUNS. A failed item is a class 2 fault (R524). -/
def calResult (s : State) (item : Nat) (ok : Bool) (e : Element) : State :=
  let m : BitVec 8 := 1#8 <<< item
  let failed := if ok then s.cal.failed &&& ~~~m else s.cal.failed ||| m
  let s := { s with cal.failed := failed, cal.ok := s.cal.done && decide (failed = 0), cal.runs := satInc s.cal.runs,
                    cal.running := s.cal.running &&& ~~~m }
  if ok then s else fault2 s e 0x45 [item]

/-- Cosine and sine of one eighth of a turn, as often as given. -/
def eighth (k : Nat) : Qty × Qty := turnQ ((k % 8 : Nat) / 8)

/-- The gain that a measurement's response shows (R170): a sinusoid of MA_STROKE ÷ 8, by the gain in use, was injected at one
eighth of the sample rate for 256 samples; the amplitude of the least-squares fit is set against its voltage. -/
def maFit (p : ProfAct) (l : Loop) (resp : List Qty) : Qty :=
  let sums := resp.zipIdx.foldl (fun (t : Qty × Qty) e => (t.1 + e.1 * (eighth e.2).1, t.2 + e.1 * (eighth e.2).2)) (0, 0)
  let amp := sqrtQ (sums.1 * sums.1 + sums.2 * sums.2) / 128
  if p.maStroke = 0 then 0 else amp * 8 / p.maStroke * (let g := maGainOf p l; if g = 0 then Config.maNominal p.law else g)

/-- A measurement of the active head's gain is due (R170): the first since the head load, or after 10 minutes of track following. -/
def maDue (l : Loop) : Bool :=
  l.mode = .track && (decide (l.surface ∉ l.maSince) || decide (600 ≤ lookupD l.maTrack l.surface 0))

/-- MICROACTUATOR_GAIN_MEASURE (R170, R523): at each head load and every 10 minutes of track following; the responses of two
measurements, and of a third that is used where those do not agree. -/
def microactuatorGainMeasure (s : State) (a : Fin 4) (m1 m2 m3 : List Qty) : State :=
  let l := s.srv.loop[a]
  if ¬ maDue l then s
  else
    let fit := maFit s.prof.act[a] l
    let g := agree3 (agreeRel (2 / 100)) (fit m1) (fit m2) (fit m3)
    let s := onLoop s a fun l => { l with
      maGain := assocSet l.maGain l.surface g, lastMa := s.time, maTrack := assocSet l.maTrack l.surface 0,
      maSince := if l.surface ∈ l.maSince then l.maSince else l.surface :: l.maSince }
    -- with CAL_REF SIGNAL the AFE gain is an item of the first load too (Table 18.5)
    let s := if s.prof.calRef ∨ s.cal.firstLoad[a] then s else calResult s 1 true .none
    let s := { s with cal.firstLoad := s.cal.firstLoad.set a true }
    let all := (List.range 4).all fun i => vget s.cal.firstLoad i false || vget s.str.actOut i false
    let s := { s with cal.done := s.cal.done || all }
    let s := calResult s 7 g.isSome (.head l.surface)
    -- a failure is recorded in the health log and the ash log (R170)
    if g.isSome then s else noteHealth s (.microactuator l.surface)

/-- BIAS_TABLE_SWITCH (R167): at a sample boundary in track mode, at least 60 s after the last switch. -/
def biasTableSwitch (s : State) (a : Fin 4) : State :=
  let l := s.srv.loop[a]
  if l.mode ≠ .track then s
  else onLoop (s.at (l.lastSwitch + 60000000)) a fun l => { l with
    lastSwitch := max s.time (l.lastSwitch + 60000000), bias := l.biasBg, fric := l.fricBg }

end Sys2Proof.Machine
end

