-- ==== Sys2Proof/Machine/Sequencer.lean ====
section
/-! DEFINITION. Media sequencers and microcode (chapter 11). -/
namespace Sys2Proof.Machine
open Sys2Proof

/-! ## The control store (R316) -/

/-- The microword at the present address. -/
def microAt (q : Sqr) : BitVec 24 := lookupD q.store.micro q.pc.toNat 0
/-- SEQ of a microword (Table 11.1). -/
def mwSeq (w : BitVec 24) : Nat := bitsOf w 23 21
/-- The nanoword a microword names. -/
def nanoOf (q : Sqr) (w : BitVec 24) : BitVec 128 := lookupD q.store.nano (bitsOf w 20 10) 0
/-- IMM as an offset: two's complement of 10 bits, added to the microword's own address (log entry 18). -/
def branchTo (pc : BitVec 14) (w : BitVec 24) : BitVec 14 := pc + (BitVec.ofNat 10 (bitsOf w 9 0)).signExtend 14

/-- The save record of a sequencer's micro-state (R321). -/
def saveRecord (q : Sqr) : MicroState := ⟨q.pc, q.resume, q.stack, q.loops, q.regs, q.flags⟩

/-- A nanoword executed: register file, loop counter load, checkpoint (R316, R322); the watchdog counts (R332). -/
def execNano (q : Sqr) (nw : BitVec 128) : Sqr :=
  let (regs, flags) := Config.nanoData nw q.regs q.flags
  let q := { q with
    loops := if nw.getLsbD 106 then vset q.loops (bitsOf nw 105 104) (Config.nanoLoad nw q.regs) else q.loops,
    regs := regs, flags := flags, wdog := q.wdog + 1 }
  if nw.getLsbD 107 then
    let q := { q with resume := q.pc, wdog := 0 }
    { q with save := some (saveRecord q) }
  else q

/-- A condition of Table 11.4 for the actuator a sequencer serves. -/
def condTrue (s : State) (q : Sqr) (c : SeqCond) : Bool :=
  let a := q.serves
  let l := vget s.srv.loop a {}
  let w := vget s.wrt.act a {}
  let r := (vget s.chan.act a {}).read
  match c with
  | .wedge => decide (q.waitFrom < l.wedges)
  | .frameAt => r.isSome || w.frame.isSome
  | .located => match r with | some j => j.located | none => true
  | .storeRoom => decide (storeUsed s a < 8)
  | .leafHeld => !w.buffer.isEmpty
  | .onTrack => l.onTrack
  | .wrPermit => l.wrPermit && windowOpen s
  | .headReady => decide (w.paReady ≤ s.time)
  | .release => match (q.routine.bind (·.req)).bind (reqBy s) with
    | some x => match x.leaves.find? fun y => y.phase = .waiting with
      | some y => decide (y.idx < x.released + 64)
      | none => true
    | none => true
  | .shockClear => !s.srv.shock
  | .internal code => Config.internalCond code q.flags

/-- A condition as a step reads it: false where a timeout has made it so (R319). -/
def readCond (s : State) (q : Sqr) (nw : BitVec 128) : Bool :=
  !q.readFalse && condTrue s q (Config.condCode (BitVec.ofNat 6 (bitsOf nw 113 108)))

/-- STORE_CE counts a corrected word, which is rewritten from the master copy (R318). -/
def fetchCe (s : State) (n : Nat) (ce : Bool) : State :=
  if ce then onSq s n fun q => { q with storeCe := satInc q.storeCe } else s

/-! ## Faults and SQ4 (R332 to R334) -/

/-- A leaf of a request put back to be read on a later revolution. -/
def leafWaits (s : State) (req : ReqId) (idx : Nat) : State :=
  { s with reqs := s.reqs.map fun r => if r.id = req then
      { r with leaves := r.leaves.map fun l => if l.idx = idx ∧ l.phase = .reading then { l with phase := .waiting } else l } else r }

/-- A frame being read is discarded and read on a later revolution, a revolution slip (R178, R322). -/
def discardRead (s : State) (a : Nat) : State :=
  match (vget s.chan.act a {}).read with
  | some j =>
    let s := { s with chan.act := vmod s.chan.act a fun c => { c with read := none } }
    leafWaits { s with wrt.act := vmod s.wrt.act a fun w => { w with slips := satInc w.slips } } j.req j.leafIdx
  | none => s

/-- A sequencer is declared faulty: SQ4 takes its place from its last save record, as for a checkpoint cause, so that a frame being
read is discarded; or its actuator leaves service. A cause whose handler ran is held again on SQ4. -/
def seqFault (s : State) (n : Nat) : State :=
  let q := sqr s n
  if q.serves = 6 then s
  else if q.serves = 7 then
    fault1 (onSq { s with str.seqLeft := false } n fun q => { q with serves := 6, mode := .quiet }) (.sequencer n) 0x24 [3, n]
  else
    let a := q.serves
    let s := discardRead (frameAbort s a) a
    let s := onSq s n fun q => { q with serves := 6, mode := .quiet, routine := none, hold := false, handler := none }
    if s.str.seqLeft ∧ (sqr s 4).serves = 7 then
      let s := onSq { s with str.seqLeft := false } 4 fun r =>
        let r := { r with serves := a, routine := q.routine, start := q.start, startedAt := q.startedAt, save := q.save, hold := q.hold,
                           trapPend := match q.handler with | some _ => q.trapPend ||| (1#8 <<< q.lastCause.toNat) | none => q.trapPend }
        match q.save, q.routine with
        | some m, some _ => { r with pc := m.resume, resume := m.resume, stack := m.stack, loops := m.loops, regs := m.regs,
                                     flags := m.flags, mode := .running, wdog := 0 }
        | none, some t => { r with pc := t.entry, resume := t.entry, mode := .running, wdog := 0 }
        | _, none => { r with mode := .quiet }
      spareUsed s (.sequencer n) (.sequencer 4)
    else actuatorOut s a 2

/-! ## Routines (R315, R325) and shares (R34) -/

/-- A routine begins: the table pointers are taken, the entry point fetched. -/
def beginRoutine (s : State) (n : Nat) (t : RoutineStart) : State :=
  onSq s n fun q => { q with routine := some t, start := none, mode := .running, pc := t.entry, resume := t.entry,
                             stack := [], wdog := 0, readFalse := false, startedAt := s.time }

/-- Media time of an activity on an actuator over the last second, in µs, a routine in progress included (R34). -/
def bgUse (s : State) (a activity : Nat) : Nat :=
  let run := s.seq.sq.toList.filterMap fun q =>
    if q.serves = a ∧ q.routine.any (fun t => decide (t.activity = activity)) then some (a * 8 + activity, q.startedAt, s.time) else none
  ((run ++ s.seq.bgTime).map fun p => if p.1 = a * 8 + activity then p.2.2 - max p.2.1 (s.time - 1000000) else 0).foldl (· + ·) 0

/-- The media time of a background routine that ends, at its END or by a micro-trap, is noted. -/
def bgEnded (s : State) (n : Nat) : State :=
  let q := sqr s n
  match q.routine with
  | some t =>
    if t.activity = 0 then s
    else { s with seq.bgTime := (q.serves * 8 + t.activity, q.startedAt, s.time) :: s.seq.bgTime.filter fun p => s.time < p.2.2 + 1000000 }
  | none => s

/-- A background routine is held back: Q above 0, a host routine waiting on the actuator, its share used up (R34). -/
def shareHeld (s : State) (a : Nat) (t : RoutineStart) : Bool :=
  decide (t.activity ≠ 0 ∧ s.spn.draftQ ≠ 0) && s.seq.kept.any (fun p => p.1 = a ∧ p.2.activity = 0)
    && decide (bgUse s a t.activity * 100 ≥ actShare s t.activity * 1000000)

/-- No routine begins: SEQ is not enabled, or a firmware activation has recalled the routines and its new stores are still to be
loaded (R370). -/
def seqPaused (s : State) : Bool :=
  !blkEn s 11 || match s.fw.act with
    | some (.running _, _) => true
    | _ => false

/-- ROUTINE_START (R315): a routine posted to the sequencer that serves an actuator. A full start register leaves it
queued in the hearth. -/
def routineStart (s : State) (n : Fin 5) (t : RoutineStart) : State :=
  let q := sqr s n
  if q.serves > 3 then s
  else if q.start.isSome ∨ shareHeld s q.serves t then { s with seq.kept := s.seq.kept ++ [(q.serves, t)] }
  else if q.routine.isNone ∧ ¬ q.hold ∧ q.mode = .quiet ∧ ¬ seqPaused s then beginRoutine s n t
  else onSq s n fun q => { q with start := some t }

/-- The starts that wait for a sequencer: the one posted, then those that the hearth keeps queued (R315, R323). -/
def startsOf (s : State) (n : Nat) : List RoutineStart :=
  (sqr s n).start.toList ++ (s.seq.kept.filter fun p => p.1 = (sqr s n).serves).map (·.2)

/-- The next start begins: the first that waits and is not held back by its share; the hearth then posts the next one. -/
def startNext (s : State) (n : Nat) : State :=
  let a := (sqr s n).serves
  let c := startsOf s n
  match c.find? fun t => ¬ shareHeld s a t with
  | none => s
  | some t =>
    let rest := c.erase t
    onSq (beginRoutine { s with seq.kept := (s.seq.kept.filter fun p => p.1 ≠ a) ++ rest.tail.map fun r => (a, r) } n t) n fun q =>
      { q with start := rest.head? }

/-- A sequencer at a quiet point holds its next start for a switch or for a patch; else the next start begins. -/
def holdOrStart (s : State) (n : Nat) : State :=
  let hold := (s.seq.switchReq && decide ((sqr s n).serves < 4)) || patchTurn s n
  let s := onSq s n fun q => { q with hold := hold }
  if hold ∨ seqPaused s then s else startNext s n

/-- A quiet point is reached (R325). -/
def quietPoint (s : State) (n : Nat) : State :=
  holdOrStart (onSq s n fun q => { q with routine := none, mode := .quiet, handler := none }) n

/-- Every sequencer at a quiet point holds or starts, as a switch, a patch or a firmware activation that ended leaves it. -/
def quietAll (s : State) : State :=
  (List.range 5).foldl (fun s n => if (sqr s n).mode = .quiet ∧ (sqr s n).routine.isNone then holdOrStart s n else s) s

/-! ## Microwords -/

/-- The sequencer runs the microword with a given SEQ: not waiting, not in a handler. -/
def runsOp (s : State) (n op : Nat) : Bool :=
  let q := sqr s n
  q.mode = .running && q.routine.isSome && mwSeq (microAt q) = op

/-- NEXT: the nanoword, then the next microword. -/
def mwNext (s : State) (n : Fin 5) (ce : Bool) : State :=
  if ¬ runsOp s n 0 then s
  else onSq (fetchCe s n ce) n fun q => { execNano q (nanoOf q (microAt q)) with pc := q.pc + 1, readFalse := false }

/-- WAIT (R319): holds until its condition is true. -/
def mwWait (s : State) (n : Fin 5) (ce : Bool) : State :=
  let q := sqr s n
  let code := Config.condCode (BitVec.ofNat 6 (bitsOf (microAt q) 9 4))
  if runsOp s n 1 then
    let s := fetchCe s n ce
    onSq s n fun q =>
      let q := { execNano q (nanoOf q (microAt q)) with wdog := 0, waitFrom := (vget s.srv.loop q.serves {}).wedges, readFalse := false }
      if condTrue s q code then { q with pc := q.pc + 1 } else { q with mode := .waiting }
  else if q.mode = .waiting ∧ condTrue s q code then
    onSq s n fun q => { q with pc := q.pc + 1, mode := .running }
  else s

/-- WAIT_TIMEOUT (R319): 2^(t − 1) wedges have passed; the condition reads false at the next step. -/
def waitTimeout (s : State) (n : Fin 5) : State :=
  let q := sqr s n
  let t := bitsOf (microAt q) 3 0
  if q.mode = .waiting ∧ t ≠ 0 ∧ q.waitFrom + 2 ^ (t - 1) ≤ (vget s.srv.loop q.serves {}).wedges then
    onSq s n fun q => { q with pc := q.pc + 1, mode := .running, readFalse := true }
  else s

/-- BRT and BRF: the nanoword, then a branch by IMM when its condition reads as wanted. -/
def mwBranch (s : State) (n : Fin 5) (ce want : Bool) : State :=
  onSq (fetchCe s n ce) n fun q =>
    let w := microAt q
    let nw := nanoOf q w
    { execNano q nw with pc := if readCond s q nw = want then branchTo q.pc w else q.pc + 1, readFalse := false }

/-- BRT. -/
def mwBrt (s : State) (n : Fin 5) (ce : Bool) : State := if runsOp s n 2 then mwBranch s n ce true else s
/-- BRF. -/
def mwBrf (s : State) (n : Fin 5) (ce : Bool) : State := if runsOp s n 3 then mwBranch s n ce false else s

/-- CALL: the return address pushed, then TARGET; a full stack of 8 declares the sequencer faulty (R317). -/
def mwCall (s : State) (n : Fin 5) (ce : Bool) : State :=
  if ¬ runsOp s n 4 then s
  else if 8 ≤ (sqr s n).stack.length then seqFault (fetchCe s n ce) n
  else onSq (fetchCe s n ce) n fun q =>
    let nw := nanoOf q (microAt q)
    { execNano q nw with stack := (q.pc + 1) :: q.stack, pc := BitVec.ofNat 14 (bitsOf nw 127 114), readFalse := false }

/-- RET: to the address on top of the stack; an empty stack declares the sequencer faulty. -/
def mwRet (s : State) (n : Fin 5) (ce : Bool) : State :=
  if ¬ runsOp s n 5 then s
  else match (sqr s n).stack with
    | [] => seqFault (fetchCe s n ce) n
    | r :: rs => onSq (fetchCe s n ce) n fun q =>
        { execNano q (nanoOf q (microAt q)) with stack := rs, pc := r, readFalse := false }

/-- LOOP: the counter that the nanoword names decremented; a branch by IMM while it is not zero. -/
def mwLoop (s : State) (n : Fin 5) (ce : Bool) : State :=
  if ¬ runsOp s n 6 then s
  else onSq (fetchCe s n ce) n fun q =>
    let w := microAt q
    let nw := nanoOf q w
    let k := bitsOf nw 105 104
    let q' := execNano q nw
    let c := vget q'.loops k 0 - 1
    { q' with loops := vset q'.loops k c, pc := if c ≠ 0 then branchTo q.pc w else q.pc + 1, readFalse := false }

/-- END (R315): the routine ends, a routine-end event goes to the hearth, the sequencer is at a quiet point. -/
def mwEnd (s : State) (n : Fin 5) (ce : Bool) : State :=
  if ¬ runsOp s n 7 then s
  else
    let s := fetchCe s n ce
    let s := onSq (bgEnded s n) n fun q => { execNano q (nanoOf q (microAt q)) with ends := q.ends + 1, wdog := 0 }
    quietPoint s n

/-- CONTROL_STORE_RELOAD (R318): a word with a double-bit error is reloaded from the master copy; a second one in the
same word within 1 s declares the sequencer faulty. -/
def controlStoreReload (s : State) (n : Fin 5) (nano : Bool) (addr : Nat) : State :=
  let q := sqr s n
  let again := q.dbl.any fun d => d.1 = nano ∧ d.2.1 = addr ∧ s.time < d.2.2 + 1000000
  if again then seqFault s n
  else onSq s n fun q => { q with
    dbl := (nano, addr, s.time) :: q.dbl.filter (fun d => s.time < d.2.2 + 1000000),
    store := if nano then { q.store with nano := assocSet q.store.nano addr (lookupD s.seq.master.nano addr 0) }
             else { q.store with micro := assocSet q.store.micro addr (lookupD s.seq.master.micro addr 0) } }

/-- SEQ_WATCHDOG (R332): WDOG × 1,024 microwords with no WAIT, checkpoint or END. -/
def seqWatchdog (s : State) (n : Fin 5) : State :=
  if bitsOf s.reg.ck.seqCfg 15 0 * 1024 ≤ (sqr s n).wdog ∧ (sqr s n).mode = .running then seqFault s n else s

/-- SEQUENCER_KAT (R332): the known-answer routine, hourly while idle. -/
def sequencerKat (s : State) (n : Fin 5) (pass : Bool) : State :=
  if (sqr s n).routine.isSome ∨ (sqr s n).mode ≠ .quiet ∨ pass then s else seqFault s n

/-! ## Micro-traps (R321 to R324) -/

/-- The cause of a priority. -/
def trapCause : Nat → TrapCause
  | 0 => .banking | 1 => .recall | 2 => .abandon | 3 => .lostServo | 4 => .shock | 5 => .preamp | 6 => .writeAbort
  | _ => .pause

/-- The highest-priority cause held. -/
def trapTop (p : BitVec 8) : Option Nat := (List.range 8).find? fun i => p.getLsbD i

/-- The save record after a trap: the micro-state as it stood before the first handler. Once a cause that resumes at the checkpoint
has been taken, a Pause beside it resumes there too (R322). -/
def trapSave (q : Sqr) (c : TrapCause) : Option MicroState :=
  if q.mode ≠ .trap then some (saveRecord q)
  else if c = .pause ∧ q.lastCause = 7 then q.save
  else q.save.map fun m => { m with pc := m.resume }

/-- MICRO_TRAP (R321): the save record written, the handler of the highest-priority cause begun. A Recall keeps the
routine to be issued again, and a frame that it was writing is written again in the same slot (R323; log entry 106); an
Abandon ends it (R122). -/
def microTrap (s : State) (n : Fin 5) : State :=
  let q := sqr s n
  match q.handler, trapTop q.trapPend with
  | none, some i =>
    let c := trapCause i
    let s := if c = .pause then s else discardRead s q.serves
    let s := if c = .recall ∨ c = .abandon then bgEnded s n else s
    let s := match c, q.routine with
      | .recall, some t => { s with seq.kept := s.seq.kept ++ [(q.serves, t)] }
      | _, _ => s
    let s := onSq s n fun q => { q with
      save := trapSave q c,
      mode := .trap, handler := some c, trapPend := q.trapPend &&& ~~~(1#8 <<< i), lastCause := BitVec.ofNat 3 i,
      traps := satInc q.traps, readFalse := false,
      routine := if c = .recall ∨ c = .abandon then none else q.routine }
    if c = .recall then frameAbort s q.serves else s
  | _, _ => s

/-- The resume condition of a cause (Table 11.5). -/
def mayResume (s : State) (a : Nat) (c : TrapCause) : Bool :=
  let l := vget s.srv.loop a {}
  match c with
  | .banking => !s.pwr.banking && !s.pwr.warn
  | .recall | .abandon | .writeAbort | .pause => true
  | .lostServo => !l.lost && l.softLeft = 0 && l.mode = .track
  | .shock => !s.srv.shock
  | .preamp => (vget s.wrt.act a {}).holdUntil.isNone

/-- TRAP_RESUME (R321, R322): causes still held are taken first; then the routine goes on at its checkpoint, or, after a
Pause, at the interrupted microword. -/
def trapResume (s : State) (n : Fin 5) : State :=
  let q := sqr s n
  match q.handler with
  | none => s
  | some c =>
    if ¬ mayResume s q.serves c then s
    else if q.trapPend ≠ 0 then onSq s n fun q => { q with handler := none }
    else match q.routine, q.save with
      | some _, some m =>
        onSq s n fun q => { q with
          handler := none, mode := .running, pc := if c = .pause then m.pc else m.resume, resume := m.resume,
          stack := m.stack, loops := m.loops, regs := m.regs, flags := m.flags, wdog := 0 }
      | _, _ => quietPoint s n

/-! ## The table switch (R325 to R327) -/

/-- TABLE_SWITCH_REQUEST: SWITCH_REQ raised; sequencers with no routine hold from now on. -/
def tableSwitchRequest (s : State) : State :=
  if s.pwr.banking then { s with pwr.switchRedo := true }
  else seqHolds { s with seq.switchReq := true }

/-- TABLE_SWITCH: every in-service sequencer holds; the pointers change in one HOB clock, HOLD clears and the held starts begin. -/
def tableSwitch (s : State) : State :=
  if s.seq.switchReq ∧ s.seq.sq.toList.all (fun q => 4 ≤ q.serves ∨ q.hold) then
    quietAll { s with seq.switchReq := false, seq.ringMapCopy := !s.seq.ringMapCopy, seq.switches := s.seq.switches + 1 }
  else s

/-! ## Patches (R328 to R331) -/

/-- The CRC-32C over both stores in address order, micro store first (R338); each word in its bytes, little-endian. -/
def storeCrc (st : Store) : Word :=
  crc32c ((List.range 16384).flatMap (fun i => leBytes 3 (lookupD st.micro i 0).toNat) ++
    (List.range 2048).flatMap fun i => leBytes 16 (lookupD st.nano i 0).toNat)

/-- A patch that writes a word of the banking region (R331). -/
def patchBanking (p : Patch) : Bool := p.micro.any (fun w => 15360 ≤ w.1) || p.nano.any (fun w => 1920 ≤ w.1)

/-- A spare substitution is in progress: a spare lane that takes a reader's samples over is on its way (R72, R328). -/
def substituting (s : State) : Bool :=
  s.chan.spare.toList.any fun p => p.next.isSome || (p.role == .substitute && p.step != .steady && !p.back)

/-- The sequencers whose turn the patch, or its undoing, has come to hold at their quiet point (R329). -/
def patchHolds (s : State) : State :=
  (List.range 5).foldl (fun s n =>
    if patchTurn s n ∧ (sqr s n).mode = .quiet ∧ (sqr s n).routine.isNone then onSq s n fun q => { q with hold := true } else s) s

/-- MICROCODE_PATCH (R328, R330, R331): checked and accepted into the master copy; the first sequencer to take it holds at its
quiet point. A patch offered while another is applied is refused as 05h (log entry 106). -/
def microcodePatch (s : State) (image : List Byte) : State :=
  let refuse := fun r => { s with seq.patchReason := r }
  match Config.parsePatch image with
  | none => refuse 9
  | some p =>
    if ¬ Config.imageVerifies image ∨ p.base ≠ s.seq.masterBase then refuse 9
    else if s.pwr.banking ∨ substituting s ∨ s.seq.patching.isSome then refuse 5
    else if patchBanking p then refuse 0x0A
    else
      let s := measExtend s 2 (shake256 image 64)
      patchHolds { s with
        seq.patchReason := 0, seq.prevMaster := some s.seq.master, seq.prevPatch := s.seq.masterPatch,
        seq.master := patchStore s.seq.master p, seq.masterPatch := p.level, seq.patching := some p,
        seq.undoing := false, seq.patchCut := false, seq.sq := s.seq.sq.map fun q => { q with partly := false } }

/-- The patch is over: dropped once no sequencer is left to patch or to restore. -/
def patchEnd (s : State) : State :=
  if s.seq.undoing then
    if s.seq.sq.toList.all (fun q => !q.partly) then
      { s with seq.patching := none, seq.undoing := false, seq.prevMaster := none } else s
  else if (patchOrder s).all (fun n => (sqr s n).partly) then
    { s with seq.patching := none, seq.prevMaster := none, seq.sq := s.seq.sq.map fun q => { q with partly := false } }
  else s

/-- The patch is abandoned on every sequencer (R329, R331): the master copy returns to the previous level. -/
def patchAbandon (s : State) : State :=
  match s.seq.prevMaster with
  | some m => patchHolds (patchEnd { s with
      seq.master := m, seq.masterPatch := s.seq.prevPatch, seq.undoing := true, seq.patchCut := false })
  | none => s

/-- PATCH_APPLY_SEQUENCER (R329): at a sequencer's quiet point, its words are written and its store CRC checked; or, when
the patch is abandoned, its store is restored from the previous level. -/
def patchApply (s : State) (n : Fin 5) : State :=
  let q := sqr s n
  match s.seq.patching, s.seq.prevMaster with
  | some p, some old =>
    if q.routine.isSome ∨ q.mode ≠ .quiet ∨ s.pwr.banking ∨ s.seq.patchCut ∨ ¬ patchTurn s n then s
    else if s.seq.undoing then
      quietAll (patchEnd (onSq s n fun q => { q with store := old, patch := s.seq.prevPatch, crc := storeCrc old, partly := false }))
    else
      let st := patchStore q.store p
      let crc := storeCrc st
      let s := onSq s n fun q => { q with store := st, crc := crc, patch := p.level, partly := true }
      quietAll (if crc = p.crc then patchEnd s else patchAbandon s)
  | _, _ => s

end Sys2Proof.Machine
end

