-- ==== Sys2Proof/Machine/Corner.lean ====
section
/-! DEFINITION. Cornerstone copies (R62 to R64, R254). -/
namespace Sys2Proof.Machine
open Sys2Proof

/-! ## Cornerstone copies (R62 to R64) -/

/-- A section of a cornerstone record. -/
def cornerSection (ty : Nat) (body : List Byte) : List Byte :=
  leBytes 2 ty ++ zeroBytes 2 ++ leBytes 4 body.length ++ padTo ((body.length + 7) / 8 * 8) body

/-- Frames per track of a zone at a strength. -/
def zoneFrames (s : State) (zone strength : Nat) : Nat :=
  match s.media.zones[zone]? with | some z => framesPerTrack z.dz strength | none => 1

/-- Section 0001h. -/
def geometryBody (s : State) : List Byte :=
  let zs := s.media.zones
  leBytes 4 s.media.surfaces.toNat ++ leBytes 4 s.media.nT ++ leBytes 2 480 ++ leBytes 2 4096 ++ leBytes 2 zs.length ++
    zeroBytes 2 ++ zs.zipIdx.flatMap fun (z, i) =>
      let last := match zs[i + 1]? with | some y => y.firstTrack | none => s.media.nT
      leBytes 4 z.firstTrack ++ leBytes 4 (last - z.firstTrack) ++ leBytes 4 z.dz ++ leBytes 2 z.sz ++ zeroBytes 2

/-- The code of a ring role (Table 3.7). -/
def roleCode : RingRole → Nat
  | .data => 1 | .index => 2 | .ember => 3 | .cornerstone => 4 | .retired => 5

/-- Section 0002h for a surface. -/
def ringsBody (s : State) (surface : Nat) : List Byte :=
  let rs := sortBy (fun a b => a.1.2 ≤ b.1.2) (s.str.rings.filter fun r => r.1.1 = surface)
  leBytes 2 rs.length ++ zeroBytes 2 ++ rs.flatMap fun r =>
    leBytes 4 r.2.firstTrack ++ leBytes 2 (ringSpan (zoneFrames s r.2.zone r.2.strength)) ++ leBytes 1 (roleCode r.2.role) ++
      leBytes 1 r.2.strength ++ leBytes 4 r.2.zone ++ zeroBytes 4

/-- Section 0003h. -/
def codeBody : List Byte :=
  leBytes 2 512 ++ leBytes 2 514 ++ ((List.range 8).flatMap fun n =>
    leBytes 2 (codeParams n).1 ++ leBytes 2 (codeParams n).2 ++ zeroBytes 4 ++ codeFingerprint n) ++
    leBytes 1 16 ++ (codeMessage 0).take 16

/-- Section 0004h. -/
def stripeBody (s : State) : List Byte :=
  leBytes 2 0x11D ++ leBytes 1 1 ++ leBytes 1 s.media.dataK ++ leBytes 1 s.media.dataM ++ leBytes 1 s.str.idxK ++
    leBytes 1 s.str.idxM ++ zeroBytes 1

/-- Section 0005h: the index groups that are not freed. -/
def indexBody (s : State) : List Byte :=
  let gs := s.str.groups.filter fun g => g.role = .index ∧ g.state ≠ .freed
  leBytes 2 1 ++ leBytes 2 gs.length ++ gs.flatMap fun g =>
    leBytes 4 g.id ++ leBytes 1 g.k ++ leBytes 1 g.m ++ zeroBytes 2 ++
      g.members.flatMap fun mr => leBytes 1 mr.1 ++ zeroBytes 1 ++ leBytes 2 mr.2

/-- The record of a surface and copy, with LEAVES and LENGTH given. -/
def cornerBody (s : State) (surface copy leaves len wseq : Nat) : List Byte :=
  [0x4A, 0x4F, 0x56, 0x45, 0x4F, 0x58, 0x2D, 0x43] ++ leBytes 2 1 ++ leBytes 1 surface ++ leBytes 1 copy ++ leBytes 1 leaves ++
    zeroBytes 3 ++ leBytes 4 len ++ s.sec.serial ++ leBytes 8 wseq ++ leBytes 4 s.media.hours ++
    cornerSection 1 (geometryBody s) ++ cornerSection 2 (ringsBody s surface) ++ cornerSection 3 codeBody ++
    cornerSection 4 (stripeBody s) ++ cornerSection 5 (indexBody s)

/-- The digest and signature sections behind a record. -/
def cornerSeal (s : State) (b : List Byte) : List Byte :=
  let d := shake256 b 64
  let sig := falconSig s d
  b ++ cornerSection 0xFFFF d ++
    cornerSection 0xFFFE (leBytes 2 1 ++ leBytes 2 sig.length ++ shake256 s.sec.identityPub 32 ++ sig)

/-- A cornerstone record: LENGTH and LEAVES do not change its length. -/
def cornerRecord (s : State) (surface copy wseq : Nat) : List Byte :=
  let len := (cornerSeal s (cornerBody s surface copy 0 0 wseq)).length
  cornerSeal s (cornerBody s surface copy ((len + 32767) / 32768) len wseq)

/-- The ring that holds a copy of a surface's record. -/
def cornerRing (s : State) (surface copy : Nat) : Option (Nat × Ring) :=
  ((sortBy (fun a b => a.2.firstTrack ≤ b.2.firstTrack)
    (s.str.rings.filter fun r => r.1.1 = surface ∧ r.2.role = .cornerstone))[copy]?).map fun r => (r.1.2, r.2)

/-- The frames of one copy queued, with a higher WSEQ. -/
def cornerWrite (s : State) (surface copy : Nat) : State :=
  match cornerRing s surface copy with
  | none => s
  | some (ring, r) =>
    let (w, s) := nextWseq s
    let jobs := (chunksOf (cornerRecord s surface copy w).length (cornerRecord s surface copy w)).zipIdx.map fun (c, i) =>
      let coded := codedRegion 0 0 c.length (32768 * i) 0 s.hours c
      (⟨⟨surface, ring, i⟩, sealLeaf (mkLeaf .cornerstone r.strength 0 0 i ⟨surface, ring, i⟩ .data 0 w coded), none, 0⟩ : FrameJob)
    { s with
      wrt.queue := s.wrt.queue ++ jobs, freeCtr := s.freeCtr + 1 }
where
  /-- A byte string cut into leaf payloads; the fuel is its length. -/
  chunksOf : Nat → List Byte → List (List Byte)
    | 0, _ => []
    | _, [] => []
    | n + 1, l => l.take 32768 :: chunksOf n (l.drop 32768)

/-- A cornerstone frame of a surface is queued, held, in progress or awaits its verify. -/
def cornerBusy (s : State) (surface : Nat) : Bool :=
  (jobsOn s surface ++ verifiesOn s surface).any fun j => j.leaf.kind = .cornerstone

/-- The leaves of a copy as the media hold them, slot 0 up to the last that its head names; none where one does not decode or
fails a CRC. -/
def cornerLeaves (s : State) (surface copy : Nat) : Option (List Leaf) :=
  match cornerRing s surface copy with
  | none => none
  | some (ring, _) =>
    let at_ := fun (i : Nat) => (mediaAt s ⟨surface, ring, i⟩).bind fun f =>
      if f.whole && leafPasses ⟨surface, ring, i⟩ [.cornerstone] none f.leaf then some f.leaf else none
    match at_ 0 with
    | none => none
    | some l => (List.range (leNat (slice (payloadOf l.coded) 12 1))).mapM at_

/-- The digest section of a record: where it starts, and its 64 bytes. The fuel bounds the sections walked. -/
def digestAt (b : List Byte) : Nat → Nat → Option (Nat × List Byte)
  | 0, _ => none
  | n + 1, o =>
    let len := leNat (slice b (o + 4) 4)
    if leNat (slice b o 2) = 0xFFFF then some (o, slice b (o + 8) 64) else digestAt b n (o + 8 + (len + 7) / 8 * 8)

/-- The record of a valid copy (R64): every leaf decodes and passes both CRCs, and the digest matches. -/
def cornerRead (s : State) (surface copy : Nat) : Option (List Byte) :=
  (cornerLeaves s surface copy).bind fun ls =>
    let b := ls.flatMap fun l => payloadOf l.coded
    let b := b.take (leNat (slice b 16 4))
    match digestAt b 8 48 with
    | some (o, d) => if shake256 (b.take o) 64 = d then some b else none
    | none => none

/-- The current copy of a surface: of the valid ones, the one with the highest WSEQ (R64). -/
def cornerCurrent (s : State) (surface : Nat) : Option Nat :=
  let seq := fun c => (cornerRead s surface c).map fun b => leNat (slice b 36 8)
  let cs := (List.range 3).filter fun c => (seq c).isSome
  cs.find? fun c => cs.all fun d => decide ((seq d).getD 0 ≤ (seq c).getD 0)

/-- The copy of a surface to be written next: one that is not valid before any that is. -/
def cornerNext (s : State) (surface : Nat) : Option (Nat × Nat) :=
  let cs := s.str.corner.filter fun c => c.1 = surface
  (cs.find? fun c => (cornerRead s surface c.2).isNone) <|> cs.head?

/-- The next copy of each surface begins once the one before it is written, so that two valid copies always remain (R254). -/
def cornerPump (s : State) : State :=
  (List.range 32).foldl (fun s f =>
    if cornerBusy s f then s
    else match cornerNext s f with
      | some c => cornerWrite { s with str.corner := s.str.corner.erase c } c.1 c.2
      | none => s) s

/-- Copies of surfaces to be rewritten. -/
def cornerRewrite (s : State) (surfaces : List Nat) : State :=
  let cs := surfaces.flatMap fun f => (List.range 3).map fun c => (f, c)
  cornerPump { s with str.corner := s.str.corner ++ cs.filter (· ∉ s.str.corner) }

/-- Surfaces that carry cornerstone copies and can be written. -/
def cornerSurfaces (s : State) : List Nat := (List.range 32).filter fun f => headWrites s f

end Sys2Proof.Machine
end

