-- ==== Sys2Proof/Machine/Lanes.lean ====
section
/-! DEFINITION. Lanes, the crossbar, the analog front end and the ADC slices (R70 to R79). -/
namespace Sys2Proof.Machine
open Sys2Proof

/-- An actuator's read path changed. -/
def onChan (s : State) (a : Nat) (f : ChanAct → ChanAct) : State := { s with chan.act := vmod s.chan.act a f }

/-! ## Lanes and the crossbar (R70 to R76) -/

/-- A spare lane changed. -/
def onSpare (s : State) (j : Nat) (f : SpareLane → SpareLane) : State := { s with chan.spare := vmod s.chan.spare j f }
/-- A lane changed. -/
def onLane (s : State) (n : Nat) (f : Lane → Lane) : State := { s with chan.lane := vmod s.chan.lane n f }

/-- The lane whose samples an ACT island takes for a reader: the spare that carries it, else its own. -/
def laneServing (s : State) (a : Nat) (trail : Bool) : Nat :=
  match spareOf s a trail with
  | some j => if (spareAt s j).carries then 8 + j else laneOf a trail
  | none => laneOf a trail

/-- A spare that returns another reader first is to carry this one (R74). -/
def sparePromised (s : State) (a : Nat) (trail : Bool) : Bool := (List.range 2).any fun j => decide ((spareAt s j).next = some (a, trail))

/-- A reader has no lane and none can be assigned to it (R76). -/
def laneLost (s : State) (a : Nat) (trail : Bool) : Bool := noLane s a trail && !sparePromised s a trail

/-- Both readers of a head are lost: the head goes OUT (Table 9.3). -/
def readersCheck (s : State) (surface : Nat) : State :=
  let bad := fun t => s.chan.badReader.any fun e => e.1 = surface ∧ e.2.1 = t
  if (bad false ∧ bad true) ∨ (bad false ∧ laneLost s (actOf surface) true) ∨ (bad true ∧ laneLost s (actOf surface) false)
  then headChange s surface .out else s

/-- A reader of a surface found open or short (Table 6.5). -/
def readerBad (s : State) (surface : Nat) (trail : Bool) : State :=
  if s.chan.badReader.any fun e => e.1 = surface ∧ e.2.1 = trail then s
  else readersCheck { s with
    chan.badReader := s.chan.badReader ++ [(surface, trail, (vget s.srv.loop (actOf surface) {}).wedges)] } surface

/-- A spare connected in parallel with the lane that serves a reader, taking its AFE settings (R72, step 1). -/
def connectSpare (s : State) (j a : Nat) (trail : Bool) (role : LaneRole) : State :=
  let w := (vget s.srv.loop a {}).wedges
  let s := onLane s (8 + j) fun l => { l with afe := (vget s.chan.lane (laneOf a trail) {}).afe }
  onSpare s j fun p => { p with role := role, act := a, trail := trail, carries := false, step := .parallel w, back := false, next := none }

/-- The return of a reader to its own lane begins: the same three steps with the lanes exchanged, so the lane takes the spare's
AFE settings (R72). -/
def returnSpare (s : State) (j : Nat) : State :=
  let p := spareAt s j
  let w := (vget s.srv.loop p.act {}).wedges
  let s := onLane s (laneOf p.act p.trail) fun l => { l with afe := (vget s.chan.lane (8 + j) {}).afe }
  onSpare s j fun p => { p with step := .parallel w, back := true }

/-- A spare counts as used once it is brought into service (R258). -/
def laneSpareUsed (s : State) (j n : Nat) : State :=
  let s := if (spareAt s j).used then s else { s with str.lanesLeft := s.str.lanesLeft - 1 }
  spareUsed (onSpare s j fun p => { p with used := true }) (.lane n) (.lane (8 + j))

/-- A reader left without a lane: the actuator is lost when both are (R76, R253). -/
def laneGone (s : State) (a : Nat) : State :=
  if laneLost s a false ∧ laneLost s a true then actuatorOut s a 3
  else (List.range 8).foldl (fun s h => readersCheck s (8 * a + h)) s

/-- The spare that takes the place of a lane: one that serves the same reader, as stand-in or as a substitute on its way
back, becomes its substitute with no switch, so that at most one spare connects to a reader (R71); else an idle spare is
connected; else a stand-in elsewhere returns its reader first (R74); else the reader has no lane. -/
def laneSubstitute (s : State) (n : Nat) : State :=
  let a := n / 2
  let trail := n % 2 = 1
  match spareOf s a trail with
  | some j => laneSpareUsed (onSpare s j fun p =>
      { p with role := .substitute, back := false, step := if p.carries then .steady else p.step }) j n
  | none =>
    match (List.range 2).find? fun j => (spareAt s j).role = .idle ∧ ¬ (spareAt s j).failed with
    | some j => laneSpareUsed (connectSpare s j a trail .substitute) j n
    | none =>
      let s := { s with chan.lostAt := assocSet s.chan.lostAt n (vget s.srv.loop a {}).wedges }
      match (List.range 2).find? fun j => (spareAt s j).role = .standIn ∧ (spareAt s j).next = none with
      | some j =>
        let s := if (spareAt s j).back then s else returnSpare s j
        laneSpareUsed (onSpare s j fun p => { p with next := some (a, trail) }) j n
      | none => laneGone (budgetSpent s (.lane n)) a

/-- A lane declared faulty (R75): condition 1 a failed calibration, 2 too few slices, 3 the 64 codewords. A spare lane is
retired, and the reader it carried gets another lane or none; one that carried none is a class 1 fault (R16). -/
def laneFault (s : State) (n cond : Nat) : State :=
  if 8 ≤ n then
    let p := spareAt s (n - 8)
    if p.failed then s
    else
      let s := if p.role = .substitute ∨ p.next.isSome then ashRecord s 0x42 1 (.lane n) [n, cond, 0]
        else fault1 s (.lane n) 0x42 [n, cond, 0]
      let s := onSpare s (n - 8) fun p =>
        { p with failed := true, role := .idle, carries := false, step := .steady, back := false, next := none }
      let s := if p.used then s else { s with str.lanesLeft := s.str.lanesLeft - 1 }
      let s := if p.role = .substitute then laneSubstitute s (laneOf p.act p.trail) else s
      match p.next with
      | some (a, t) => laneSubstitute s (laneOf a t)
      | none => s
  else if (vget s.chan.lane n {}).faulty then s
  else
    let s := onLane s n fun l => { l with faulty := true, recal := cond = 3 }
    laneSubstitute (ashRecord s 0x42 1 (.lane n) [n, cond, 0]) n

/-- The codeword condition of R75, met on two heads of the actuator. -/
def laneCondition (s : State) (a : Nat) (trail : Bool) : Bool :=
  2 ≤ ((chanAt s a).badRun.filter fun e => e.1 % 2 = bit trail ∧ 64 ≤ e.2).length

/-- The codeword condition judged for both readers of an actuator: the lane that carries the reader, a spare or its own, is the
faulty one. -/
def laneJudge (s : State) (a : Nat) : State :=
  let one := fun (s : State) (t : Bool) =>
    let n := laneServing s a t
    if laneCondition s a t ∧ (8 ≤ n ∨ ¬ (vget s.chan.lane n {}).faulty) then
      laneFault (onChan s a fun c => { c with badRun := c.badRun.filter fun e => e.1 % 2 ≠ bit t }) n 3
    else s
  one (one s false) true

/-- A front end's gain and offset, in the steps and within the ranges of R77. -/
def gainIn (x : Int) : Int := max (-48) (min 192 x)
def offsetIn (x : Int) : Int := max (-32) (min 32 x)

/-- A front end after its gain and offset loops have run on the live signal (R72, step 1). -/
def afeSettled (l : Lane) : Lane :=
  let g := Config.afeLoops l.afe
  { l with afe := { l.afe with gain := gainIn g.1, offset := offsetIn g.2 } }

/-- LANE_SPARE_SWITCH (R72): after four wedges in parallel, on which the new lane's gain and offset loops have run, the
reader's samples change lanes at a servo gap, and the old lane is disconnected. -/
def laneSpareSwitch (s : State) (j : Fin 2) : State :=
  let p := spareAt s j
  match p.step with
  | .steady => s
  | .parallel w0 =>
    if (vget s.srv.loop p.act {}).wedges < w0 + 4 then s
    else if ¬ p.back then
      onSpare (onLane s (8 + j) afeSettled) j fun p => { p with carries := true, step := .steady }
    else
      let s := onLane s (laneOf p.act p.trail) afeSettled
      let s := onSpare s j fun p => { p with role := .idle, carries := false, step := .steady, back := false }
      match p.next with
      | some (a, t) => connectSpare s j a t .substitute
      | none => s

/-! ## Calibrating a lane (R73, R78, R523) -/

/-- The span of a list of skews. -/
def spanOf (l : List Qty) : Qty := l.foldl max (l.headD 0) - l.foldl min (l.headD 0)

/-- The eight slices, of those usable, whose skews span the smallest interval; none when that span exceeds 3 % of the bit
period, or fewer than eight are usable (R78). -/
def pickSlices (usable : List Nat) (skew : List Qty) : Option (List Nat) :=
  let sorted := sortBy (fun i j => skew.getD i 0 ≤ skew.getD j 0) usable
  let wins := (List.range (sorted.length + 1 - 8)).map fun i => slice sorted i 8
  let span := fun w => spanOf (w.map fun i => skew.getD i 0)
  match wins.filter fun w => w.length = 8 ∧ wins.all fun v => span w ≤ span v with
  | w :: _ => if span w ≤ 3 / 100 then some w else none
  | [] => none

/-- The slices whose offset and gain can be corrected within range (R78, step 2). -/
def slicesOk (m : LaneMeas) : List Nat :=
  (List.range 10).filter fun i => let x := m.slices.getD i (0, 1); Config.sliceCorrectable x.1 x.2

/-- Two slice measurements agree: the same slices correctable, skews within 0.5 % of the bit period. -/
def slicesAgree (a b : LaneMeas) : Bool :=
  slicesOk a == slicesOk b && (List.zipWith (fun x y => decide (absQ (x - y) ≤ 5 / 1000)) a.skew b.skew).all id

/-- What two agreeing slice measurements give: usable slices, mean offsets and gains, and mean skews. -/
def sliceResult (m1 m2 m3 : LaneMeas) : Option (List Nat × List (Qty × Qty) × List Qty) :=
  let mean := fun (a b : LaneMeas) =>
    (slicesOk a, List.zipWith (fun x y => ((x.1 + y.1) / 2, (x.2 + y.2) / 2)) a.slices b.slices,
      List.zipWith (fun x y => (x + y) / 2) a.skew b.skew)
  if slicesAgree m1 m2 then some (mean m1 m2)
  else if slicesAgree m1 m3 then some (mean m1 m3)
  else if slicesAgree m2 m3 then some (mean m2 m3)
  else none

/-- A lane's calibration from its measurements: the lane as calibrated, or none when an item fails. The offset DAC takes the
measured offset out, in its steps of a quarter of an LSB (6 bits span full scale, R77, R78). -/
def laneCal (l : Lane) (m1 m2 m3 : LaneMeas) : Option Lane :=
  match agree3 (fun a b => absQ (a - b) ≤ 1) m1.offset m2.offset m3.offset,
        agree3 (fun a b => absQ (a - b) ≤ 1 / 4) m1.gain m2.gain m3.gain, sliceResult m1 m2 m3 with
  | some off, some gain, some (usable, corr, skew) =>
    (pickSlices usable skew).map fun w =>
      { l with afe := { l.afe with gain := gainIn (8 * gain).floor, offset := offsetIn (-(4 * off).floor) },
               slices := corr, usable := usable, inUse := w, skew := skew }
  | _, _, _ => none

/-- The next lane of the online cycle from a lane on: neither faulty nor served by a spare (R73). -/
def nextLane (s : State) : Option Nat :=
  ((List.range 8).map fun i => (s.chan.nextCal + i) % 8).find? fun n =>
    ¬ (vget s.chan.lane n {}).faulty ∧ (spareOf s (n / 2) (n % 2 = 1)).isNone

/-- Calibration is forbidden while margins warn (R525), and CAL must be enabled. -/
def calBlocked (s : State) : Bool := s.pwr.banking || s.pwr.warn || !blkEn s 15

/-- The lane items are calibrated no longer: RUNNING (R532). -/
def lanesIdle (s : State) : State := { s with cal.running := s.cal.running &&& 0xF8 }

/-- LANE_CALIBRATION (R73 to R75): an idle spare is connected as stand-in for the next lane, an eighth of LANE_CAL_PERIOD of
spindle-on time after the last; once it carries the reader the lane is calibrated and the reader returns, or the spare becomes
its substitute; a lane faulty by the codeword condition is calibrated once more while its substitute carries the reader. -/
def laneCalibration (s : State) (j : Fin 2) (m1 m2 m3 : LaneMeas) : State :=
  let p := spareAt s j
  let n := laneOf p.act p.trail
  if calBlocked s ∨ p.step ≠ .steady then s
  else match p.role with
    | .idle =>
      let due := decide (s.prof.laneCalPeriod * 225000000 / 8 ≤ s.chan.spinOn) && spnTurning s.spn.state
      if p.failed ∨ ¬ due ∨ (List.range 2).any fun i => (spareAt s i).role = .standIn then s
      else match nextLane s with
        | some n => connectSpare { s with
            chan.nextCal := (n + 1) % 8, chan.spinOn := 0, cal.running := s.cal.running ||| 7 } j (n / 2) (n % 2 = 1) .standIn
        | none => s
    | .standIn =>
      if ¬ p.carries then s
      else match laneCal (vget s.chan.lane n {}) m1 m2 m3 with
        | some l => returnSpare (lanesIdle (calResult (onLane s n fun _ => l) 2 true (.lane n))) j
        | none => laneFault (lanesIdle (calResult s 2 false (.lane n))) n 1
    | .substitute =>
      if ¬ p.carries ∨ ¬ (vget s.chan.lane n {}).recal then s
      else match laneCal (vget s.chan.lane n {}) m1 m2 m3 with
        | some l => returnSpare (ashRecord (onLane s n fun _ => { l with faulty := false, recal := false }) 0x42 1 (.lane n) [n, 3, 1]) j
        | none => ashRecord (onLane s n fun l => { l with recal := false, retired := true }) 0x42 1 (.lane n) [n, 3, 2]

/-! ## The slice monitor (R79) -/

/-- The median of a list: the mean of the middle two of an even number. -/
def medianQ (l : List Qty) : Qty :=
  let m := sortBy (· ≤ ·) l
  (m.getD ((m.length - 1) / 2) 0 + m.getD (m.length / 2) 0) / 2

/-- The phases whose slice drifts from the median of the eight. -/
def slicesDrifting (l : Lane) (means squares : List Qty) : List Nat :=
  let mm := medianQ means
  let ms := medianQ squares
  (List.range l.inUse.length).filter fun i =>
    4 < absQ (means.getD i mm - mm) ∨ ms / 10 < absQ (squares.getD i ms - ms)

/-- The slice on a phase replaced by an unused usable slice within the skew limit, and itself usable no longer; none when there
is none. -/
def sliceReplace (l : Lane) (i : Nat) : Option Lane :=
  let old := l.inUse.getD i 0
  (l.usable.find? fun k => k ∉ l.inUse ∧ spanOf ((k :: l.inUse.eraseIdx i).map fun x => l.skew.getD x 0) ≤ 3 / 100).map fun k =>
    { l with inUse := l.inUse.set i k, usable := l.usable.filter (· ≠ old) }

/-- SLICE_MONITOR_BLOCK (R79): each slice in use that drifts is replaced at the next servo gap; with none to take its place
the lane is faulty. The slice offset and gain loops follow the monitor (Table 4.5) unless the actuator writes. -/
def sliceMonitorBlock (s : State) (n : Fin 10) (means squares : List Qty) : State :=
  let l := s.chan.lane[n]
  match (slicesDrifting l means squares).foldl (fun (l : Option Lane) i => l.bind fun l => sliceReplace l i) (some l) with
  | none => laneFault s n 2
  | some l' =>
    let a := if n.val < 8 then n.val / 2 else (spareAt s (n.val - 8)).act
    let adapt := fun (l : Lane) => if (vget s.wrt.act a {}).frame.isSome then l else { l with slices := Config.sliceLoop l.slices l.inUse means squares }
    onLane s n fun _ => adapt l'

end Sys2Proof.Machine
end

