-- ==== Sys2Proof/Machine/ReadChannel.lean ====
section
/-! DEFINITION. Read channel (chapter 4): the joint equaliser and detector, adaptation, locating a frame, soft values,
channel state records, the information rate. -/
namespace Sys2Proof.Machine
open Sys2Proof

/-! ## Equaliser (R80 to R82) -/

/-- A tap, target or other 10-bit value in units of 1/256, from the value that adapts: −2 to +511/256 (R80, R81). -/
def tap10 (v : Qty) : Qty := ((256 * max (-2) (min (511 / 256) v)).floor : Qty) / 256

/-- A sample by its place in the stream; 0 outside what the stream holds. -/
def streamAt (x : List Qty) (t : Int) : Qty := if t < 0 then 0 else x.getD t.toNat 0

/-- One 24-tap sum (R80). -/
def tapSum (taps x : List Qty) (t : Int) : Qty :=
  ((List.range 24).map fun i => tap10 (taps.getD i 0) * streamAt x (t - i)).foldl (· + ·) 0

/-- Which output feeds the detector: both readers, or one reader's shadow filter (R82). -/
inductive EqSource where
  | joint | leadOnly | trailOnly
deriving DecidableEq, Repr

/-- The equaliser output from one source at a place. -/
def eqFrom (c : ChanRec) (lead trail : List Qty) (src : EqSource) (t : Nat) : Qty :=
  match src with
  | .joint => tapSum c.lead.taps lead (t - c.delay.val) + tapSum c.trail.taps trail t
  | .leadOnly => tapSum c.lead.shadow lead (t - c.delay.val)
  | .trailOnly => tapSum c.trail.shadow trail t

/-- A target coefficient: g_0 is fixed at 1 (R81). -/
def targetG (c : ChanRec) (j : Nat) : Qty := if j = 0 then 1 else tap10 (c.target.getD (j - 1) 0)

/-- A channel bit as +1 or −1. -/
def bipolar (b : Bool) : Qty := if b then 1 else -1

/-- The ideal output from bits by their distance back (R81). -/
def idealOut (c : ChanRec) (a : Nat → Bool) : Qty :=
  ((List.range 4).map fun j => targetG c j * bipolar (a j)).foldl (· + ·) 0

/-! ## Detector (R83, R84) -/

/-- The noise prediction coefficient p(c) from the running averages of a context. -/
def noiseP (c : ChanRec) (ctx : Nat) : Qty := let n := c.noise.getD ctx (0, 1, 1); if n.2.1 = 0 then 0 else n.1 / n.2.1
/-- The noise variance σ²(c). -/
def noiseV (c : ChanRec) (ctx : Nat) : Qty := (c.noise.getD ctx (0, 1, 1)).2.2

/-- The branch metric m_k(c) of R83; bit j of the context is channel bit k − j. -/
def branchMetric (c : ChanRec) (yk yk1 : Qty) (ctx : Nat) : Qty :=
  let z := idealOut c fun j => ctx.testBit j
  let z1 := idealOut c fun j => ctx.testBit (j + 1)
  let v := noiseV c ctx
  let d := (yk - z) - noiseP c ctx * (yk1 - z1)
  (if v = 0 then 0 else d * d / v) + lnQ v

/-- The least of a list of quantities. -/
def minQ : List Qty → Qty
  | [] => 0
  | x :: xs => xs.foldl min x

/-- Forward metrics of the 16 states after a bit: state s is entered by the branches of contexts s and s + 16, from the
states context ÷ 2. -/
def forwardStep (m : Nat → Qty) (al : List Qty) : List Qty :=
  (List.range 16).map fun s => min (al.getD (s / 2) 0 + m s) (al.getD ((s + 16) / 2) 0 + m (s + 16))

/-- Backward metrics before a bit: state s is left by the branches of contexts 2s and 2s + 1. -/
def backwardStep (m : Nat → Qty) (be : List Qty) : List Qty :=
  (List.range 16).map fun s => min (be.getD (2 * s % 16) 0 + m (2 * s)) (be.getD ((2 * s + 1) % 16) 0 + m (2 * s + 1))

/-- The forward metrics before each of n bits. -/
def forwardRun (m : Nat → Nat → Qty) : Nat → Nat → List Qty → List (List Qty)
  | 0, _, _ => []
  | n + 1, t, al => al :: forwardRun m n (t + 1) (forwardStep (m t) al)

/-- The backward metrics after each of n bits, the last bit's being all equal. -/
def backwardRun (m : Nat → Nat → Qty) : Nat → Nat → List (List Qty)
  | 0, _ => []
  | n + 1, t => let rest := backwardRun m n (t + 1)
    (match rest with
     | [] => List.replicate 16 0
     | be :: _ => backwardStep (m (t + 1)) be) :: rest

/-- ln(P(bit is 0) ÷ P(bit is 1)) of a bit by max-log-MAP: half the difference of the least path metrics, a metric being
−2 ln of a path's likelihood but for a constant. -/
def bitLlr (m : Nat → Qty) (al be : List Qty) : Qty :=
  let path := fun ctx => al.getD (ctx / 2) 0 + m ctx + be.getD (ctx % 16) 0
  (minQ (((List.range 32).filter (· % 2 = 1)).map path) - minQ (((List.range 32).filter (· % 2 = 0)).map path)) / 2

/-- The detector over a window of 64 bits, each recursion trained over 32 bits before or after it (R83); `t`: the window's
first bit. -/
def detWindow (m : Nat → Nat → Qty) (t : Nat) : List Qty :=
  let t0 := t - 32
  let al := (forwardRun m (t + 64 - t0) t0 (List.replicate 16 0)).drop (t - t0)
  let be := backwardRun m 96 t
  (List.range 64).map fun i => bitLlr (m (t + i)) (al.getD i []) (be.getD i [])

/-- The states' best paths after a bit, each as its metric and its bits from the newest, nine of them (R83, the tentative path). -/
def pathStep (m : Nat → Qty) (ps : List (Qty × List Bool)) : List (Qty × List Bool) :=
  (List.range 16).map fun s =>
    let a := ps.getD (s / 2) (0, [])
    let b := ps.getD ((s + 16) / 2) (0, [])
    let best := if a.1 + m s ≤ b.1 + m (s + 16) then (a.1 + m s, a.2) else (b.1 + m (s + 16), b.2)
    (best.1, (s % 2 == 1) :: best.2.take 8)

/-- Tentative decisions of the bits of a window: each is read from the best path 8 bit periods after its sample (R83). -/
def tentativeRun (m : Nat → Nat → Qty) : Nat → Nat → List (Qty × List Bool) → List Bool
  | 0, _, _ => []
  | n + 1, t, ps =>
    let ps := pathStep (m t) ps
    let best := ps.foldl (fun (a : Qty × List Bool) p => if p.1 < a.1 then p else a) (ps.headD (0, []))
    best.2.getD 8 false :: tentativeRun m n (t + 1) ps

/-- The tentative decisions of the 64 bits from a bit on. -/
def tentWindow (m : Nat → Nat → Qty) (t : Nat) : List Bool :=
  let t0 := t - 32
  ((tentativeRun m (t + 72 - t0) t0 (List.replicate 16 (0, []))).drop (t + 8 - t0))

/-! ## Defects (R85 to R87) -/

/-- The mean absolute corrected sample over 8 bit periods ending at a place. -/
def envelope (x : List Qty) (t : Nat) : Qty :=
  ((List.range 8).map fun i => absQ (streamAt x ((t : Int) - i))).foldl (· + ·) 0 / 8

/-- A thermal asperity at a place: the envelope above 200 % of nominal, or the mean over 32 bit periods beyond 25 % of full
scale, which a 6-bit sample's 32 steps to one side make 8 LSB, with either sign (DEDUCED, log entry 71). -/
def asperityAt (x : List Qty) (env : Qty) (t : Nat) : Bool :=
  let mean32 := ((List.range 32).map fun i => streamAt x ((t : Int) - i)).foldl (· + ·) 0 / 32
  decide (2 * env < envelope x t) || decide (8 < absQ mean32)

/-- A place is in defect on a reader with a nominal envelope: dropout, thermal asperity or saturation of the slices' samples. -/
def inDefect (x : List Qty) (raw : List Int) (env : Qty) (t : Nat) : Bool :=
  let low := fun (g : Nat) => decide (envelope x g < env / 2)
  let dropout := (List.range 24).any fun i => decide (i ≤ t) && (List.range 24).all fun k => low (t - i + k)
  let sat := ((List.range 8).filter fun i => decide (i ≤ t) && (let v := raw.getD (t - i) 0; v = 31 ∨ v = -32)).length
  dropout || asperityAt x env t || decide (4 ≤ sat)

/-- A place lies in a defect span: within 16 bit periods of a place in defect. -/
def inSpan (x : List Qty) (raw : List Int) (env : Qty) (t : Nat) : Bool :=
  (List.range 33).any fun i => decide (i ≤ t + 16) && inDefect x raw env (t + 16 - i)

/-- The spans of a list of flags: first bit and length. -/
def spansOf (flags : List Bool) : List (Nat × Nat) :=
  (flags.zipIdx.foldl (fun (acc : List (Nat × Nat)) p =>
    if p.1 then
      match acc with
      | (f, n) :: rest => if f + n = p.2 then (f, n + 1) :: rest else (p.2, 1) :: acc
      | [] => [(p.2, 1)]
    else acc) []).reverse

/-- Spans compared with those of earlier reads: one that recurs within ±64 bits enters the defect map (R87). -/
def spansNoted (s : State) (p : Pos) (spans : List (Nat × Nat)) : State :=
  let old := s.chan.spans
  spans.foldl (fun s sp =>
    if old.any fun e => e.1 = p ∧ e.2.1 ≤ sp.1 + 64 ∧ sp.1 ≤ e.2.1 + 64 then
      if s.str.defects.any fun d => d.pos = p ∧ d.firstBit ≤ sp.1 + 64 ∧ sp.1 ≤ d.firstBit + 64 then s
      else defectAdd s ⟨p, sp.1, sp.2⟩
    else { s with chan.spans := (p, sp.1, sp.2) :: s.chan.spans }) s

/-! ## The stream of a frame, and adaptation over it (R86, R91, R102) -/

/-- What the channel sees while it reads a frame, by place in the stream: the readers' corrected samples, whether a reader is
in a defect span or gives no samples, from which place the loops that wait for the frame's location run, and whether a speed
change holds the slow loops. -/
structure ReadSpan where
  lead : List Qty
  trail : List Qty
  defL : List Bool
  defT : List Bool
  lostL : List Bool
  lostT : List Bool
  located : Option Nat
  slewing : Bool

/-- A reader's samples may not be used at a place. -/
def ReadSpan.badL (x : ReadSpan) (t : Nat) : Bool := x.defL.getD t false || x.lostL.getD t false
def ReadSpan.badT (x : ReadSpan) (t : Nat) : Bool := x.defT.getD t false || x.lostT.getD t false

/-- The source at a place: the shadow filter of the reader that is well where the other is not (R82, R86). -/
def ReadSpan.source (x : ReadSpan) (t : Nat) : EqSource :=
  if x.badL t && !x.badT t then .trailOnly else if x.badT t && !x.badL t then .leadOnly else .joint

/-- One least-mean-square step of 24 taps against an error, step 2⁻¹², held within the 10-bit range (Table 4.5). -/
def lmsTaps (taps x : List Qty) (e : Qty) (t : Int) : List Qty :=
  taps.zipIdx.map fun (f, i) => max (-2) (min (511 / 256) (f - e * streamAt x (t - i) / 2 ^ 12))

/-- The loops that drive on hard decisions, at one bit (Table 4.5): taps every 8 bits, target every 4,096, noise every bit.
`y`: the output that fed the detector; `a`: decisions by distance back. -/
def hardLoops (x : ReadSpan) (c : ChanRec) (y y1 : Qty) (a : Nat → Bool) (t : Nat) : ChanRec :=
  match x.located with
  | none => c
  | some t0 =>
    if t < t0 then c
    else
      let z := idealOut c a
      let e := y - z
      let both := x.badL t || x.badT t
      let c := if t % 8 = 0 then
          let sh := fun (r : ReaderRec) (l : List Qty) (src : EqSource) (i : Int) =>
            { r with taps := lmsTaps r.taps l e i, shadow := lmsTaps r.shadow l (eqFrom c x.lead x.trail src t - z) i }
          { c with lead := if x.badL t then c.lead else sh c.lead x.lead .leadOnly (t - c.delay.val),
                   trail := if x.badT t then c.trail else sh c.trail x.trail .trailOnly t }
        else c
      let c := if t % 4096 = 0 ∧ ¬ both ∧ ¬ x.slewing then
          { c with target := c.target.zipIdx.map fun (g, j) => max (-2) (min (511 / 256) (g + e * bipolar (a (j + 1)) / (2 ^ 16 : Qty))) }
        else c
      if both then c
      else
        let ctx : Nat := (List.range 5).foldl (fun t j => t + bit (a j) * 2 ^ j) 0
        let n1 := y1 - idealOut c fun j => a (j + 1)
        let r := e - noiseP c ctx * n1
        let avg := fun (old new : Qty) => old + (new - old) / (2 ^ 14 : Qty)
        let o := c.noise.getD ctx (0, 1, 1)
        { c with noise := c.noise.set ctx (avg o.1 (e * n1), avg o.2.1 (n1 * n1), avg o.2.2 (r * r)) }

/-- A reader's loops that drive on tentative decisions, at one bit (Table 4.5): gain every 8 bits, offset every 64, asymmetry
every 256; and its nominal envelope. `es`: e_k of the last 256 bits, newest first. -/
def readerLoops (r : ReaderRec) (x : List Qty) (es : List Qty) (t : Nat) : ReaderRec :=
  let mean := fun (l : List Qty) => if l.isEmpty then (0 : Qty) else l.foldl (· + ·) 0 / l.length
  let v := fun (i : Nat) => streamAt x ((t : Int) - i)
  let r := if t % 8 = 0 then { r with gain := gainIn (Config.gainLoop r.gain (es.headD 0) (v 0)) } else r
  let r := if t % 64 = 0 then { r with offset := offsetIn (Config.offsetLoop r.offset (mean (es.take 64))) } else r
  let r := if t % 256 = 0 then
      { r with asym := Config.asymLoop r.asym (mean ((es.take 256).zipIdx.map fun (e, i) => e * v i * v i)) } else r
  if t % 64 = 0 then { r with env := Config.envelopeLoop r.env (mean ((List.range 64).map fun i => absQ (v i))) } else r

/-- The channel while it runs over a stream, window by window: the values in use, those each past window used, equaliser
outputs, the detector's output, tentative errors (newest first), and the tentative ideal outputs. -/
structure ChanRun where
  rec_ : ChanRec
  recs : List ChanRec := []
  ys : List Qty := []
  det : List Qty := []
  es : List Qty := []
  tz : List Qty := []

/-- The branch metrics of a run: those of a bit use the values of its window. -/
def ChanRun.metric (r : ChanRun) (t ctx : Nat) : Qty :=
  branchMetric (r.recs.getD (t / 64) r.rec_) (r.ys.getD t 0) (if t = 0 then 0 else r.ys.getD (t - 1) 0) ctx

/-- The hard decision of a bit, by its distance back from a place. -/
def ChanRun.hard (r : ChanRun) (t j : Nat) : Bool := decide (j ≤ t) && decide (r.det.getD (t - j) 0 < 0)

/-- A window equalised with the values in use; the window before it is then detected, and the loops run over that: hard
decisions act 64 bit periods or more after their samples (R83, R102). -/
def chanWindow (x : ReadSpan) (r : ChanRun) (i : Nat) : ChanRun :=
  let r := { r with
    ys := r.ys ++ (List.range 64).map fun k => eqFrom r.rec_ x.lead x.trail (x.source (64 * i + k)) (64 * i + k),
    recs := r.recs ++ [r.rec_] }
  if i = 0 then r
  else
    let t := 64 * (i - 1)
    let tent := tentWindow r.metric t
    let r := { r with det := r.det ++ detWindow r.metric t }
    (List.range 64).foldl (fun r k =>
      let y := r.ys.getD (t + k) 0
      let z := idealOut r.rec_ fun j => decide (j ≤ k) && tent.getD (k - j) false
      let es := (y - z) :: r.es.take 255
      let c := r.rec_
      let c := { c with lead := if x.badL (t + k) then c.lead else readerLoops c.lead x.lead es (t + k),
                        trail := if x.badT (t + k) then c.trail else readerLoops c.trail x.trail es (t + k) }
      { r with es := es, tz := r.tz ++ [z],
               rec_ := hardLoops x c y (if t + k = 0 then 0 else r.ys.getD (t + k - 1) 0) (r.hard (t + k)) (t + k) }) r

/-- The channel run over windows of a stream. -/
def chanRun (x : ReadSpan) (c : ChanRec) (windows : Nat) : ChanRun := (List.range windows).foldl (chanWindow x) { rec_ := c }

/-- The channel run with its values held: the replay path, and the live path until the frame is located (R93, R102). -/
def chanHeld (x : ReadSpan) (c : ChanRec) (windows : Nat) : List Qty :=
  let r := (List.range windows).foldl (fun (r : ChanRun) i => { r with
    ys := r.ys ++ (List.range 64).map fun k => eqFrom c x.lead x.trail (x.source (64 * i + k)) (64 * i + k), recs := r.recs ++ [c] })
    { rec_ := c }
  (List.range (windows - 1)).flatMap fun i => detWindow r.metric (64 * i)

/-- A stream from a later place on. -/
def ReadSpan.drop (x : ReadSpan) (n : Nat) : ReadSpan :=
  { x with lead := x.lead.drop n, trail := x.trail.drop n, defL := x.defL.drop n, defT := x.defT.drop n,
           lostL := x.lostL.drop n, lostT := x.lostT.drop n }

/-! ## The data timing loop (R89 to R91, R99) -/

/-- The stage of a frame bit (Table 4.2, R90, R91): acquisition over the preamble unless frames are read back to back; the
first 64 bits of a data field after a servo field at the phase gain of frame bits 32–63. -/
def timingStage (j : ReadJob) (n : Nat) : Option TimingStage :=
  if ¬ j.tracking ∧ n < 32 then none
  else if ¬ j.tracking ∧ n < 64 then some .phase
  else if ¬ j.tracking ∧ n < 96 then some .frequency
  else if j.dz ≤ j.dataBit + n ∧ (j.dataBit + n) % j.dz < 64 then some .phase
  else some .tracking

/-- The data timing loop over the bits of a frame: a zero-phase start at frame bit 32 where acquisition runs, and an update
each bit unless both readers are in defect (Table 4.5). `at'`: the place of E in the run. -/
def timingRun (j : ReadJob) (x : ReadSpan) (r : ChanRun) (at' : Nat) (tm : Timing) : Timing :=
  (List.range (r.det.length - at')).foldl (fun tm n =>
    let t := at' + n
    let tm := if ¬ j.tracking ∧ n = 32 then
        { tm with phase := Config.zeroPhase (slice x.lead t 32) (slice x.trail t 32) } else tm
    match timingStage j n with
    | none => tm
    | some st =>
      if x.badL t && x.badT t then tm
      else Config.timingStep st tm (r.ys.getD t 0 - r.tz.getD t 0) (r.tz.getD t 0 - r.tz.getD (t - 1) 0)) tm

/-- Bits per cell of a zone: ZONE_RATE ÷ (1,966,080 × 120 s⁻¹) (R97). -/
def bitsPerCell (g : ZoneGeom) : Qty := (g.rate : Qty) * 1000000 / (1966080 * 120)

/-- The zone of the record that an actuator's channel has loaded. -/
def chanZone (s : State) (a : Nat) : Option ZoneGeom := (chanAt s a).loaded.bind fun fz => s.media.zones[fz.2]?

/-- The channel bit rate of an actuator's present zone in Mb/s (R97). -/
def bitRate (s : State) (a : Nat) : Qty :=
  match chanZone s a with
  | some g => (g.rate : Qty) * s.spn.speed / 7200
  | none => 0

/-- The synthesiser at a wedge (R91, R99): the ACT clocks counted between address marks, at the loop's frequency, against
512 × b_z; the difference corrects the frequency at once, and the spindle's slew, in rpm per second, is fed forward over the
next wedge. The timing loop is left the residual phase. -/
def synthWedge (s : State) (a : Nat) (period slew : Qty) : State :=
  match chanZone s a with
  | none => s
  | some g =>
    onChan s a fun c =>
      let f := c.synth * (1 + c.tim.freq)
      let count := (period * f * 1000000 / 8).floor.toNat
      let want := 512 * bitsPerCell g
      let f := if count = 0 then bitRate s a else f * want / count
      let f := if s.spn.speed = 0 then f else f * (1 + slew * period / s.spn.speed)
      { c with synth := f, actCount := count, tim := { c.tim with freq := 0 } }

/-- SERVO_SAMPLE (R159 to R175, R180): one wedge of one actuator; where the address mark is found, the synthesiser follows the
interval, with the spindle's slew fed forward (R99). -/
def servoSample (s : State) (a : Fin 4) (w : WedgeSample) : State :=
  let l := s.srv.loop[a]
  if ¬ blkEn s 12 then s else
  let t := servoStep s a w
  if l.mode = .unloaded ∨ l.mode = .unloading ∨ headPos s l (srvWin s a) w = none then t else synthWedge t a w.period t.spn.slewNow

/-! ## Channel state records (R101) -/

/-- The zone of a surface's position. -/
def zoneAt (s : State) (p : Pos) : Nat := match ringAt s p.surface p.ring with | some r => r.zone | none => 0

/-- The saved record of a head and zone; first values come from the profile. -/
def savedRec (s : State) (surface zone : Nat) : ChanRec :=
  match s.chan.saved.find? fun e => e.1 = (surface, zone) with
  | some e => e.2
  | none => match s.prof.chanInit.find? fun e => e.1 = (surface, zone) with
    | some e => e.2
    | none => {}

/-- The values have converged: error power changed by less than 1 % over 16 codewords and at most 1.1 times the saved one. -/
def chanConverged (s : State) (a : Nat) : Bool :=
  let c := chanAt s a
  match c.loaded, c.errs[0]?, c.errs[15]? with
  | some (f, z), some e0, some e15 => decide (absQ (e0 - e15) < e15 / 100 ∧ e0 ≤ 11 / 10 * (savedRec s f z).err)
  | _, _, _ => false

/-- The front ends that serve an actuator's readers set from the adapted values (R77, R101). -/
def afeApply (s : State) (a : Nat) : State :=
  let c := (chanAt s a).adapted
  let put := fun (s : State) (t : Bool) (r : ReaderRec) => onLane s (laneServing s a t) fun l => { l with
    afe := { l.afe with gain := gainIn r.gain, offset := offsetIn r.offset, cutoff := min 31 c.cutoff, boost := min 24 c.boost } }
  put (put s false c.lead) true c.trail

/-- The record of a head and zone loaded, that of the head and zone left saved if its values have converged; a capture of the
head and zone left is discarded. -/
def chanLoad (s : State) (a surface zone : Nat) : State :=
  let c := chanAt s a
  if c.loaded = some (surface, zone) then s
  else
    let s := match c.loaded with
      | some fz =>
        if chanConverged s a then
          { s with chan.saved := (fz, { c.adapted with err := c.errs.headD c.adapted.err }) :: s.chan.saved.filter fun e => e.1 ≠ fz }
        else s
      | none => s
    afeApply (onChan s a fun c =>
      { c with loaded := some (surface, zone), adapted := savedRec s surface zone, errs := [], highRun := 0, cap := [] }) a

/-- CHANNEL_STATE_RESTORE (R101): after four codewords above 1.5 times the saved error power, the saved record returns. -/
def channelStateRestore (s : State) (a : Fin 4) : State :=
  let c := chanAt s a
  match c.loaded with
  | some (f, z) =>
    if c.highRun < 4 then s
    else ashRecord (afeApply (onChan s a fun c => { c with adapted := savedRec s f z, highRun := 0, errs := [] }) a) 0x43 255 (.head f) [f, z]
  | none => s

/-- FILTER_RETUNE (R100): once the bit rate has moved 1 % from the last tuning, cutoff and boost are tuned to it at the servo
gap: the front ends take the record's cutoff, a fraction of the present bit rate, and boost. Taps, target and predictors stay. -/
def filterRetune (s : State) (a : Fin 4) : State :=
  let c := chanAt s a
  if c.tuned / 100 ≤ absQ (bitRate s a - c.tuned) then afeApply (onChan s a fun c => { c with tuned := bitRate s a }) a else s

/-! ## Opening the window (R29, R88 to R90, R98, R125) -/

/-- A leaf may be read at its pass: it waits for a first read, a blind re-read or the next read of its ladder. -/
def leafDue (l : ReqLeaf) : Bool := l.phase = .waiting || l.phase = .blind || (l.phase = .ladder && l.reread)

/-- Where a slot's frame is predicted to begin (R58, R88): wedge, data bit of its data field, and D_z; none while the media have
no geometry for it. -/
def predictedStart (s : State) (p : Pos) : Option (Nat × Nat × Nat) :=
  match ringAt s p.surface p.ring with
  | none => none
  | some r => (s.media.zones[r.zone]?).bind fun z =>
    let l := framesPerTrack z.dz r.strength
    if l = 0 ∨ z.dz = 0 then none else some (slotWedge r z l p.slot, slotStartBit r l p.slot % z.dz, z.dz)

/-- READ_WINDOW_OPEN: the window opens for a leaf at its predicted start, in the wedge that the servo has just passed. With the
store full the leaf is read on a later revolution and a slip counted. `far`: more than 4,096 bit periods have passed without
reading. Acquisition begins at the frequency the servo timing predicts (R89). -/
def readWindowOpen (s : State) (id : Fin 8192) (idx : Nat) (far : Bool) : State :=
  match reqBy s id, leafBy s id idx with
  | some r, some l =>
    let a := actOf l.pos.surface
    let lp := vget s.srv.loop a {}
    match predictedStart s l.pos with
    | none => s
    | some (w, b, dz) =>
      if ¬ blkEn s (6 + a) ∨ ¬ leafDue l ∨ r.released + 64 ≤ idx ∨ (chanAt s a).read.isSome ∨ lp.surface ≠ l.pos.surface ∨ ¬ lp.onTrack ∨
          2 ≤ lp.missRun ∨ trackTarget s l.pos false ≠ some lp.target ∨ lp.wedge ≠ some w ∨ (vget s.wrt.act a {}).paSel ≠ some (l.pos.surface % 8) ∨
          s.time < (vget s.wrt.act a {}).paReady ∨ s.spn.speed < 3600 then s
      else if l.soft.isNone ∧ 8 ≤ storeUsed s a then
        { s with wrt.act := vmod s.wrt.act a fun w => { w with slips := satInc w.slips } }
      else
        let s := chanLoad s a l.pos.surface (zoneAt s l.pos)
        -- the step 0 soft values are freed when the step 2 read begins
        let s := onLeaf s id idx fun l => { l with
          phase := if l.reread then .ladder else .reading,
          soft := if l.phase = .ladder ∧ l.step = 2 then none else l.soft }
        onChan s a fun c =>
          let track := c.acquired && !far
          { c with
            read := some { req := id, leafIdx := idx, pos := l.pos, blind := decide (l.phase = .blind), tracking := track,
                           wedge := w, dataBit := b, dz := dz, wedges := lp.wedges },
            acquired := true, buf := ⟨[], []⟩, bufAt := -256, outQ := [],
            synth := if track then c.synth else bitRate s a, tim := if track then c.tim else {} }
  | _, _ => s

/-! ## Sync marks (R92 to R96) -/

/-- The stream bits from a position, E being position 0; `v` begins at E − 256. -/
def streamBits (v : List Bool) (at' : Int) (n : Nat) : List Bool :=
  (List.range n).map fun i => v.getD (at' + 256 + i).toNat false

/-- The Hamming distance of two bit strings. -/
def hamming (a b : List Bool) : Nat := ((List.zipWith (fun x y => x != y) a b).filter id).length

/-- The match at a start: some true for the complement of the pattern (R92). -/
def markAt (v mark : List Bool) (hd : Nat) (at' : Int) : Option Bool :=
  let w := streamBits v at' 48
  if hamming w mark ≤ hd then some false else if 48 - hamming w mark ≤ hd then some true else none

/-- The earliest match with its polarity among the starts centre − w to centre + w. -/
def markSearch (v mark : List Bool) (hd centre w : Nat) : Option (Int × Bool) :=
  (List.range (2 * w + 1)).findSome? fun i =>
    let at' : Int := centre - w + i
    (markAt v mark hd at').map fun p => (at', p)

/-- Trial offsets 0, +1, −1, … +8, −8. -/
def trialOffsets : List Int := [0, 1, -1, 2, -2, 3, -3, 4, -4, 5, -5, 6, -6, 7, -7, 8, -8]

/-- 128 header bits decode and name the position read (R45, R94). -/
def headerPasses (bits : List Bool) (inv : Bool) (p : Pos) : Bool := (headerAt p (bytesOfBits 16 (bits.map (· != inv)))).isSome

/-- 128 bits of a replay from the place of the header trial with an offset: the replay begins 64 bits ahead of the header. -/
def replayHeader (v : List Bool) (o : Int) : List Bool := slice v (64 + o).toNat 128

/-- What R94 finds: whether the frame is located, its first bit, its polarity, what is counted, where its replay begins, if
one runs, and whether no header offset passed (R95). -/
structure Located where
  found : Bool
  start : Int
  inverted : Bool
  slip : Bool
  priMiss : Bool
  replayFrom : Option Int
  unsure : Bool
deriving DecidableEq, Repr, Inhabited

/-- The secondary-mark part of R94: the frame start is kept if no header offset passes. `replay`: the decisions of a replay
from a stream bit on. -/
def locateSecondary (v : List Bool) (replay : Int → List Bool) (p : Pos) (hd win : Nat) : Located :=
  match markSearch v secondaryMark hd 4192 win with
  | none => ⟨false, 0, false, false, false, none, false⟩
  | some (q, inv) =>
    let h := replay (q - 4192 + 80)
    match trialOffsets.find? fun o => headerPasses (replayHeader h o) inv p with
    | some o => ⟨true, q + o - 4192, inv, false, true, some (q + o - 4192 + 80), false⟩
    | none => ⟨true, q - 4192, inv, false, true, some (q - 4192 + 80), true⟩

/-- The procedure of R94 on the live decisions from E − 256. -/
def locate (v : List Bool) (replay : Int → List Bool) (p : Pos) (hd win : Nat) : Located :=
  match markSearch v primaryMark hd 96 win with
  | some (q, inv) =>
    match trialOffsets.find? fun o => headerPasses (streamBits v (q + o + 48) 128) inv p with
    | some o => ⟨true, q + o - 96, inv, o ≠ 0, false, none, false⟩
    | none => locateSecondary v replay p hd win
  | none => locateSecondary v replay p hd win

/-- SYNC_WIN, SYNC_HD and BLIND_EN of an actuator (R105). -/
def syncWin (s : State) (a : Nat) : Nat := bitsOf (vget s.reg.ck.syncCfg a 0) 15 8
def syncHd (s : State) (a : Nat) : Nat := bitsOf (vget s.reg.ck.syncCfg a 0) 3 0
def blindEn (s : State) (a : Nat) : Bool := (vget s.reg.ck.syncCfg a 0).getLsbD 16

/-- The last samples of a list, at most 16,384 (R93). -/
def lastSamples (x : Samples) : Samples := ⟨x.lead.drop (x.lead.length - 16384), x.trail.drop (x.trail.length - 16384)⟩

/-- A lane's samples corrected slice by slice and for the reader's asymmetry: bit period k falls to the slice on phase k mod 8
(R78, R80). -/
def correctedBy (l : Lane) (asym : Qty) (x : List Int) : List Qty :=
  x.zipIdx.map fun (v, k) =>
    let c := l.slices.getD (l.inUse.getD (k % 8) 0) (0, 1)
    Config.asymCorrect asym (((v : Qty) - c.1) * c.2)

/-- The stream that samples show for a frame under the head; `at'`: the stream bit of the first sample, `loc`: the stream bit
from which the frame is located. A reader lost while it is read is lost from the next servo gap (R82). -/
def streamOf (s : State) (a : Nat) (j : ReadJob) (x : Samples) (at' : Int) (loc : Option Nat) : ReadSpan :=
  let c := (chanAt s a).adapted
  let lead := correctedBy (vget s.chan.lane (laneServing s a false) {}) c.lead.asym x.lead
  let trail := correctedBy (vget s.chan.lane (laneServing s a true) {}) c.trail.asym x.trail
  let n := (List.range (max x.lead.length x.trail.length))
  let field := fun (t : Nat) => j.wedges + (j.dataBit + (at' + t).toNat) / max 1 j.dz
  let lost := fun (tr : Bool) => let w := readerLost s j.pos.surface tr; n.map fun t => w.any fun w => decide (w < field t ∨ w < j.wedges)
  { lead := lead, trail := trail,
    defL := n.map (inSpan lead x.lead c.lead.env), defT := n.map (inSpan trail x.trail c.trail.env),
    lostL := lost false, lostT := lost true,
    located := loc.map fun l => (l - at').toNat, slewing := s.spn.state ≠ .running }

/-- The decisions of soft outputs: 1 where P(bit is 0) is the smaller. -/
def decisions (det : List Qty) : List Bool := det.map fun r => decide (r < 0)

/-- The replay of a stream that begins at E − 256 from a stream bit on, up to a number of bits, with the values as they stand
(R93). -/
def replayOf (x : ReadSpan) (c : ChanRec) (from_ : Int) (n : Nat) : List Qty :=
  (chanHeld (x.drop (from_ + 256).toNat) c (n / 64 + 2)).take n

/-- A located frame noted with its counters and its replay, which reaches frame bit 4,239. -/
def applyLocated (s : State) (a : Nat) (x : ReadSpan) (out : List Qty) (r : Located) : State :=
  onChan s a fun c => { c with
    outQ := out.take 8192,
    read := c.read.map fun j => { j with
      located := true, start := r.start, inverted := r.inverted, unsure := r.unsure, locAt := x.lead.length - 256,
      replay := match r.replayFrom with | some f => replayOf x c.adapted f 4160 | none => [] },
    slip := if r.slip then satInc c.slip else c.slip,
    priMiss := if r.priMiss then satInc c.priMiss else c.priMiss }

/-- What the channel shows of a frame's opening from the samples that arrived: its stream, the live path's output, and where
R94 finds the frame. -/
def openingSeen (s : State) (a : Fin 4) (j : ReadJob) (smp : Samples) : ReadSpan × List Qty × Located :=
  let c := (chanAt s a).adapted
  let x := streamOf s a j smp (-256) none
  let out := chanHeld x c (smp.lead.length / 64)
  (x, out, locate (decisions out) (fun f => decisions (replayOf x c f 320)) j.pos (syncHd s a) (syncWin s a))

/-- FRAME_LOCATE (R94): after the search windows the frame is located, or a blind re-read is scheduled, or the leaf is
unreadable for this read. `smp`: the samples from E − 256 to the end of the search. -/
def frameLocate (s : State) (a : Fin 4) (smp : Samples) : State :=
  match (chanAt s a).read with
  | some j =>
    if j.located ∨ j.blind then s
    else
      let (x, out, r) := openingSeen s a j smp
      let s := onChan s a fun c => { c with buf := lastSamples smp, bufAt := smp.lead.length - 256 - min 16384 smp.lead.length }
      if r.found then applyLocated s a x out r
      else
        let s := onChan s a fun c => { c with read := none }
        if blindEn s a then onLeaf s j.req j.leafIdx fun l => { l with phase := .blind }
        else ladderStep4 s j.req j.leafIdx false
  | none => s

/-- BLIND_REREAD (R96): the whole procedure again, then the header at the offsets around the servo prediction, on replayed
bits; with no mark matched the frame is taken to have the polarity written (DESIGN CHOICE, log entry 111). A failure is counted and
the stripe rebuilds the leaf. -/
def blindReread (s : State) (a : Fin 4) (smp : Samples) : State :=
  match (chanAt s a).read with
  | some j =>
    if j.located ∨ ¬ j.blind then s
    else
      let (x, out, r) := openingSeen s a j smp
      let s := onChan s a fun c => { c with buf := lastSamples smp, bufAt := smp.lead.length - 256 - min 16384 smp.lead.length }
      if r.found then applyLocated s a x out r
      else match trialOffsets.find? fun o => headerPasses (replayHeader (decisions (replayOf x (chanAt s a).adapted 80 320)) o) false j.pos with
        | some o =>
          onChan (applyLocated s a x out ⟨true, o, false, false, false, none, false⟩) a fun c => { c with blindOk := satInc c.blindOk }
        | none =>
          ladderStep4 (onChan s a fun c => { c with read := none, blindFail := satInc c.blindFail }) j.req j.leafIdx true
  | none => s

/-! ## Soft values (R84) -/

/-- A soft value from the logarithm of P(bit is 0) ÷ P(bit is 1): four times it, rounded to the nearest integer, a half
upwards (DESIGN CHOICE, log entry 110), and saturated at ±31. -/
def llrOf (r : Qty) : Int := satAt 31 ((4 * r + 1 / 2).floor)

/-- The scrambler's output bits for a position. -/
def scramBits (p : Pos) (n : Nat) : List Bool := scramble (scrambleSeed p) (List.replicate n false)

/-- The frame bit that carries a codeword bit (Table 3.2). -/
def codeFrameBit (i : Nat) : Nat := if i < 3920 then 272 + i else 320 + i

/-- The soft values of a codeword from the detector's output by frame bit: polarity, descrambling, erasures. -/
def softValues (p : Pos) (n : Nat) (inverted : Bool) (det : Nat → Qty) (erased : Nat → Bool) : List Soft :=
  (scramBits p n).zipIdx.map fun (b, i) =>
    let f := codeFrameBit i
    if erased f then ⟨true, 0⟩
    else
      let l := llrOf (det f)
      ⟨false, if b != inverted then -l else l⟩

/-- Two reads' soft values added (R125). -/
def softSum (a b : List Soft) : List Soft :=
  List.zipWith (fun (x y : Soft) =>
    match x.erase, y.erase with
    | true, true => ⟨true, 0⟩
    | true, false => y
    | false, true => x
    | false, false => ⟨false, satAt 31 (x.llr + y.llr)⟩) a b

/-! ## A codeword complete (R32, R87, R101, R109) -/

/-- The mean square of a list. -/
def meanSq (l : List Qty) : Qty := if l.isEmpty then 0 else (l.map fun x => x * x).foldl (· + ·) 0 / l.length

/-- The error power as a field of RD_MSE: rounded down, and 7FFFh where it exceeds the
field (DESIGN CHOICE, log entry 112). -/
def mseField (e : Qty) : BitVec 15 := BitVec.ofNat 15 (min 0x7FFF (e * 32768).floor.toNat)

/-- The boost trial of Table 4.5 after bits at an error power: every 4,194,304 bit periods the trial in progress is kept if
the error power has fallen by 1 % or more, else undone, and a step of 0.5 dB is tried next; `up`: its direction. -/
def boostStep (c : ChanRec) (n : Nat) (err : Qty) (up : Bool) : ChanRec :=
  if c.trialBits + n < 4194304 then { c with trialBits := c.trialBits + n }
  else
    let kept := match c.trial with
      | some t => if err ≤ 99 / 100 * t.err then c.boost else t.was
      | none => c.boost
    { c with trialBits := 0, boost := if up then min 24 (kept + 1) else kept - 1, trial := some ⟨kept, err⟩ }

/-- What a codeword read on an actuator leaves in the channel: adapted values, the timing loop, error powers, the runs of R75
and R101, and the sample buffer. -/
def chanAfter (s : State) (a : Nat) (run : ChanRun) (tm : Timing) (n : Nat) (slewing : Bool) (eJoint eL eT : Qty) : State :=
  let c := chanAt s a
  let saved := match c.loaded with | some (f, z) => (savedRec s f z).err | none => 0
  let surface := match c.loaded with | some (f, _) => f | none => 0
  let bad := fun (t : Bool) (e other : Qty) (l : List (Nat × Nat)) =>
    assocSet l (surface * 2 + bit t)
      (if 4 * other < e ∧ 2 * saved < e then lookupD l (surface * 2 + bit t) 0 + 1 else 0)
  let s := onChan s a fun c => { c with
    read := none, outQ := [], tim := tm,
    adapted := if slewing then run.rec_ else boostStep run.rec_ n eJoint (Config.boostUp s.freeCtr),
    errs := (eJoint :: c.errs).take 16,
    highRun := if 3 / 2 * saved < eJoint then c.highRun + 1 else 0,
    mseL := if mseStale s a false then c.mseL else mseField eL,
    mseT := if mseStale s a true then c.mseT else mseField eT,
    badRun := bad true eT eL (bad false eL eT c.badRun) }
  afeApply { s with freeCtr := s.freeCtr + 1 } a

/-- The soft values join the queue as the leaf's ladder has it: the first read at step 0 or 1 (R116), the second read at
step 2 (kept aside while step 1 runs), the third added to the second at step 3 (R125). -/
def codewordQueued (s : State) (j : ReadJob) (strength : Nat) (soft : List Soft) : State :=
  let s := onLeaf s j.req j.leafIdx fun l => { l with unsure := j.unsure }
  match leafBy s j.req j.leafIdx with
  | none => s
  | some l =>
    if l.phase = .reading then
      let st := firstStep strength soft
      let s := if st = 1 then { s with grt.enter1 := satInc s.grt.enter1 } else s
      queueCodeword s j.req j.leafIdx st soft
    else if l.reread then
      let s := onLeaf s j.req j.leafIdx fun l => { l with reread := false, phase := .ladder }
      if l.step ≤ 1 then onLeaf s j.req j.leafIdx fun l => { l with soft := some soft, ahead := true }
      else if l.step = 2 then queueCodeword s j.req j.leafIdx 2 soft
      else queueCodeword s j.req j.leafIdx 3 (match l.soft with | some a => softSum a soft | none => soft)
    else s

/-- The high-pass corners after a frame: a lane that met a thermal asperity keeps 8 MHz for 256 bit periods from it (R85). -/
def highPassAfter (s : State) (a : Nat) (x : ReadSpan) : State :=
  let c := (chanAt s a).adapted
  let one := fun (s : State) (t : Bool) (l : List Qty) (env : Qty) =>
    let last := (List.range l.length).reverse.find? fun k => asperityAt l env k
    onLane s (laneServing s a t) fun ln => { ln with afe := { ln.afe with
      fastHp := match last with | some k => 256 - (l.length - 1 - k) | none => 0 } }
  one (one s false x.lead c.lead.env) true x.trail c.trail.env

/-- The condition of R103 on a capture: the spindle steady within ±0.05 %, the values converged, no lane switched. -/
def irateReady (s : State) (a : Nat) : Bool :=
  s.spn.state = .running && speedWithin s (5 / 10000) && chanConverged s a && !switching s a false && !switching s a true

/-- A codeword added to the capture of R103, which keeps the newest five, 2²⁰ bit periods or more; or the capture discarded: a
speed change, a defect, a lane switch interrupts it. -/
def captureAdd (s : State) (a : Nat) (j : ReadJob) (x : ReadSpan) (t0 n : Nat) (det : Nat → Qty) : State :=
  let clean := (List.range n).all fun k => !x.badL (t0 + k) && !x.badT (t0 + k)
  let k : Capture := ⟨j.req, j.leafIdx, j.pos, slice x.lead t0 n, slice x.trail t0 n, (List.range n).map det, none⟩
  onChan s a fun c => { c with cap := if irateReady s a && clean then (k :: c.cap).take 5 else [] }

/-- CODEWORD_COMPLETE: a located frame is equalised and detected from its buffered samples and those that follow, up to 32 bit
periods or more beyond its codeword; its soft values enter the store, those before frame bit 4,240 from the replay where one
ran, and the codeword joins the shared grate queue. -/
def codewordComplete (s : State) (a : Fin 4) (smp : Samples) : State :=
  match (chanAt s a).read with
  | none => s
  | some j =>
    match ringAt s j.pos.surface j.pos.ring with
    | none => s
    | some ring =>
      if ¬ j.located then s
      else
        let c := chanAt s a
        let all : Samples := ⟨c.buf.lead ++ smp.lead, c.buf.trail ++ smp.trail⟩
        let n := codeBits ring.strength
        let x := streamOf s a j all c.bufAt (some j.locAt)
        let t0 := (j.start - c.bufAt).toNat           -- the place of the frame's first bit
        let run := chanRun x c.adapted ((t0 + n + 384) / 64 + 2)
        let det := fun (f : Nat) =>
          if j.replay ≠ [] ∧ 80 ≤ f ∧ f < 4240 then j.replay.getD (f - 80) 0
          else match c.outQ[(j.start + 256).toNat + f]? with
            | some v => v
            | none => run.det.getD (t0 + f) 0
        let hard := fun (f : Nat) => decide (det f < 0)
        let z := fun f => idealOut c.adapted fun k => decide (k ≤ f) && hard (f - k)
        let bits := (List.range n).map codeFrameBit
        let zp := meanSq (bits.map z)
        let pow := fun (o : Nat → Qty) => if zp = 0 then 0 else meanSq (bits.map fun f => o f - z f) / zp
        let from_ := fun (src : EqSource) (f : Nat) => eqFrom c.adapted x.lead x.trail src (t0 + f)
        let soft := softValues j.pos n j.inverted det fun f => x.badL (t0 + f) && x.badT (t0 + f)
        let tm := timingRun j x run (-c.bufAt).toNat c.tim
        let s := onChan s a fun c => { c with buf := lastSamples all, bufAt := c.bufAt + all.lead.length - min 16384 all.lead.length }
        let s := highPassAfter s a x
        let s := chanAfter s a run tm n x.slewing (pow fun f => run.ys.getD (t0 + f) 0) (pow (from_ .leadOnly)) (pow (from_ .trailOnly))
        let s := captureAdd s a j x t0 (n + 384) det
        let s := spansNoted s j.pos (spansOf ((List.range (n + 384)).map fun f => x.defL.getD (t0 + f) false || x.defT.getD (t0 + f) false))
        codewordQueued s j ring.strength soft

/-! ## Information rate (R103, R104, R108) -/

/-- A captured codeword has decoded: its written bits are rebuilt, with the frame fields restored (R103). One that has not, or
whose leaf fails, interrupts the capture. -/
def captureDecoded (s : State) (a : Nat) (id : ReqId) (idx : Nat) (res : Option Leaf) : State :=
  onChan s a fun c => { c with cap := match res with
    | some lf => c.cap.map fun k => if k.req = id ∧ k.leafIdx = idx ∧ k.bits.isNone then
        { k with bits := some (frameStream k.pos lf (encodeLeaf lf.strength (leafBytes lf))) } else k
    | none => if c.cap.any fun k => k.req = id ∧ k.leafIdx = idx ∧ k.bits.isNone then [] else c.cap }

/-- The capture of 2²⁰ bit periods, once its codewords have all decoded and reach that many: the readers' samples, the written
bits, and the detector's output, frame by frame. -/
def captureDone (s : State) (a : Nat) : Option (List (List Qty × List Qty × List Bool × List Qty)) :=
  let cap := (chanAt s a).cap
  let got := cap.filterMap fun k => k.bits.map fun b => (k.lead, k.trail, b, k.det)
  if got.length = cap.length ∧ 1048576 ≤ ((got.map fun k => k.1.length).foldl (· + ·) 0 : Nat) then some got else none

/-- The detector rate of R104: 1 − (1 ÷ n) × Σ log₂(1 + exp(−s_k × λ_k)) over the captured codeword bits, λ_k the live LLR ÷ 4
and s_k +1 for a 0. -/
def detectorRate (cap : List (List Qty × List Qty × List Bool × List Qty)) : Qty :=
  let terms := cap.flatMap fun k => (List.range (k.2.2.1.length - 384)).map fun i =>
    let f := codeFrameBit i
    let l : Qty := (llrOf (k.2.2.2.getD f 0) : Qty) / 4
    lnQ (1 + expQ (if k.2.2.1.getD f false then l else -l)) / ln2Q
  1 - terms.foldl (· + ·) 0 / max 1 terms.length

/-- The gap of R104 in 0.01 dB: the least Δ at which the bound on synthesised outputs is at most I_D. -/
def rateGap (cap : List (List Qty × List Qty × List Bool)) (det : Qty) : Nat :=
  ((List.range 4096).find? fun d => Config.irateSynth cap d ≤ det).getD 4095

/-- The results of one measurement stored and shown; a gap above 0.7 dB is recorded. -/
def irateStore (s : State) (a head zone : Nat) (bound det : Qty) (gap : Nat) : State :=
  let f16 := fun (x : Qty) => BitVec.ofNat 16 (min 0xFFFF (x * 65536).floor.toNat)
  let s := onChan s a fun c => { c with
    irValid := true, irHead := BitVec.ofNat 3 head, irZone := BitVec.ofNat 12 zone,
    irBound := f16 bound, irDet := f16 det, irGap := BitVec.ofNat 12 (min 0xFFF gap), cap := [] }
  if 70 < gap then ashRecord s 0x44 255 (.head (8 * a + head)) [1, gap] else s

/-- A measurement from the capture of an actuator's head and zone, where the capture is whole (R103, R104). -/
def irateTake (s : State) (a : Nat) : Option State :=
  match (chanAt s a).loaded, captureDone s a with
  | some (f, z), some cap =>
    if ¬ irateReady s a then none
    else
      let c3 := cap.map fun k => (k.1, k.2.1, k.2.2.1)
      let det := detectorRate cap
      some (irateStore s a (f % 8) z (Config.irateBound c3) det (rateGap c3 det))
  | _, _ => none

/-- IRATE1_READ (R108): a read of ACTn_IRATE1 captures ACTn_IRATE0 of the same measurement. -/
def irate1Read (s : State) (a : Fin 4) : State := regReadTo s (6 + a) 0x144

end Sys2Proof.Machine
end

