-- ==== Sys2Proof/Machine/Grates.lean ====
section
/-! DEFINITION. The decoder pool and the collector (chapter 5): grates, results, the leaf checks, the ladder's outcomes. -/
namespace Sys2Proof.Machine
open Sys2Proof

/-- A grate by number. -/
def grateAt (s : State) (g : Nat) : Grate := vget s.grt.grate g ⟨false, true, none, none, [], none, 0⟩
/-- A grate changed. -/
def onGrate (s : State) (g : Nat) (f : Grate → Grate) : State := { s with grt.grate := vmod s.grt.grate g f }

/-- Grates in service. -/
def gratesIn (s : State) : Nat := (s.grt.grate.toList.filter (·.inService)).length

/-! ## Faults and spares (R126, R127) -/

/-- A grate is declared faulty: its present result is discarded, so that a codeword it holds finished is decoded again with its
working codeword and the one in its input buffer, at the head of the queue; a spare comes into service in its place. The last
grate is never retired: its fault is class 3. -/
def grateFault (s : State) (g : Nat) : State :=
  let x := grateAt s g
  if x.failed then s
  else if ¬ x.inService then
    fault1 { onGrate s g (fun x => { x with failed := true }) with str.gratesLeft := s.str.gratesLeft - 1 } (.grate g) 0x24 [2, g]
  else if gratesIn s = 1 then failStop s 5 (.grate g)
  else
    let s := { s with grt.queue := ((x.heldBack.toList.map (·.cw)) ++ x.working.toList ++ x.inputBuf.toList).filter (fun c => !c.dead) ++ s.grt.queue }
    let s := onGrate s g fun x => { x with inService := false, failed := true, working := none, inputBuf := none, heldBack := none }
    match (List.range 14).find? fun i => ¬ (grateAt s i).inService ∧ ¬ (grateAt s i).failed with
    | some i =>
      spareUsed { onGrate s i (fun x => { x with inService := true, sinceKat := 0 }) with str.gratesLeft := s.str.gratesLeft - 1 }
        (.grate g) (.grate i)
    | none => budgetSpent s (.grate g)

/-- GRATE_KAT_DUE (R126): after 65,536 codewords an in-service grate runs its known-answer test. -/
def grateKatDue (s : State) (g : Fin 14) (pass : Bool) : State :=
  let x := grateAt s g
  if ¬ x.inService ∨ x.sinceKat < 65536 then s
  else
    let s := onGrate s g fun x => { x with sinceKat := 0 }
    if pass then s else grateFault s g

/-- SPARE_GRATE_KAT (R126): every hour a spare grate runs its test. -/
def spareGrateKat (s : State) (g : Fin 14) (pass : Bool) : State :=
  let x := grateAt s g
  if x.inService ∨ x.failed ∨ pass then s else grateFault s g

/-! ## Taking a codeword (R32, R34, R114, R116, R123) -/

/-- Grates take no codeword: a banking sequence runs, and where MARGIN_WARN started it the warning has not cleared. -/
def gratesPaused (s : State) : Bool := !blkEn s 5 || s.pwr.banking && (s.pwr.warn || decide (s.pwr.cause ≠ some .marginWarn))

/-- Grate time of an activity over the last second, in nanoseconds (R34). A decode counts whole at its end
(DESIGN CHOICE, log entry 118). -/
def grateUse (s : State) (activity : Nat) : Nat :=
  ((s.grt.busy.filter fun b => b.1 = activity ∧ s.time < b.2.1 + 1000000).map (·.2.2)).foldl (· + ·) 0

/-- A background codeword is held back: Q above 0 and its activity's share of grate time used up. -/
def codewordHeld (s : State) (c : Codeword) : Bool :=
  decide (c.activity ≠ 0 ∧ s.spn.draftQ ≠ 0 ∧ actShare s c.activity * gratesIn s * 10000000 ≤ grateUse s c.activity)

/-- The codeword a free grate takes: the first that is not held back; held ones wait behind host codewords, so that with no other
codeword queued the oldest of them is taken (DESIGN CHOICE, log entry 118). -/
def nextCodeword (s : State) : Option (Nat × Codeword) :=
  let q := s.grt.queue.zipIdx.map fun p => (p.2, p.1)
  match q.find? fun p => ¬ codewordHeld s p.2 with
  | some p => some p
  | none => q.head?

/-- GRATE_TAKE_CODEWORD: a free in-service grate takes the next eligible codeword, to work on or into its input buffer. -/
def grateTakeCodeword (s : State) (g : Fin 14) : State :=
  let x := grateAt s g
  if ¬ x.inService ∨ gratesPaused s ∨ x.heldBack.isSome ∨ x.inputBuf.isSome then s
  else match nextCodeword s with
    | none => s
    | some (i, c) =>
      let s := { s with grt.queue := s.grt.queue.eraseIdx i }
      onGrate s g fun x => if x.working.isNone then { x with working := some c } else { x with inputBuf := some c }

/-! ## Finishing a codeword (R115 to R119) -/

/-- A result posted to a grate's slot, or held back while both entries are full (R119). -/
def postResult (x : Grate) (r : GrateResult) : Grate :=
  if x.slot.length < 2 then { x with slot := x.slot ++ [r] } else { x with heldBack := some r }

/-- The grate goes on with the codeword in its input buffer unless it holds a result back. A banking sequence does not take a
codeword in the input buffer from the grate: it counts among those the grate holds (R123; DESIGN CHOICE, log entry 119). -/
def grateGoOn (x : Grate) : Grate :=
  if x.heldBack.isNone ∧ x.working.isNone then { x with working := x.inputBuf, inputBuf := none } else x

/-- GRATE_DECODE_DONE: the codeword converges, reaches its limit, or is undecodable by its erased count, and its result
record is posted. `bad`: the grate's syndrome checker finds a non-zero syndrome in a codeword reported as converged. -/
def grateDecodeDone (s : State) (g : Fin 14) (bad : Bool) : State :=
  let x := grateAt s g
  match x.working, x.heldBack with
  | some c, none =>
    let d := decodeSoft c.strength c.step (stepLimit s c.step c.scrub) c.soft
    if d.status = 0 ∧ bad then grateFault s g
    else
      let r : GrateResult := ⟨c.req, c.leafIdx, g, d.status, d.iter, c.step, d.corrected, d.erased, d.info, c⟩
      let ns := d.iter * 16 * (514 + (codeParams c.strength).1)
      let s := { s with grt.busy := (c.activity, s.time, ns) :: s.grt.busy.filter fun b => s.time < b.2.1 + 1000000 }
      onGrate s g fun x => grateGoOn (postResult { x with working := none, sinceKat := x.sinceKat + 1 } r)
  | _, _ => s

/-! ## The collector and the leaf checks (R118 to R124, R128) -/

/-- The grate served next: round-robin from the one after the last, those with an empty slot skipped. -/
def nextServed (s : State) : Option Nat :=
  ((List.range 14).map fun i => (s.grt.last + 1 + i) % 14).find? fun g => ¬ (grateAt s g).slot.isEmpty

/-- What a leaf's decode leads to: released with its event, rebuilt after a failed check, or a step up the ladder. -/
def hobJudge (s : State) (r : GrateResult) : State :=
  match reqBy s r.req, leafBy s r.req r.leafIdx with
  | some q, some l =>
    if r.cw.dead ∨ leafSettled l ∨ l.phase = .rebuilding then s
    else
      let s := onLeaf s r.req r.leafIdx fun l => { l with lastIter := r.iter, lastCorrected := r.corrected, grate := r.grate }
      if r.status = 0 then
        let lf := leafOfBytes r.info
        if leafPasses l.pos l.kinds ((l.stripe.map fun st => (st, l.piece)) <|> l.home) lf then
          let s := captureDecoded s (actOf l.pos.surface) r.req r.leafIdx (some lf)
          let s := if r.step ≥ 1 ∨ ceIter s < r.iter then ceEvent s l.pos r.step r.iter r.corrected else s
          let s := if q.purpose = .scrub ∧ r.step = 0 ∧ r.iter ≤ ceIter s then ceClear s l.pos else s
          leafDone s r.req r.leafIdx (some lf) r.corrected r.step
        -- R95: without a header the checks decide what the frame is, and a failure is a decode failure
        else if r.cw.unsure then ladderFail (captureDecoded s (actOf l.pos.surface) r.req r.leafIdx none) r.req r.leafIdx r.step false
        else
          let s := captureDecoded { s with grt.miscor := satInc s.grt.miscor } (actOf l.pos.surface) r.req r.leafIdx none
          if l.stripe.isSome then ladderStep4 s r.req r.leafIdx true else ladderFail s r.req r.leafIdx r.step false
      else ladderFail (captureDecoded s (actOf l.pos.surface) r.req r.leafIdx none) r.req r.leafIdx r.step (r.status = 2)
  | _, _ => s

/-- COLLECTOR_SERVE: one result entry is served, the older of its grate's slot; the grate posts a result it held back; the
hob judges the leaf. -/
def collectorServe (s : State) : State :=
  match nextServed s with
  | none => s
  | some g =>
    match (grateAt s g).slot with
    | [] => s
    | r :: rest =>
      let s := { onGrate s g (fun x =>
          let x := { x with slot := rest }
          match x.heldBack with
          | some h => grateGoOn (postResult { x with heldBack := none } h)
          | none => x) with grt.last := g }
      rebuildDue (laneJudge (hobJudge s r) r.cw.act)

/-! ## Registers of chapter 5 -/

/-- GRT_MAP (R136). -/
def grtMap (s : State) : Word :=
  let bits := fun (f : Grate → Bool) => (s.grt.grate.toList.zipIdx.map fun p => if f p.1 then 2 ^ p.2 else 0).foldl (· + ·) 0
  packFields [(28, 2, s.str.gratesLeft), (14, 14, bits (·.failed)), (0, 14, bits (·.inService))]

/-- Word w of entry i of a leaf log (Table 5.15). -/
def ceLogWord (e : CeEntry) (w : Nat) : Word :=
  match w with
  | 0 => packFields [(24, 8, e.surface), (0, 16, e.ring)]
  | 1 => packFields [(16, 16, e.slot), (8, 8, e.hits), (7, 1, bit e.valid), (4, 3, e.step)]
  | 2 => packFields [(26, 6, e.iter), (0, 20, e.corrected)]
  | _ => BitVec.ofNat 32 e.hours

end Sys2Proof.Machine
end

