-- ==== Sys2Proof/Machine/WritePath.lean ====
section
/-! DEFINITION. Write path and preamplifier link (chapter 6): encoding a leaf, starting and finishing a frame, the verify
read, head switches, preamplifier faults, and the flip-mask checker test of chapter 5. -/
namespace Sys2Proof.Machine
open Sys2Proof

/-- An actuator's write path. -/
def wrAt (s : State) (a : Nat) : WrAct := vget s.wrt.act a {}
/-- An actuator's write path changed. -/
def onWr (s : State) (a : Nat) (f : WrAct → WrAct) : State := { s with wrt.act := vmod s.wrt.act a f }

/-! ## Encoding (R30, R111, R112) -/

/-- The bits of a codeword at the given places inverted. -/
def flipBits (cw : List Bool) (ps : List Nat) : List Bool := cw.zipIdx.map fun p => p.1 != decide (p.2 ∈ ps)

/-- The first queued leaf of an actuator, with its place in the queue. -/
def nextJob (s : State) (a : Nat) : Option (Nat × FrameJob) :=
  (s.wrt.queue.zipIdx.find? fun p => actOf p.1.pos.surface = a).map fun p => (p.2, p.1)

/-- Leaves held or being written; the buffer holds two (R30). -/
def wrHeld (w : WrAct) : Nat := w.buffer.length + (if w.frame.isSome then 1 else 0)

/-- LEAF_ENCODE: the actuator's next leaf is encoded and its syndrome checked before it counts as held. `flips`: codeword
bits that a faulty encoder gets wrong. A leaf that fails is encoded again. Failures on two consecutive leaves put the write path
out of service, as does a leaf that fails again when it is encoded again (log entry 120). -/
def leafEncode (s : State) (a : Fin 4) (flips : List Nat) : State :=
  let w := wrAt s a
  match nextJob s a with
  | none => s
  | some (i, j) =>
    if 2 ≤ wrHeld w ∨ w.outOfService then s
    else
      let cw := flipBits (encodeLeaf j.leaf.strength (leafBytes j.leaf)) flips
      let again := decide (w.encAgain = some j.pos)
      if syndromeZero j.leaf.strength cw then
        onWr { s with wrt.queue := s.wrt.queue.eraseIdx i } a fun w =>
          { w with buffer := w.buffer ++ [(j, cw)], encFails := if again then w.encFails else 0, encAgain := none }
      else
        let s := onWr s a fun w => { w with slips := satInc w.slips, encFails := w.encFails + 1, encAgain := some j.pos }
        if 2 ≤ w.encFails + 1 then writePathOut s a else s

/-! ## Write gate and write data (R142 to R144) -/

/-- The transitions of driven bits with the amounts that precompensation shifts them earlier (R143). `d`: bit periods from the
transition before, none where it lies 4 or more away; `prev`: the bit before; `i`: the bit's number. -/
def precomp (pc : List Nat) : Option Nat → Bool → Nat → List Bool → List (Nat × Nat)
  | _, _, _, [] => []
  | d, prev, i, b :: bs =>
    if b = prev then precomp pc (d.map (· + 1)) prev (i + 1) bs
    else (i, match d with | some k => if 1 ≤ k ∧ k ≤ 3 then pc.getD (k - 1) 0 else 0 | none => 0) ::
      precomp pc (some 1) b (i + 1) bs

/-- Write gate and write data of a frame (Table 6.1): `dz`: bits of a data field; `st`: the stream bit of the frame's first bit;
`high`: the gate is high from the frame before; `falls`: the next slot is not written at once. Where fewer than 48 bits of the
data field lie before the frame, the gate rises at cell 224 (log entry 121). The pad bits under the gate repeat the pattern in
phase. -/
def gatePulses (dz st : Nat) (frame : List Bool) (pc : List Nat) (high falls : Bool) : List GatePulse :=
  let a := if high then st else if st % dz < 48 then st - st % dz else st - 48
  let b := if falls then st + frame.length - 16 else st + frame.length
  let all := (pattern1100 16).drop (64 - (st - a)) ++ frame
  (List.range' (a / dz) ((b + dz - 1) / dz - a / dz)).map fun f =>
    let lo := max a (f * dz)
    let hi := min b ((f + 1) * dz)
    let bits := slice all (lo - a) (hi - lo)
    let rise := if lo = f * dz then some (.cell 224) else if high then none else some (.dataBit (lo - f * dz))
    let fall := if hi = (f + 1) * dz ∨ falls then some (.dataBit (hi - f * dz)) else none
    ⟨f, rise, fall, bits, precomp pc (if lo = f * dz then none else some 2) false 0 bits⟩

/-- The pulses of a leaf's frame; none where the media have no geometry for it. -/
def framePulses (s : State) (a : Nat) (j : FrameJob) (cw : List Bool) (high falls : Bool) : List GatePulse :=
  match ringAt s j.pos.surface j.pos.ring with
  | none => []
  | some r => match s.media.zones[r.zone]? with
    | none => []
    | some z =>
      let l := framesPerTrack z.dz r.strength
      if l = 0 ∨ z.dz = 0 then []
      else gatePulses z.dz (slotStartBit r l j.pos.slot) (frameStream j.pos j.leaf cw) (chanAt s a).adapted.pc high falls

/-! ## Frames (R146 to R151) -/

/-- The speed lets a frame start: in the window, or, during the banking sequence, at 3,600 rpm or more while the speed changes by
at most 30 % per second (R99, R146); no ember frame starts after 500 ms (R516). -/
def speedAllows (s : State) (j : FrameJob) (rate : Qty) : Bool :=
  if s.pwr.banking then
    decide (3600 ≤ s.spn.speed ∧ absQ rate ≤ 30 / 100 * s.spn.speed) &&
      (decide (j.leaf.kind ≠ .ember) || decide (s.time < s.pwr.startAt + 500000))
  else windowOpen s

/-- The ring rules let a slot be written: any slot of a conventional ring; of a shingled one the slot at the write
pointer, or the one just below it, which only an abort or a failed verify sends here again (R149, R150). -/
def ringAllows (s : State) (p : Pos) : Bool :=
  match ringAt s p.surface p.ring with
  | some r => conventional r.role || decide (p.slot = r.wp ∨ p.slot + 1 = r.wp)
  | none => false

/-- A frame may start: speed, inhibit and holds allow it, the preamplifier has the head, the loop follows the slot's track for
writing, and the servo has just passed the wedge of the slot's first bit. -/
def frameMayStart (s : State) (a : Nat) (j : FrameJob) (rate : Qty) : Bool :=
  let w := wrAt s a
  let l := vget s.srv.loop a {}
  blkEn s (6 + a) && speedAllows s j rate && l.wrPermit && !l.inhibit && !w.changePend && w.holdUntil.isNone && decide (w.paReady ≤ s.time) &&
    decide (w.paSel = some (j.pos.surface % 8) ∧ l.surface = j.pos.surface) && headWrites s j.pos.surface && w.readback.isEmpty &&
    ringAllows s j.pos && decide (trackTarget s j.pos true = some l.target) &&
    (match predictedStart s j.pos with | some p => decide (l.wedge = some p.1) | none => false)

/-- The waiting leaves wait for a speed change or for the window: no revolution slips (R147). -/
def speedWaits (s : State) (a : Nat) : Bool := (wrAt s a).changePend || (!s.pwr.banking && !windowOpen s)

/-- A leaf that failed its verifies is handled by kind (R152). The spec says neither which bits the defect entry covers, here none
in particular: first bit 0, length 0; nor where an index leaf goes whose index group is no longer open, here into another one
(DESIGN CHOICE, log entry 123). -/
def verifyGivenUp (s : State) (j : FrameJob) : State :=
  match j.leaf.kind with
  | .index =>
    let s := defectAdd s ⟨j.pos, 0, 0⟩
    match j.uid with
    | some u =>
      let gid := stripeGroup j.leaf.stripe
      let s := onStaged s u fun l => { l with place := none }
      match groupById s gid with
      | some g => if g.state = .opened then placeIn s gid u else formLeaf s u
      | none => formLeaf s u
    | none => s
  | .cornerstone => defectAdd s ⟨j.pos, 0, 0⟩
  | _ => relocateSlot s j.pos

/-- FRAME_WRITE: the frame of the leaf held longest starts and write gate rises, or stays high from the frame before. With a leaf
queued and none held, the leaf is written on a later revolution and a slip counted; leaves that wait for the speed are not
counted. A rewrite after a failed verify whose slot the ring rules no longer allow is handled as after a second failure (R152).
A gate left high for a frame that does not start falls. `rate`: the speed's rate of change in rpm per second. -/
def frameWrite (s : State) (a : Fin 4) (rate : Qty) : State :=
  let w := wrAt s a
  match w.buffer, w.frame with
  | [], none =>
    let s := gateFall s a
    if (nextJob s a).isSome ∧ ¬ speedWaits s a then onWr s a fun w => { w with slips := satInc w.slips } else s
  | (j, cw) :: rest, none =>
    if frameMayStart s a j rate then
      let s := onWr s a fun w =>
        { w with buffer := rest, frame := some (j, cw), gate := true, pulses := framePulses s a j cw w.gate false }
      onRing s j.pos.surface j.pos.ring fun r => { r with wp := max r.wp (j.pos.slot + 1) }
    else
      let s := gateFall s a
      if j.fails ≠ 0 ∧ ¬ ringAllows s j.pos then cornerPump (verifyGivenUp (onWr s a fun w => { w with buffer := rest }) j) else s
  | _, _ => s

/-- The next slot of the track is written at once: its leaf is held longest and may start. -/
def nextAtOnce (s : State) (a : Nat) (p : Pos) : Bool :=
  match (wrAt s a).buffer, ringAt s p.surface p.ring with
  | (j, _) :: _, some r =>
    let l := match s.media.zones[r.zone]? with | some z => framesPerTrack z.dz r.strength | none => 1
    decide (j.pos = ⟨p.surface, p.ring, p.slot + 1⟩ ∧ p.slot / l = (p.slot + 1) / l) && frameMayStart s a j 0
  | _, _ => false

/-- A leaf counts as written only after its verify (Table 6.3). -/
def needsVerify (s : State) (j : FrameJob) : Bool :=
  j.leaf.kind = .index || j.leaf.kind = .cornerstone ||
    (j.leaf.kind ≠ .ember && j.uid.any fun u => (stagedBy s u).any fun l => !l.emberCopies.isEmpty || l.mramGroup.isSome)

/-- An ember copy complete: with the second on another actuator its leaf leaves the dirty count (R397, R516). -/
def emberWritten (s : State) (j : FrameJob) : State :=
  match j.uid with
  | none => s
  | some u =>
    let s := onStaged { s with pwr.ringBytes := s.pwr.ringBytes + 32768 } u fun l => { l with emberCopies := l.emberCopies ++ [j.pos] }
    match stagedBy s u with
    | some l => if 2 ≤ (l.emberCopies.map fun p => actOf p.surface).dedup.length then leafDurable s u else s
    | none => s

/-- FRAME_WRITE_COMPLETE: the frame in progress ends; write gate falls at pad bit 48 unless the next slot is written at once, and
the media hold the frame bits; its leaf counts as written or awaits its verify. -/
def frameWriteComplete (s : State) (a : Fin 4) : State :=
  match (wrAt s a).frame with
  | none => s
  | some (j, cw) =>
    let s := onWr s a fun w => { w with frame := none }
    let go := nextAtOnce s a j.pos
    let s := onWr s a fun w =>
      { w with gate := go, pulses := framePulses s a j cw (w.pulses.head?.any fun p => p.rise.isNone) (!go) }
    let s := mediaPut s ⟨j.pos, j.leaf, frameStream j.pos j.leaf cw, true⟩
    if needsVerify s j then onWr s a fun w => { w with verify := w.verify ++ [j] }
    else if j.leaf.kind = .ember then emberWritten s j
    else releaseStaged (match j.uid with | some u => leafDurable s u | none => s)

/-! ## Verify reads (R151, R152) -/

/-- MRAM groups that no leaf needs any more give their space back (R521). -/
def mramPrune (s : State) : State :=
  { s with ember.mram := s.ember.mram.filter fun g => (s.stg.leaves ++ s.ember.copies).any fun l => l.mramGroup = some g.id }

/-- A verified leaf counts as written; its ember slots and its MRAM space are released. -/
def verifyPassed (s : State) (j : FrameJob) : State :=
  match j.uid with
  | some u => mramPrune (releaseStaged (onStaged (leafDurable s u) u fun l => { l with emberCopies := [], mramGroup := none }))
  | none => releaseStaged s

/-- A verify read's soft values decoded at step 0: whether it passes (R151), with the counters of chapter 5: a miscorrection for a
leaf that converges and fails the checks of R120, and an event for one that passes them too late. -/
def verifyDecode (s : State) (j : FrameJob) (soft : Option (List Soft)) : State × Bool :=
  match soft with
  | none => (s, false)
  | some x =>
    let home := if j.leaf.kind = .cornerstone then none else some (j.leaf.stripe, j.leaf.piece)
    let d := decodeSoft j.leaf.strength 0 (iterFirst s) x
    if d.status ≠ 0 then (s, false)
    else if ¬ leafPasses j.pos [j.leaf.kind] home (leafOfBytes d.info) then ({ s with grt.miscor := satInc s.grt.miscor }, false)
    else if ceIter s < d.iter then (ceEvent s j.pos 0 d.iter d.corrected, false)
    else (s, true)

/-- A leaf goes to the head of the queue to be written again in its slot; leaves of its ring already in the write buffer follow
it, so that no higher slot is written first (R149, R152). -/
def rewriteFirst (s : State) (j : FrameJob) : State :=
  let s := buffersBack s fun k => decide (¬ (k.pos.surface = j.pos.surface ∧ k.pos.ring = j.pos.ring))
  { s with wrt.queue := j :: s.wrt.queue }

/-- VERIFY_READ: a written leaf is read back on a later pass. `i`: its place among those that await a verify; `soft`: its
soft values, none when the frame is not located. -/
def verifyRead (s : State) (a : Fin 4) (i : Nat) (soft : Option (List Soft)) : State :=
  match (wrAt s a).verify[i]? with
  | none => s
  | some j =>
    let (s, ok) := verifyDecode (onWr s a fun w => { w with verify := w.verify.eraseIdx i }) j soft
    if ok then cornerPump (verifyPassed s j)
    else
      let s := onWr s a fun w => { w with verifyFail := satInc w.verifyFail }
      let again := if j.leaf.kind = .cornerstone then decide (j.fails < 2)
        else decide (j.fails = 0) && (match ringAt s j.pos.surface j.pos.ring with
          | some r => conventional r.role || decide (j.pos.slot + 1 = r.wp)
          | none => false)
      if again then rewriteFirst s { j with fails := j.fails + 1 } else cornerPump (verifyGivenUp s j)

/-! ## Preamplifier (R153 to R156) -/

/-- A field of a preamplifier register replaced. -/
def paPut (regs : List (Nat × Nat)) (fn : Nat × Nat × Nat) (v : Nat) : List (Nat × Nat) :=
  let (addr, lsb, width) := fn
  if width = 0 then regs
  else
    let old := lookupD regs addr 0
    let keep := old % 2 ^ lsb + old / 2 ^ (lsb + width) * 2 ^ (lsb + width)
    assocSet regs addr (keep + v % 2 ^ width * 2 ^ lsb)

/-- A transaction of the serial port (R153): bit 23 set for a read, the register address and the data. -/
def paWord (read : Bool) (addr data : Nat) : BitVec 24 :=
  BitVec.ofNat 24 (bit read * 2 ^ 23 + addr % 128 * 2 ^ 16 + data % 2 ^ 16)

/-- Values written to the functions of PA_MAP one after another: the registers, and a write transaction for each. -/
def paWriteAll (regs : List (Nat × Nat)) (vals : List ((Nat × Nat × Nat) × Nat)) : List (Nat × Nat) × List (BitVec 24) :=
  vals.foldl (fun st p =>
    let r := paPut st.1 p.1 p.2
    (r, if p.1.2.2 = 0 then st.2 else st.2 ++ [paWord false p.1.1 (lookupD r p.1.1 0)])) (regs, [])

/-- The thermal-diode reading in use: the first diode's, or the other's where the first failed its calibration; none with both
failed (Table 18.5). -/
def diodeRead (s : State) (d : Qty × Qty) : Option Qty :=
  if ¬ s.cal.diodeBad[0] then some d.1 else if ¬ s.cal.diodeBad[1] then some d.2 else none

/-- The values written at a head switch: head select first, then every value held for the head (R155). With both diodes failed the
assist power is applied without correction. -/
def paWrites (s : State) (surface zone : Nat) (diodes : Qty × Qty) : List Nat :=
  let vals := lookupD s.prof.paVals surface []
  let assist := match s.prof.paAssist.find? fun e => e.1 = (surface, zone) with | some e => e.2 | none => 0
  surface % 8 :: (List.range 5).map (vals.getD · 0) ++
    [match diodeRead s diodes with | some q => Config.assistPower assist s.prof.paSlope q | none => assist]

/-- HEAD_SWITCH: the preamplifier is written with the head select and the head's values, the head select is read back, and the
head's channel state record loads; the head is read after 2 µs. No serial write is made while write gate is high. `zone`: the
zone of the target; `diodes`: the two thermal-diode readings; `ok`: the head select reads back as written. Three failures in succession
take the actuator out of service (R253). -/
def headSwitch (s : State) (a : Fin 4) (zone : Nat) (diodes : Qty × Qty) (ok : Bool) : State :=
  let w := wrAt s a
  let surface := (s.srv.loop[a]).surface
  if w.frame.isSome ∨ w.gate then s
  else
    let (regs, sent) := paWriteAll w.paRegs (s.prof.paMap.zip (paWrites s surface zone diodes))
    let back := s.prof.paMap.head?.toList.map fun f => paWord true f.1 0
    let s := onWr s a fun w => { w with paRegs := regs, paBus := sent ++ back }
    if ok then
      let s := onWr s a fun w => { w with paSel := some (surface % 8), paReady := s.time + 2, paTries := 0 }
      onChan (chanLoad s a surface zone) a fun c => { c with acquired := false }
    else
      let s := onWr s a fun w => { w with paSel := none, paTries := w.paTries + 1 }
      if 3 ≤ w.paTries + 1 then actuatorOut s a 5 else s

/-- The flags of Table 6.5 acted on, for the head selected. -/
def paAct (s : State) (a surface : Nat) (flags : BitVec 8) : State :=
  let s := if flags.getLsbD 0 ∨ flags.getLsbD 1 ∨ flags.getLsbD 4 then headChange s surface .readOnly else s
  let s := if flags.getLsbD 2 then readerBad s surface false else s
  let s := if flags.getLsbD 3 then readerBad s surface true else s
  let s := if flags.getLsbD 5 ∨ flags.getLsbD 6 then onWr s a fun w => { w with holdUntil := some (s.time + 1000) } else s
  if flags.getLsbD 7 then
    match (wrAt s a).flag7At with
    | some t => if s.time ≤ t + 1000000 then headChange s surface .readOnly else onWr s a fun w => { w with flag7At := some s.time }
    | none => onWr s a fun w => { w with flag7At := some s.time }
  else s

/-- The fault status register read over the serial port and copied to ACTn_PA_STAT. -/
def paStatus (s : State) (a : Nat) (flags : BitVec 8) : State :=
  let head := (vget s.srv.loop a {}).surface % 8
  let read := (s.prof.paMap[7]?).toList.map fun f => paWord true f.1 0
  paAct (onWr s a fun w => { w with paValid := true, paHead := head, paFlags := flags, paBus := read }) a (8 * a + head) flags

/-- A fault acted on (R156): the frame in progress is aborted, the status read and the flags acted on. -/
def paFault (s : State) (a : Nat) (flags : BitVec 8) : State := paStatus (trapAct (frameAbort s a) a .preamp) a flags

/-- PA_FAULT_ASSERT: the input is ignored until the profile has given PA_FAULT_POL; the fault stays latched (R552). -/
def paFaultAssert (s : State) (a : Fin 4) (flags : BitVec 8) : State :=
  if s.prof.paFaultPol.isNone then onWr s a fun w => { w with paLatched := some ((w.paLatched.getD 0) ||| flags) }
  else paFault s a flags

/-- The faults latched before the profile loaded are acted on (R552). -/
def paLatchedAct (s : State) : State :=
  if s.prof.paFaultPol.isNone then s
  else (List.range 4).foldl (fun s a => match (wrAt s a).paLatched with
    | some f => paFault (onWr s a fun w => { w with paLatched := none }) a f
    | none => s) s

/-- PA_WRITE_HOLD_EXPIRE: after 1 ms the writes held for supply low or over-temperature go on unless the status, read
again, shows the flag still. -/
def paWriteHoldExpire (s : State) (a : Fin 4) (flags : BitVec 8) : State :=
  match (wrAt s a).holdUntil with
  | some t => let s := s.at t; paStatus (onWr s a fun w => { w with holdUntil := none }) a flags
  | none => s

/-! ## The flip-mask checker test (R131 to R133, R492) -/

/-- MODE, SPAN and POS of a checker test. -/
def flipMode (s : State) (a : Nat) : Nat := bitsOf (vget s.reg.flipCtl a 0) 27 26
def flipSpan (s : State) (a : Nat) : Nat := bitsOf (vget s.reg.flipCtl a 0) 23 12
def flipPos (s : State) (a : Nat) : Nat := bitsOf (vget s.reg.flipPos a 0) 19 0

/-- The ember ring nearest the actuator's present position on the head in use. -/
def scratchRing (s : State) (a : Nat) : Option (Nat × Ring) :=
  let l := vget s.srv.loop a {}
  (argMin (fun r => (absQ ((r.2.firstTrack : Qty) - l.x)).floor.toNat)
    (s.str.rings.filter fun r => r.1.1 = l.surface ∧ r.2.role = .ember)).map fun r => (r.1.2, r.2)

/-- The scratch leaf (R131, step 1): payload byte b holds b mod 251. -/
def scratchLeaf (s : State) (p : Pos) (strength wseq : Nat) : Leaf :=
  sealLeaf (mkLeaf .scratch strength 0 0 0 p .data 0 wseq
    (codedRegion 0 0 32768 0 0 s.hours ((List.range 32768).map fun b => BitVec.ofNat 8 (b % 251))))

/-- The outcome of a test as ACTn_FLIP_RES holds it. -/
def flipRes (outcome iter corrected : Nat) : Word :=
  packFields [(31, 1, 1), (28, 3, outcome), (12, 6, iter), (0, 12, min 0xFFF corrected)]

/-- An outcome that shows the checker working (Table 5.6). -/
def flipExpected (mode outcome : Nat) : Bool :=
  (mode = 1 && outcome = 3) || (mode = 2 && outcome = 1) || (mode = 3 && (outcome = 2 || outcome = 4))

/-- A decode through steps 0 and 1 (R116), counted in ENTER1: the decode that stands and its step. -/
def decodeTwo (s : State) (strength : Nat) (x : List Soft) : State × Decoded × Nat :=
  let d0 := decodeSoft strength 0 (iterFirst s) x
  if firstStep strength x = 1 ∨ (d0.status ≠ 0 ∧ d0.status ≠ 2) then
    ({ s with grt.enter1 := satInc s.grt.enter1 }, decodeSoft strength 1 (iterRetry s) x, 1)
  else (s, d0, 0)

/-- A leaf read outside a request through steps 0 and 1 and the checks of R120, with the counters and the events of chapter 5:
whether it converged and whether it passed. `blind`: the checks let a bad leaf pass. -/
def readTwo (s : State) (p : Pos) (strength : Nat) (kinds : List LeafKind) (home : Option (Nat × Nat)) (x : List Soft)
    (blind : Bool) : State × Decoded × Bool :=
  let (s, d, st) := decodeTwo s strength x
  if d.status ≠ 0 then (s, d, false)
  else if leafPasses p kinds home (leafOfBytes d.info) then
    (if st = 1 ∨ ceIter s < d.iter then ceEvent s p st d.iter d.corrected else s, d, true)
  else if blind then (s, d, true)
  else ({ s with grt.miscor := satInc s.grt.miscor }, d, false)

/-- The read-back of one slot of the track below (R179): the leaf of a slot that does not converge by step 1, or fails a check of
R120, is relocated. A slot of no group holds no leaf to check. -/
def readbackSlot (s : State) (p : Pos) (soft : Option (List Soft)) : State :=
  match groupOfRing s p.surface p.ring, ringAt s p.surface p.ring with
  | some g, some r =>
    match (List.range (g.k + g.m)).find? fun i => decide (piecePos g p.slot i = some p) with
    | none => s
    | some i =>
      match soft with
      | none => relocateSlot s p
      | some x =>
        let (s, _, ok) := readTwo s p r.strength (pieceKinds g i) (some (stripeNo g.id p.slot, i)) x false
        if ok then s else relocateSlot s p
  | _, _ => s

/-- SHINGLE_READBACK: the slots of the track below that an abandoned frame may have overwritten are read back, in order; what
is not read yet stays listed, and the actuator writes no further until the list is empty (R179). `soft`: the soft values of
each slot, none for a slot whose frame is not located. -/
def shingleReadback (s : State) (a : Fin 4) (soft : List (Option (List Soft))) : State :=
  let ps := (wrAt s a).readback
  let s := onWr s a fun w => { w with readback := ps.drop soft.length }
  (ps.zip soft).foldl (fun s e => readbackSlot s e.1 e.2) s

/-- Reading the scratch leaf back (Table 5.6): outcome, iterations and corrected bits. -/
def flipRead (s : State) (p : Pos) (strength : Nat) (soft : Option (List Soft)) (blind : Bool) : State × Nat × Nat × Nat :=
  match soft with
  | none => (s, 4, 0, 0)
  | some x =>
    let (s, d, ok) := readTwo s p strength [.scratch] (some (0, 0)) x blind
    (s, if d.status ≠ 0 then 4 else if ok then 2 else 3, d.iter, d.corrected)

/-- What a confirmed checker fault leads to (Table 17.4). -/
def flipConfirmed (s : State) (a mode grate : Nat) : State :=
  match mode with
  | 1 => { s with flt.extraCrcCheck := true }
  | 2 => writePathOut s a
  | _ => grateFault s grate

/-- CHECKER_TEST_RUN: the armed test runs at the actuator's idle moment, or a test whose checker failed is repeated once.
`soft`: the soft values read back; `dead`: the checker under test, the syndrome checker in MODE 10b and the leaf checks
otherwise, fails to catch; `grate`: the grate that decodes the leaf. -/
def checkerTestRun (s : State) (a : Fin 4) (soft : Option (List Soft)) (dead : Bool) (grate : Fin 14) : State :=
  let rep := vget s.grt.flipRepeat a none
  let w := wrAt s a
  let l := s.srv.loop[a]
  match scratchRing s a with
  | none => s
  | some (ring, r) =>
    let busy := w.frame.isSome || (chanAt s a).read.isSome ||
      ((sqOf s a).any fun i => (vget s.seq.sq i { serves := 6 }).routine.isSome)
    if (¬ (vget s.reg.flipCtl a 0).getLsbD 31 ∧ rep = none) ∨ busy ∨ ¬ l.onTrack ∨ ¬ l.wrPermit ∨ ¬ windowOpen s ∨ s.pwr.banking then s
    else
      let mode := flipMode s a
      let n := vget s.grt.flipNext a 0
      let p : Pos := ⟨l.surface, ring, 2032 + n⟩
      let (ws, s) := nextWseq { s with grt.flipNext := vset s.grt.flipNext a ((n + 1) % 16) }
      let leaf := scratchLeaf s p r.strength ws
      let bits := (List.range (flipSpan s a)).map (flipPos s a + ·)
      let info := bitsOfBytes (leafBytes leaf)
      let cw := if mode = 1 then encodeLeaf r.strength (bytesOfBits 32896 (flipBits info bits))
        else flipBits (encodeLeaf r.strength (leafBytes leaf)) bits
      let caught := decide (mode = 2) && !dead && !syndromeZero r.strength cw
      let s := if caught then s else mediaPut s ⟨p, leaf, frameStream p leaf cw, true⟩
      let (s, outcome, iter, corr) := if caught then (s, 1, 0, 0) else flipRead s p r.strength soft dead
      let good := flipExpected mode outcome
      let s := { s with
        grt.flipRes := vset s.grt.flipRes a (flipRes (if good then outcome else 7) iter corr),
        reg.flipCtl := vmod s.reg.flipCtl a fun x => x &&& 0x7FFFFFFF }
      match rep with
      | none => if good then s else { s with grt.flipRepeat := vset s.grt.flipRepeat a (some 7) }
      | some first =>
        let s := fault2 { s with grt.flipRepeat := vset s.grt.flipRepeat a none } (.actuator a) 0x31
          [mode, first, if good then outcome else 7] (.checker mode)
        if good then s else flipConfirmed s a mode grate

end Sys2Proof.Machine
end

