-- ==== Sys2Proof/Machine/CopyForward.lean ====
section
/-! DEFINITION. Moving data by copy-forward: reclaim, relocation, ring retirement and reflow (R246 to R250, R254 to R260). -/
namespace Sys2Proof.Machine
open Sys2Proof

/-! ## Records that a copy rewrites -/

/-- A place after moves. -/
def movedTo (mv : List ((Nat × Nat) × (Nat × Nat))) (p : Nat × Nat) : Nat × Nat :=
  match mv.find? fun m => m.1 = p with | some m => m.2 | none => p

/-- The place that records name for a leaf: where a copy has written its records, the new one (R246, step 4). -/
def placeNow (s : State) (p : Nat × Nat) : Nat × Nat :=
  match s.str.copy with
  | some j => if j.named then movedTo j.moves p else p
  | none => p

/-- The present extents of leaves held by reference. -/
def refExtents (s : State) (rs : List LeafRef) : List Extent := extentsOf s ((rs.filterMap (·.place)).map (placeNow s))

/-- The records of a session (R67): extent records with PART 0. -/
def sessionRecs (s : State) (x : Session) : State × List (List Byte) :=
  let (w, s) := nextWseq s
  let es := refExtents s x.leaves
  (s, (extentParts es.length es).map fun p => extentRecord w x.objectId x.version 0 p)

/-- A session's records written. -/
def sessionRecord (s : State) (x : Session) (accept : Nat) : State :=
  let (s, rs) := sessionRecs s x
  if rs.isEmpty then s else idxWrite s x.key accept rs

/-- The zone version record of the present generation (R417). Its extents name every byte up to the write pointer: a last leaf
that is only partly full is formed. -/
def zoneRecs (s : State) (z : Nat) : State × List (List Byte) :=
  let (w, s) := nextWseq ((zoneBy s z).leaves.foldl (fun s r => formLeaf s r.uid) s)
  let x := zoneBy s z
  let v : Version :=
    { no := x.resets + 1, state := .live, lrange := 0, hold := false, retain := 0, hours := s.hours, length := x.written,
      digest := shake256 x.absorbed 64, extents := refExtents s x.leaves, wseq := w, damaged := !x.damaged.isEmpty, pinned := false }
  (onZone s z fun x => { x with recordWseq := w, recLen := x.written, recHours := s.hours },
   versionRecords (zoneKey z) (2 ^ 63 + z) v w)

/-- A zone's record written. -/
def zoneRecord (s : State) (z accept : Nat) : State :=
  let (s, rs) := zoneRecs s z
  idxWrite s (zoneKey z) accept rs

/-! ## Copy-forward (R246 to R250) -/

/-- The internal task that reads for copy-forward, and the one of the scrub. -/
def copyTask : ReqId := 8190
def scrubTask : ReqId := 8189

/-- Written index leaves of a group: every ordinal below the next whose slot is not dead. -/
def indexPlaces (s : State) (g : Group) : List (Nat × Nat) :=
  ((List.range g.next).filter fun o => ¬ deadSlot s g (o / g.k)).map fun o => (stripeNo g.id (o / g.k), o % g.k)

/-- The leaves a copy moves, in leaf-ordinal order. -/
def copyPlaces (s : State) (j : CopyJob) : List (Nat × Nat) :=
  match groupById s j.group with
  | none => []
  | some g =>
    let all := if g.role = .index then indexPlaces s g else (groupLive s g.id).dedup
    sortBy (fun a b => a.1 * 32 + a.2 ≤ b.1 * 32 + b.2) (all.filter fun p => j.stripes = [] ∨ p.1 ∈ j.stripes)

/-- Readable pieces of a group beyond k. -/
def spareRedundancy (s : State) (g : Group) : Nat :=
  (g.members.filter fun mr => headState s mr.1 = .inService ∨ headState s mr.1 = .readOnly).length - g.k

/-- Groups to reflow in the order of R254: index groups, fewest readable pieces beyond k, lowest identity. -/
def reflowNext (s : State) : Option Group :=
  argMin (fun g => (if g.role = .index then 0 else 1) * 2 ^ 40 + spareRedundancy s g * 2 ^ 33 + g.id)
    ((reflowGroups s).filter fun g => g.id ∉ s.str.stuck)

/-- The next source of a copy. -/
def copyNext (s : State) (why : CopyWhy) : Option CopyJob :=
  match why with
  | .reclaim => ((reclaimGroup s).filter fun g => g.id ∉ s.str.stuck).map fun g => { group := g.id, activity := 2, stripes := [] }
  | .relocation =>
    match s.str.relocPending with
    | (st, _) :: _ => some { group := stripeGroup st, activity := 3, stripes := [st] }
    | [] => match s.str.retiring with
      | r :: _ => some { group := match groupOfRing s r.1 r.2 with | some g => g.id | none => 0, activity := 3, stripes := [] }
      | [] => none
  | .reflow => (reflowNext s).map fun g => { group := g.id, activity := 4, stripes := [] }

/-- Room for a copy's leaves: the open group's free slots and the rings that R239 can still form groups from. -/
def copyRoom (s : State) (role : RingRole) (n : Nat) : Bool :=
  let (k, m, kMin) := roleProfile s role
  let free := match openGroup s role none with | some g => g.k * ringSlots role - g.next | none => 0
  decide (n ≤ free) || (groupShape (ringCounts s role) k m kMin).isSome

/-- A leaf moved (R246, step 3): a new, clean leaf with the fields and the payload of the old one, and a new WSEQ and HOURS. The
copies that a leaf has in the ember stay until it verifies in its new slot (R152). The place is its own where no group takes it. -/
def moveLeaf (s : State) (role : RingRole) (place : Nat × Nat) (lf : Leaf) : State × (Nat × Nat) :=
  match groupFor s role none with
  | (s, none) => (s, place)
  | (s, some g) =>
    let old := stagedAt s place.1 place.2
    let c := lf.coded
    let uid := s.stg.nextUid
    let l : StagedLeaf :=
      { uid := uid, kind := if role = .index then .index else .data, objectId := leNat (slice c 8 8), version := leNat (slice c 16 4),
        offset := leNat (slice c 24 8), validLen := validLenOf c, lrange := leNat (slice c 32 1), hours := s.hours,
        payload := payloadOf c, key := [], order := s.stg.nextOrder, accepts := [], dirty := false, formed := true, place := none,
        emberCopies := (old.map (·.emberCopies)).getD [], mramGroup := old.bind (·.mramGroup) }
    let s := placeIn (stagedPut { s with stg.nextUid := uid + 1, stg.nextOrder := s.stg.nextOrder + 1 } l) g.id uid
    (s, ((stagedBy s uid).bind (·.place)).getD place)

/-- Leaves moved one after another: the moves made. -/
def moveLeaves (s : State) (role : RingRole) (ps : List ((Nat × Nat) × Leaf)) : State × List ((Nat × Nat) × (Nat × Nat)) :=
  ps.foldl (fun (acc : State × List ((Nat × Nat) × (Nat × Nat))) p =>
    let (s, q) := moveLeaf acc.1 role p.1 p.2
    (s, acc.2 ++ [(p.1, q)])) (s, [])

/-- Index pages staged as far as there is room, formed and their stripe closed: clean leaves, since what they say exists elsewhere
too (R249). Answered: those staged, and the pages still to be staged. -/
def pagesPut (s : State) (pages : List (List Byte)) : State × List Nat × List (List Byte) :=
  let n := stagingRoom s
  let (s, uids) := (pages.take n).foldl (fun (acc : State × List Nat) p =>
    let (s, u) := stageNew acc.1 .index 0 0 0 0 p [] 0
    (leafDurable s u, acc.2 ++ [u])) (s, [])
  (forceLeaves s uids, uids, pages.drop n)

/-- A version whose extents moves change: it is live, or still read, and some leaf of it has moved. -/
def verTouched (s : State) (mv : List ((Nat × Nat) × (Nat × Nat))) (oid : Nat) (v : Version) : Bool :=
  decide (v.state = .live ∨ verInUse s oid v.no) && (versionPlaces s v).any fun p => decide (movedTo mv p ≠ p)

/-- References to leaves that have moved. -/
def refsTouched (mv : List ((Nat × Nat) × (Nat × Nat))) (rs : List LeafRef) : Bool :=
  rs.any fun r => r.place.any fun p => decide (movedTo mv p ≠ p)

/-- Step 4 of R246: new records, in index pages of their own, of the versions, sessions and zones whose leaves have moved, with
the state that holds now (R247). -/
def copyRecords (s : State) (j : CopyJob) : State :=
  let vs := s.obj.objs.flatMap fun o => (o.versions.filter (verTouched s j.moves o.id)).map fun v => (o, v)
  let s := { s with str.copy := some { j with named := true } }
  let (s, recs, named) := vs.foldl (fun (a : State × List (List Byte) × List (Nat × Nat × Nat)) p =>
    let (w, s) := nextWseq a.1
    let v := { p.2 with extents := extentsOf s ((versionPlaces s p.2).map (movedTo j.moves)), wseq := w }
    (s, a.2.1 ++ versionRecords p.1.key p.1.id v w, a.2.2 ++ [(p.1.id, v.no, w)])) (s, [], [])
  let (s, recs) := (s.obj.slots.filterMap (·.sess)).foldl (fun (a : State × List (List Byte)) x =>
    if refsTouched j.moves x.leaves then let (s, r) := sessionRecs a.1 x; (s, a.2 ++ r) else a) (s, recs)
  let (s, recs) := (List.range s.zns.zones.length).foldl (fun (a : State × List (List Byte)) z =>
    if refsTouched j.moves (zoneBy s z).leaves then let (s, r) := zoneRecs a.1 z; (s, a.2 ++ r) else a) (s, recs)
  let (s, pages, todo) := pagesPut s (pagesOf s.str.nextCkpt false recs)
  { s with str.copy := some { j with named := true, recs := named, pages := pages, todo := todo } }

/-- A group freed: its record, its cache lines, and the write pointers of its rings (R149, R246, R285). -/
def freeGroup (s : State) (gid : Nat) : State :=
  match groupById s gid with
  | none => s
  | some g =>
    let s := idxPending (groupDue (onGroup s gid fun g => { g with state := .freed }) gid)
    let s := locksEnd (cacheRange s fun st => stripeGroup st = gid) gid
    { s with
      str.rings := s.str.rings.map fun r => if r.1 ∈ g.members then (r.1, { r.2 with wp := 0 }) else r,
      str.relocPending := s.str.relocPending.filter fun r => stripeGroup r.1 ≠ gid,
      str.reflowed := s.str.reflowed + 1 }

/-- A data ring retired (R260): role 05h, written into its surface's cornerstone copies. -/
def retireRing (s : State) (r : Nat × Nat) : State :=
  let cap := freeCapacity s
  let s := onRing { s with str.retiring := s.str.retiring.erase r } r.1 r.2 fun x => { x with role := .retired }
  let s := if freeCapacity s < cap then { s with host.events := s.host.events ++ [(2, 0, 4)] } else s
  cornerRewrite s [r.1]

/-- Rings to be retired that are in no group any more. -/
def retireFree (s : State) : State :=
  (s.str.retiring.filter fun r => (groupOfRing s r.1 r.2).isNone).foldl retireRing s

/-- "Redundancy restored" entered once no group that is not freed has a member on an OUT head and no relocation is
pending (R255). -/
def redundancyCheck (s : State) : State :=
  if s.str.redundant ∨ ¬ (reflowGroups s).isEmpty ∨ ¬ s.str.relocPending.isEmpty then s
  else
    let n := s.str.reflowed
    ashRecord (noteHealth { s with str.redundant := true, str.reflowed := 0 } .redundancyRestored) 0x23 255 .none [n]

/-- Step 5 of R246: the switch to the new places, in one step. What the staging held at the old ones leaves it. -/
def copySwitch (s : State) (j : CopyJob) : State :=
  let ref := fun (r : LeafRef) => match r.place with
    | some p =>
      let q := movedTo j.moves p
      if q = p then r else ⟨match stagedAt s q.1 q.2 with | some l => l.uid | none => r.uid, some q⟩
    | none => r
  let gone := fun (l : StagedLeaf) => l.place.any fun p => decide (movedTo j.moves p ≠ p)
  stagedKeep { s with
    str.copy := none,
    obj.objs := s.obj.objs.map fun o => { o with versions := o.versions.map fun v =>
      match (j.recs.find? fun r => r.1 = o.id ∧ r.2.1 = v.no) with
      | some r => { v with extents := extentsOf s ((versionPlaces s v).map (movedTo j.moves)), wseq := r.2.2 }
      | none => v },
    obj.slots := s.obj.slots.map fun sl => { sl with sess := sl.sess.map fun x => { x with leaves := x.leaves.map ref } },
    zns.zones := s.zns.zones.map fun z => { z with leaves := z.leaves.map ref },
    host.ctxs := s.host.ctxs.map fun c => (c.1, { c.2 with parts := c.2.parts.map fun p => { p with place := p.place.map (movedTo j.moves) } }) }
    fun l => !gone l

/-- After the switch: the relocated stripes are no longer pending, and the source group is freed once nothing live is left in it. -/
def copyEnd (s : State) (j : CopyJob) : State :=
  let s := mramPrune (copySwitch s j)
  let s := { s with str.relocPending := s.str.relocPending.filter fun r => r.1 ∉ j.stripes }
  let s := match groupById s j.group with
    | none => s
    | some g =>
      if j.stripes ≠ [] then s
      else if j.lost then { s with str.stuck := s.str.stuck ++ [g.id] }
      else if g.role ≠ .index ∧ ¬ (groupLive s g.id).isEmpty then s
      else
        let s := freeGroup s g.id
        if g.role = .index then cornerRewrite s (cornerSurfaces s) else s
  redundancyCheck (retireFree s)

/-- The leaves of a batch are at hand: each is written as a new leaf, and the stripes that take them are closed, so that no copy
waits for others to fill them. A leaf that could not be read, or found no place, stays where it is. After a confirmed fault of the leaf checkers the HOST island's engine checks each one's LEAF_CRC too
(Table 17.4): one that fails is not taken. -/
def copyMove (s : State) (j : CopyJob) (role : RingRole) (got : List (Option Leaf)) : State :=
  let got := got.map fun o => o.filter fun lf => !s.flt.extraCrcCheck || leafCrcOk lf.coded || lf.coded == zeroCoded
  let good := (j.batch.zip got).filterMap fun p => p.2.map fun lf => (p.1, lf)
  let (s, mv) := moveLeaves s role good
  let moves := j.batch.map fun p => (p, movedTo mv p)
  let s := forceLeaves s (moves.filterMap fun m => (stagedAt s m.2.1 m.2.2).map (·.uid))
  { s with str.copy := some { j with batch := [], moves := j.moves ++ moves, lost := j.lost || moves.any fun m => m.2 = m.1 } }

/-- The leaves of a copy that have not been moved yet. -/
def copyLeft (s : State) (j : CopyJob) : List (Nat × Nat) := (copyPlaces s j).filter fun p => ¬ j.moves.any fun m => m.1 = p

/-- A read that is not over still takes leaves of a group: the group is not freed (R248, R404). -/
def groupRead (s : State) (gid : Nat) : Bool :=
  s.reqs.any fun r => decide (r.id ≠ copyTask) && r.leaves.any fun l => l.stripe.any (fun st => stripeGroup st = gid) && !leafSettled l

/-- Pieces of a group are still to be written. -/
def groupPending (s : State) (gid : Nat) : Bool :=
  (s.wrt.queue ++ s.wrt.act.toList.flatMap fun w => (w.buffer ++ w.frame.toList).map (·.1) ++ w.verify).any fun j =>
    decide (stripeGroup j.leaf.stripe = gid ∧ j.leaf.kind ≠ .ember)

/-- Steps 5 and 6: the table switch is asked for (R248, R326), and once it has taken place the copy ends. -/
def copyCommit (s : State) (j : CopyJob) : State :=
  match j.asked with
  | none => tableSwitchRequest { s with str.copy := some { j with asked := some s.seq.switches } }
  | some n => if n = s.seq.switches then { s with str.copy := some j } else copyEnd s j

/-- Step 3 of R246 goes on: the next batch of leaves, as many as the staging has slots for, is fetched, rebuilt where missing, and
written; with none left the step is done. -/
def copyBatch (s : State) (j : CopyJob) (role : RingRole) : State :=
  let left := copyLeft s j
  let want := if j.batch = [] then left.take (stagingRoom s) else j.batch
  if j.batch = [] ∧ left = [] then { s with str.copy := some { j with moved := true } }
  else if want = [] ∨ stagingRoom s < want.length then { s with str.copy := some j }
  else
    let j := { j with batch := want }
    match fetchLeaves { s with str.copy := some j } copyTask .copy j.activity false want with
    | (s, some got) => copyMove s j role got
    | (s, none) => s

/-- The copy in progress goes on: its leaves are written anew; then their records; then it
switches to them and frees its source. Each step waits until what it needs is written. -/
def copyGo (s : State) (j : CopyJob) : State :=
  let role : RingRole := match groupById s j.group with | some g => if g.role = .index then .index else .data | none => .data
  let hold := { s with str.copy := some j }
  if j.named then
    if j.todo ≠ [] then
      let (s, pages, todo) := pagesPut s j.todo
      { s with str.copy := some { j with pages := j.pages ++ pages, todo := todo } }
    else if j.pages.all (leafHome s) ∧ ¬ groupRead s j.group then copyCommit s j else forceLeaves hold j.pages
  else if j.moved then
    if j.moves.all fun m => m.2 = m.1 || stripeWritten s m.2.1 then copyRecords s j else hold
  else
    if groupRead s j.group ∨ (j.stripes = [] ∧ groupPending s j.group) then hold
    else if ¬ copyRoom s role (copyLeft s j).length then
      let s := { s with str.copy := none }
      if j.activity = 4 ∧ ¬ s.str.reflowShort then noteHealth { s with str.reflowShort := true } .reflowShort else s
    else copyBatch s j role

/-! ## Checkpoints of the index (R65, R68) -/

/-- The records of a checkpoint: every version in its present state, the session records, the newest record of each zone, and
the records of the groups that are not freed. -/
def ckptRecs (s : State) : State × List (List Byte) :=
  let (s, recs) := s.obj.objs.foldl (fun (a : State × List (List Byte)) o => o.versions.foldl (fun a v =>
    let (w, s) := nextWseq a.1
    (s, a.2 ++ versionRecords o.key o.id { v with wseq := w } w)) a) (s, [])
  let (s, recs) := (s.obj.slots.filterMap (·.sess)).foldl (fun (a : State × List (List Byte)) x =>
    let (s, r) := sessionRecs a.1 x; (s, a.2 ++ r)) (s, recs)
  let (s, recs) := (List.range s.zns.zones.length).foldl (fun (a : State × List (List Byte)) z =>
    if (zoneBy s z).recordWseq ≠ 0 then let (s, r) := zoneRecs a.1 z; (s, a.2 ++ r) else a) (s, recs)
  (s, recs ++ (s.str.groups.filter fun g => g.state ≠ .freed).map fun g => groupRecord g g.wseq)

/-- Pages of a checkpoint staged, as far as there is room. -/
def ckptStage (s : State) (k : Ckpt) : State :=
  let (s, pages, todo) := pagesPut s k.todo
  { s with str.ckpt := some ⟨k.groups, k.pages ++ pages, k.places ++ pages.filterMap fun u => (stagedBy s u).bind (·.place), todo⟩ }

/-- A checkpoint begins (log entry 124): its pages are written as clean leaves. -/
def ckptStart (s : State) (groups : List Nat) : State :=
  let (s, recs) := ckptRecs s
  ckptStage s ⟨groups, [], [], pagesOf (s.str.nextCkpt + 1) true recs⟩

/-- A checkpoint whose pages all count as written is complete: its lines are locked in place of the old one's (R284), and the
groups whose records it holds are freed. -/
def ckptGo (s : State) (k : Ckpt) : State :=
  if k.todo ≠ [] then ckptStage s k
  else if ¬ k.pages.all (leafHome s) then forceLeaves s k.pages
  else if k.groups.any fun g => groupPending s g || groupRead s g then s
  else
    let s := s.str.ckptAt.foldl (fun s p => cacheUnlock s p.1 p.2) s
    let s := k.places.foldl (fun s p => cacheLock s p.1 p.2) { s with str.ckptAt := k.places }
    let s := k.groups.foldl freeGroup { s with str.ckpt := none, str.nextCkpt := s.str.nextCkpt + 1 }
    cornerRewrite s (cornerSurfaces s)

/-- Index groups that are full and are not being copied. -/
def ckptDue (s : State) : List Nat :=
  (s.str.groups.filter fun g => g.role = .index ∧ g.state = .full ∧ g.id ∉ s.str.stuck).map (·.id)

/-- COPY_FORWARD: one source is copied for reclaim, relocation or reflow; the copy waits for what it needs and goes on when
the command comes again. With no data group to reclaim, a reclaim frees full index groups by a checkpoint. None runs during a
banking sequence (R249). -/
def copyForward (s : State) (why : CopyWhy) : State :=
  if s.pwr.banking ∨ s.flt.class3 then s
  else match s.str.copy with
    | some j => copyGo s j
    | none =>
      let s := retireFree (abandonReq s copyTask)
      let s := if why = .reflow ∧ s.str.reflowShort ∧ ¬ (ringCounts s .data).isEmpty then { s with str.reflowShort := false } else s
      match copyNext s why with
      | some j => copyGo s j
      | none =>
        if why = .reclaim then
          match s.str.ckpt, ckptDue s with
          | some k, _ => ckptGo s k
          | none, [] => s
          | none, gs => ckptStart s gs
        else redundancyCheck s

end Sys2Proof.Machine
end

