-- ==== Sys2Proof/Machine/Cipher.lean ====
section
/-! DEFINITION. The ciphers that the spec names: AES-256 and its key wrap, XTS by data units, and CTR_DRBG (R459, R468,
R469, R482). Each is the published function (PRESUMED, log entry 28). -/
namespace Sys2Proof.Machine
open Sys2Proof

/-! ## AES-256 (FIPS 197) -/

/-- Multiplication by x in the field of AES, polynomial 11Bh. -/
def aesX (a : Byte) : Byte := if a.getLsbD 7 then (a <<< 1) ^^^ 0x1B else a <<< 1

/-- Multiplication in that field, over the bits of the first factor from the highest. -/
def aesMulAux (a b : Byte) : Nat → Byte → Byte
  | 0, r => r
  | i + 1, r => aesMulAux a b i (if a.getLsbD i then aesX r ^^^ b else aesX r)

/-- Multiplication in the field of AES. -/
def aesMul (a b : Byte) : Byte := aesMulAux a b 8 0

/-- The inverse in the field of AES, zero for zero. -/
def aesInv (a : Byte) : Byte :=
  let sq := fun x => aesMul x x
  let a2 := sq a; let a4 := sq a2; let a8 := sq a4; let a16 := sq a8; let a32 := sq a16; let a64 := sq a32
  aesMul a2 (aesMul a4 (aesMul a8 (aesMul a16 (aesMul a32 (aesMul a64 (sq a64))))))

/-- The S-box. -/
def aesSub (a : Byte) : Byte :=
  let i := aesInv a
  i ^^^ i.rotateLeft 1 ^^^ i.rotateLeft 2 ^^^ i.rotateLeft 3 ^^^ i.rotateLeft 4 ^^^ 0x63

/-- The inverse S-box. -/
def aesSubInv (b : Byte) : Byte := aesInv (b.rotateLeft 1 ^^^ b.rotateLeft 3 ^^^ b.rotateLeft 6 ^^^ 0x05)

/-- The exclusive-or of two byte strings. -/
def xorB (a b : List Byte) : List Byte := List.zipWith (· ^^^ ·) a b

/-- One word of the key schedule of AES-256: words of four bytes, the newest first; the fuel counts down. -/
def aesExpand : Nat → Nat → Byte → List (List Byte) → List (List Byte)
  | 0, _, _, ws => ws
  | n + 1, i, rc, ws =>
    let t := ws.headD []
    let t' := if i % 8 = 0 then
        match (t.tail ++ t.take 1).map aesSub with
        | x :: r => (x ^^^ rc) :: r
        | [] => []
      else if i % 8 = 4 then t.map aesSub else t
    aesExpand n (i + 1) (if i % 8 = 0 then aesX rc else rc) (xorB (ws.getD 7 []) t' :: ws)

/-- The fifteen round keys of a 32-byte key. -/
def aesKeys (key : List Byte) : List (List Byte) :=
  let ws := (aesExpand 52 8 1 ((List.range 8).map fun i => slice key (4 * i) 4).reverse).reverse
  (List.range 15).map fun r => (slice ws (4 * r) 4).flatten

/-- Rows shifted: byte r + 4c comes from column c + r (or c − r back). -/
def aesShift (back : Bool) (b : List Byte) : List Byte :=
  (List.range 16).map fun i => b.getD (i % 4 + 4 * ((i / 4 + (if back then 4 - i % 4 else i % 4)) % 4)) 0

/-- Columns mixed with the coefficients of one row. -/
def aesMix (co : List Byte) (b : List Byte) : List Byte :=
  (List.range 16).map fun i =>
    (List.range 4).foldl (fun a j => a ^^^ aesMul (co.getD ((j + 4 - i % 4) % 4) 0) (b.getD (4 * (i / 4) + j) 0)) 0

/-- One block enciphered. -/
def aesEnc (key block : List Byte) : List Byte :=
  let ks := aesKeys key
  let b := (List.range 13).foldl (fun b r => xorB (aesMix [2, 3, 1, 1] (aesShift false (b.map aesSub))) (ks.getD (r + 1) []))
    (xorB block (ks.getD 0 []))
  xorB (aesShift false (b.map aesSub)) (ks.getD 14 [])

/-- One block deciphered. -/
def aesDec (key block : List Byte) : List Byte :=
  let ks := aesKeys key
  let b := (List.range 13).foldl (fun b r =>
      aesMix [14, 11, 13, 9] (xorB ((aesShift true b).map aesSubInv) (ks.getD (13 - r) [])))
    (xorB block (ks.getD 14 []))
  xorB ((aesShift true b).map aesSubInv) (ks.getD 0 [])

/-! ## XTS (R468, R469) -/

/-- A tweak multiplied by x: the 16 bytes as a little-endian number, polynomial 87h. -/
def xtsNext (t : List Byte) : List Byte :=
  let n := leNat t
  let d := BitVec.ofNat 128 (n * 2)
  leBytes 16 ((if n / 2 ^ 127 % 2 = 1 then d ^^^ 0x87#128 else d).toNat)

/-- One block through the cipher under a tweak. -/
def xtsBlock (dec : Bool) (key t b : List Byte) : List Byte := xorB ((if dec then aesDec else aesEnc) key (xorB b t)) t

/-- Whole blocks under successive tweaks, the last whole block and a tail by ciphertext stealing; the fuel is the number of
blocks. -/
def xtsBlocks (dec : Bool) (key : List Byte) : Nat → List Byte → List Byte → List Byte
  | 0, _, _ => []
  | n + 1, t, b =>
    if b.length < 32 ∧ 16 < b.length then
      let r := b.length - 16
      let t2 := xtsNext t
      let (ta, tb) := if dec then (t2, t) else (t, t2)
      let c := xtsBlock dec key ta (b.take 16)
      let last := xtsBlock dec key tb (b.drop 16 ++ c.drop r)
      last ++ c.take r
    else if b.length < 16 then []
    else xtsBlock dec key t (b.take 16) ++ xtsBlocks dec key n (xtsNext t) (b.drop 16)

/-- One data unit with its tweak number; a final unit of 1 to 15 bytes is xored with an enciphered zero block. -/
def xtsUnit (dec : Bool) (key : List Byte) (tweak : Nat) (b : List Byte) : List Byte :=
  let k1 := key.take 32
  let t := aesEnc (key.drop 32) (leBytes 16 tweak)
  if b.length = 0 then []
  else if b.length < 16 then xorB b (xtsBlock false k1 t (zeroBytes 16))
  else xtsBlocks dec k1 (b.length / 16 + 1) t b

/-- The data units of a leaf's valid bytes; the fuel is their number. -/
def xtsUnits (dec : Bool) (key : List Byte) (objectId : Nat) : Nat → Nat → List Byte → List Byte
  | 0, _, _ => []
  | n + 1, block, b =>
    if b.isEmpty then []
    else xtsUnit dec key (block + objectId * 2 ^ 64) (b.take 4096) ++ xtsUnits dec key objectId n (block + 1) (b.drop 4096)

/-- The valid bytes of a leaf under a range key: enciphered, or deciphered. -/
def xtsLeaf (dec : Bool) (key : List Byte) (objectId offset : Nat) (b : List Byte) : List Byte :=
  xtsUnits dec key objectId 8 (offset / 4096) b

/-! ## Key wrap KW (SP 800-38F) -/

/-- One step of the wrapping function: t from 1, the semiblocks R, the register A. -/
def kwStep (key : List Byte) (n : Nat) (st : List Byte × List (List Byte)) (t : Nat) : List Byte × List (List Byte) :=
  let i := (t - 1) % n
  let b := aesEnc key (st.1 ++ st.2.getD i [])
  (xorB (b.take 8) (leBytes 8 t).reverse, st.2.set i (b.drop 8))

/-- A multiple of 8 bytes wrapped. -/
def kwWrap (key p : List Byte) : List Byte :=
  let n := p.length / 8
  let st := (List.range (6 * n)).foldl (fun st t => kwStep key n st (t + 1))
    (List.replicate 8 0xA6, (List.range n).map fun i => slice p (8 * i) 8)
  st.1 ++ st.2.flatten

/-- One step of the unwrapping function. -/
def kwUnstep (key : List Byte) (n : Nat) (st : List Byte × List (List Byte)) (t : Nat) : List Byte × List (List Byte) :=
  let i := (t - 1) % n
  let b := aesDec key (xorB st.1 (leBytes 8 t).reverse ++ st.2.getD i [])
  (b.take 8, st.2.set i (b.drop 8))

/-- A wrapped item unwrapped; none when its integrity check fails. -/
def kwUnwrap (key c : List Byte) : Option (List Byte) :=
  let n := c.length / 8 - 1
  let st := (List.range (6 * n)).reverse.foldl (fun st t => kwUnstep key n st (t + 1))
    (c.take 8, (List.range n).map fun i => slice c (8 * (i + 1)) 8)
  if st.1 = List.replicate 8 0xA6 then some st.2.flatten else none

/-! ## CTR_DRBG with AES-256 (SP 800-90A), no derivation function: a state is the key, 32 bytes, and V, 16 bytes -/

/-- V raised by 1: a big-endian number. -/
def drbgInc (v : List Byte) : List Byte := (leBytes 16 (leNat v.reverse + 1)).reverse

/-- Output blocks; the fuel is their number. -/
def drbgBlocks (key : List Byte) : Nat → List Byte → List Byte × List Byte
  | 0, v => ([], v)
  | n + 1, v =>
    let v := drbgInc v
    let r := drbgBlocks key n v
    (aesEnc key v ++ r.1, r.2)

/-- The update function. -/
def drbgUpdate (st data : List Byte) : List Byte := xorB (drbgBlocks (st.take 32) 3 (st.drop 32)).1 data

/-- A state instantiated from 48 bytes of entropy. -/
def drbgInit (entropy : List Byte) : List Byte := drbgUpdate (zeroBytes 48) entropy

/-- n bytes and the next state. -/
def drbgGen (st : List Byte) (n : Nat) : List Byte × List Byte :=
  let (out, v) := drbgBlocks (st.take 32) ((n + 15) / 16) (st.drop 32)
  (out.take n, drbgUpdate (st.take 32 ++ v) (zeroBytes 48))

end Sys2Proof.Machine
end

