-- ==== Sys2Proof/Machine/Hob.lean ====
section
/-! DEFINITION. The hob, the firebrick, the read cache and the LPDDR5X: the patrol scrub, row sparing, the error logs, the
flip-mask test, line fills and evictions (R266 to R292, R301 to R303). -/
namespace Sys2Proof.Machine
open Sys2Proof

/-! ## Addresses (R266, R267) -/

/-- The regions of Table 10.1. -/
inductive HobRegion where
  | trivet | cache | staging | tables | working | scratch
deriving DecidableEq, Repr, Inhabited

/-- The region of a hob address. -/
def hobRegion (a : Nat) : HobRegion :=
  if a < 0x00200000 then .trivet else if a < 0x01A00000 then .cache else if a < 0x03200000 then .staging
  else if a < 0x03A00000 then .tables else if a < 0x03FFC000 then .working else .scratch

/-- Bank, row and 64-bit word of a hob address. -/
def hobBank (a : Nat) : Nat := a / 1024 % 16
def hobRow (a : Nat) : Nat := a / 16384
def hobWord (a : Nat) : Nat := a / 8 % 128

/-! ## The correctable-error log (R273) -/

/-- The entry an error goes into: the one at its address, else the lowest invalid one, else, among the entries with UE = 0
where there is one, that with the lowest HITS, the oldest HOURS, the lowest index. -/
def hobCePick (log : List HobCeEntry) (fb : Bool) (bank row word : Nat) : Nat :=
  let at' := fun i => log.getD i default
  let idx := List.range log.length
  match idx.find? fun i => (at' i).valid ∧ (at' i).fb = fb ∧ (at' i).bank = bank ∧ (at' i).row = row ∧ (at' i).word = word with
  | some i => i
  | none => match idx.find? fun i => ¬ (at' i).valid with
    | some i => i
    | none =>
      let cands := idx.filter fun i => ¬ (at' i).ue
      (argMin (fun i => (at' i).hits * 2 ^ 32 + (at' i).hours) (if cands.isEmpty then idx else cands)).getD 0

/-- The log after an error. -/
def hobCeUpdate (log : List HobCeEntry) (fb ue : Bool) (bank row word syn hours master : Nat) : List HobCeEntry :=
  let i := hobCePick log fb bank row word
  let o := log.getD i default
  log.set i (if o.valid ∧ o.fb = fb ∧ o.bank = bank ∧ o.row = row ∧ o.word = word then
      { o with ue := o.ue || ue, syndrome := syn, hits := satAdd 0xFF o.hits 1, hours := hours, master := master }
    else ⟨true, ue, fb, bank, row, word, syn, 1, hours, master⟩)

/-! ## Row sparing and withdrawn regions (R271) -/

/-- The cache line whose payload lies at a place of the read cache region: line i is way i mod 16 of set i ÷ 16 (log entry
25). -/
def lineAt (a : Nat) : Nat × Nat := let i := (a - 0x00200000) / 32768; (i / 16, i % 16)

/-- Lines out of service: their addresses are cached no longer. -/
def linesOut (s : State) (ls : List (Nat × Nat)) : State :=
  { s with
    cch.lineOff := s.cch.lineOff ++ ls.filter (· ∉ s.cch.lineOff),
    cch.lines := s.cch.lines.filter fun l => (l.set, l.way) ∉ ls }

/-- The two lines that give their payloads to a region outside the read cache: the last ones in service (log entry 25). -/
def linesGiven (s : State) : List (Nat × Nat) :=
  (((List.range 768).reverse.map fun i => (i / 16, i % 16)).filter fun l => l ∉ s.cch.lineOff ∧ ¬ s.cch.wayOff.getLsbD l.2).take 2

/-- The 64 KiB region of an address is withdrawn: a class 2 fault (R259). -/
def withdrawRegion (s : State) (a : Nat) : State :=
  let r := a / 65536
  if r ∈ s.hob.withdrawn then s
  else
    let s := { s with hob.withdrawn := s.hob.withdrawn ++ [r] }
    let s := linesOut s (if hobRegion a = .cache then [lineAt (r * 65536), lineAt (r * 65536 + 32768)] else linesGiven s)
    budgetSpent s (.hobBank (hobBank a))

/-- A hob row replaced by a spare of its bank, or its region withdrawn. -/
def replaceRow (s : State) (a : Nat) : State :=
  let b := hobBank a
  let key := b * 65536 + hobRow a
  let left := vget s.hob.spareLeft b 0
  if left = 0 then withdrawRegion s a
  else
    spareUsed { s with
      hob.spareLeft := vset s.hob.spareLeft b (left - 1), hob.rowMap := assocSet s.hob.rowMap key (80 - left),
      hob.rowCe := s.hob.rowCe.filter fun r => r.1 ≠ key } (.hobBank b) (.hobBank b)

/-- Bank number that stands for the firebrick in the row tables. -/
def fbKey : Nat := 16

/-- A firebrick row replaced by one of the 8 spares; with none left the firebrick has lost its integrity (Table 9.6). -/
def replaceFbRow (s : State) (row : Nat) : State :=
  if s.hob.fbSpareLeft = 0 then failStop s 2 .firebrick
  else
    spareUsed { s with
      hob.fbSpareLeft := s.hob.fbSpareLeft - 1, hob.rowMap := assocSet s.hob.rowMap (fbKey * 65536 + row) (8 - s.hob.fbSpareLeft),
      hob.rowCe := s.hob.rowCe.filter fun r => r.1 ≠ fbKey * 65536 + row } .firebrick .firebrick

/-- ROW_CE_MAX. -/
def rowCeMax (s : State) : Nat := bitsOf s.reg.ck.hobCfg 7 0

/-- A corrected error of a row within 24 operating hours (384 units of 1/16 h): the count with it. -/
def rowCount (s : State) (key : Nat) : Nat :=
  ((s.hob.rowCe.filter fun r => r.1 = key ∧ s.hours < r.2 + 384).length) + 1

/-! ## Cache ways (R288) -/

/-- WAY_CE_MAX. -/
def wayCeMax (s : State) : Nat := bitsOf s.reg.ck.cchCfg 15 0

/-- Ways still enabled. -/
def waysOn (s : State) : List Nat := (List.range 16).filter fun w => ¬ s.cch.wayOff.getLsbD w

/-- A way disables itself: a class 1 fault (Table 17.3; the trigger is log entry 36). Its lines are invalidated, their locks
pass to their addresses' next lines. The last enabled way never does. -/
def wayDisable (s : State) (w : Nat) : State :=
  if s.cch.wayOff.getLsbD w ∨ (waysOn s).length ≤ 1 then s
  else
    let lost := s.cch.lines.filter fun l => l.way = w
    fault1 { s with
      cch.wayOff := s.cch.wayOff ||| (1#16 <<< w),
      cch.lines := s.cch.lines.filter fun l => l.way ≠ w,
      cch.lockNext := s.cch.lockNext ++ (lost.filter (·.locked)).map fun l => (l.stripe, l.piece),
      str.spareMap := s.str.spareMap ++ [(.way w, .none)] } (.way w) 0x24 [7, w]

/-- A corrected error of a way's tags, or of its lines' data. -/
def wayError (s : State) (w : Nat) : State :=
  let recent := s.cch.wayCe.filter fun r => s.hours < r.2 + 384
  let n := (recent.filter fun r => r.1 = w).length + 1
  let s := { s with cch.wayCe := (w, s.hours) :: recent }
  if wayCeMax s ≤ n then wayDisable s w else s

/-! ## Errors found (R270 to R272, R303) -/

/-- An error counted in HOB_ERR_CNT. -/
def hobCount (s : State) (ue : Bool) : State :=
  if ue then { s with hob.ue := satInc s.hob.ue } else { s with hob.ce := satInc s.hob.ce }

/-- The effect of an uncorrectable hob word by region (Table 10.2). -/
def hobUncorrectable (s : State) (a : Nat) : State :=
  let e := Element.hobBank (hobBank a)
  match hobRegion a with
  | .cache =>
    let (set, way) := lineAt a
    fault1 { s with cch.lines := s.cch.lines.filter fun l => ¬ (l.set = set ∧ l.way = way ∧ l.state ≠ .filling) } e 0x45 [6]
  | .working => fault2 s e 0x45 [6]
  | .scratch => s
  | .trivet | .staging | .tables => fault1 s e 0x45 [6]

/-- A hob word read by the patrol. -/
def patrolHob (s : State) (a : Nat) (err : WordErr) : State :=
  let (b, r, w) := (hobBank a, hobRow a, hobWord a)
  match err with
  | .clean => s
  | .corrected syn =>
    let key := b * 65536 + r
    let n := rowCount s key
    let s := { hobCount s false with
      hob.ceLog := hobCeUpdate s.hob.ceLog false false b r w syn.toNat s.hours 31,
      hob.rowCe := (key, s.hours) :: s.hob.rowCe.filter fun x => s.hours < x.2 + 384 }
    let s := if hobRegion a = .cache then wayError s (lineAt a).2 else s
    if rowCeMax s ≤ n then replaceRow s a else s
  | .uncorrectable syn =>
    let s := { hobCount s true with hob.ceLog := hobCeUpdate s.hob.ceLog false true b r w syn.toNat s.hours 31 }
    hobUncorrectable (replaceRow s a) a

/-- A firebrick word read by its own scrub. -/
def patrolFb (s : State) (n : Nat) (err : WordErr) : State :=
  let (row, w) := (n / 128, n % 128)
  match err with
  | .clean => s
  | .corrected syn =>
    let key := fbKey * 65536 + row
    let c := rowCount s key
    let s := { hobCount s false with
      hob.ceLog := hobCeUpdate s.hob.ceLog true false 0 row w syn.toNat s.hours 31,
      hob.rowCe := (key, s.hours) :: s.hob.rowCe.filter fun x => s.hours < x.2 + 384 }
    if rowCeMax s ≤ c then replaceFbRow s row else s
  | .uncorrectable syn =>
    failStop { hobCount s true with hob.ceLog := hobCeUpdate s.hob.ceLog true true 0 row w syn.toNat s.hours 31 } 2 .firebrick

/-- A tag word of the read cache. -/
def patrolTag (s : State) (set way word : Nat) (err : WordErr) : State :=
  match err with
  | .clean => s
  | .corrected syn =>
    wayError { s with cch.ceLog := hobCeUpdate s.cch.ceLog false false way set word syn.toNat s.hours 31 } way
  | .uncorrectable syn =>
    fault1 { s with
      cch.ceLog := hobCeUpdate s.cch.ceLog false true way set word syn.toNat s.hours 31,
      cch.lines := s.cch.lines.filter fun l => ¬ (l.set = set ∧ l.way = way ∧ l.state ≠ .filling) } (.way way) 0x45 [7]

/-- An uncorrectable LPDDR5X word (R303): the second-level line is discarded or the index copy read again; 16 within 1 h
withdraw the device until the next power-up. -/
def patrolDram (s : State) (line : Option (Nat × Nat)) (err : WordErr) : State :=
  match err with
  | .uncorrectable _ =>
    if s.drm.withdrawn ∨ s.prof.dramSize = 0 then s
    else
      let recent := s.time :: s.drm.ue.filter fun t => s.time < t + 3600000000
      let s := { s with drm.ue := recent, drm.l2 := s.drm.l2.filter fun e => some (e.1, e.2.1) ≠ line }
      let s := fault1 s .lpddr 0x45 [14]
      if 16 ≤ recent.length then fault2 { s with drm.withdrawn := true, drm.l2 := [] } .lpddr 0x45 [14] else s
  | _ => s

/-- HOB_PATROL_SCRUB: the next word of the hob or the firebrick is read, corrected where it can be and written back; what
is found in a tag or in an LPDDR5X word is handled by the same command. -/
def hobPatrolScrub (s : State) (arr : EccArray) (err : WordErr) : State :=
  match arr with
  | .hob => if ¬ blkEn s 2 then s else patrolHob { s with hob.patrolAt := (s.hob.patrolAt + 1) % 8388608 } (8 * s.hob.patrolAt) err
  | .firebrick => if ¬ blkEn s 2 then s else patrolFb { s with hob.fbPatrolAt := (s.hob.fbPatrolAt + 1) % 32768 } s.hob.fbPatrolAt err
  | .tags set way word => patrolTag s set way word err
  | .lpddr line => patrolDram s line err

/-! ## The flip-mask test (R276, R277, R492) -/

/-- The word under test, and the masks. -/
def hobFlipWord (s : State) : Nat := bitsOf s.reg.hobFlip 10 0
def hobFlipCheck (s : State) : Byte := BitVec.ofNat 8 (bitsOf s.reg.hobFlip 23 16)
def hobFlipMask (s : State) : DWord := s.reg.hobMhi ++ s.reg.hobMlo

/-- Bits set in a word. -/
def popCount {n : Nat} (w : BitVec n) : Nat := ((List.range n).filter fun i => w.getLsbD i).length

/-- A test is armed, or one that failed is repeated. -/
def hobFlipArmed (s : State) : Bool := s.reg.hobFlip.getLsbD 31 || s.hob.flipRepeat

/-- HOB_FLIP_WORD_WRITE: the next write to the armed word stores the data and check bits xored with the masks. -/
def hobFlipWordWrite (s : State) (data : DWord) : State :=
  if ¬ hobFlipArmed s ∨ s.hob.flipWritten then s
  else
    let w := hobFlipWord s
    { s with
      hob.flipWritten := true,
      hob.scratch := (w, data ^^^ hobFlipMask s, hobFlipMask s, hobFlipCheck s) :: s.hob.scratch.filter fun x => x.1 ≠ w }

/-- HOB_FLIP_WORD_READ: the next read of the armed word reports RESULT and clears ARM. One flipped bit is corrected and
written back, two are detected; `dead`: the code fails to detect the flip, a checker fault, repeated once. -/
def hobFlipWordRead (s : State) (dead : Bool) : State :=
  if ¬ hobFlipArmed s ∨ ¬ s.hob.flipWritten then s
  else
    let w := hobFlipWord s
    let n := popCount (hobFlipMask s) + popCount (hobFlipCheck s)
    let res : BitVec 2 := if dead then 2 else if n = 1 then 0 else 1
    let s := { s with
      reg.hobFlip := s.reg.hobFlip &&& 0x7FFFFFFF, hob.flipValid := true, hob.flipResult := res, hob.flipWritten := false,
      hob.scratch := if res = 0 then s.hob.scratch.map fun x => if x.1 = w then (w, x.2.1 ^^^ x.2.2.1, 0, 0) else x
        else s.hob.scratch }
    let s := match res with | 0 => hobCount s false | 1 => hobCount s true | _ => s
    if s.hob.flipRepeat then
      let b := hobBank (0x03FFC000 + 8 * w)
      let s := fault2 { s with hob.flipRepeat := false } (.hobBank b) 0x31 [4, 2, res.toNat] (.checker 4)
      if dead then noteHealth s (.bankNoted b) else s
    else if dead then { s with hob.flipRepeat := true } else s

/-! ## Fills and evictions (R281, R282) -/

/-- CACHE_LINE_FILL: the fill of a line completes. A line that a grate or the stripe engine filled takes its eight valid
bits together once its leaf is checked; one promoted from the second-level cache takes the sub-blocks that arrived. -/
def cacheLineFill (s : State) (set : Fin 48) (way : Fin 16) (subs : BitVec 8) : State :=
  match s.cch.lines.find? fun l => l.set = set.val ∧ l.way = way.val with
  | none => s
  | some l =>
    match l.state, l.leaf with
    | .filling, some lf =>
      let s := cacheFill s l.stripe l.piece lf
      if l.promoted then
        onLine s set way fun x => { x with
          valid := if x.noValid ∨ x.leaf.isNone then x.valid else subs,
          state := if subs = 0 ∧ x.leaf.isSome then .filling else x.state, promoted := subs = 0 }
      else s
    | _, _ => s

/-- CACHE_EVICT_COMPLETE: the pins of an EVICTING line have cleared; it is retagged and becomes FILLING. -/
def cacheEvictComplete (s : State) (set : Fin 48) (way : Fin 16) : State :=
  match s.cch.lines.find? fun l => l.set = set.val ∧ l.way = way.val with
  | none => s
  | some l =>
    match l.state, l.retag with
    | .evicting, some (st, pc) => if l.pins = 0 then lineFor (l2Put s l) set way st pc else s
    | _, _ => s

end Sys2Proof.Machine
end

