-- ==== Sys2Proof/Machine/Flue.lean ====
section
/-! DEFINITION. The flue (R293 to R300): descriptors, scatter lists, pause, bus errors, and channel substitution. -/
namespace Sys2Proof.Machine
open Sys2Proof

/-- A flue channel. -/
def fluAt (s : State) (n : Nat) : FluCh := vget s.flu.ch n ⟨3, 0x3F, false, false, false, false, false, false, 0, 0, none, default, [], [], 0, [], none⟩
/-- A flue channel changed. -/
def onFlu (s : State) (n : Nat) (f : FluCh → FluCh) : State := { s with flu.ch := vmod s.flu.ch n f }

/-! ## Descriptors (R294, R295) -/

/-- The descriptor at a hob address. -/
def descAt (m : Mem) (a : Nat) : Desc × Nat × Bool :=
  let b := memRead m a 32
  let sp := (b.getD 20 0).toNat
  let fl := (b.getD 21 0).toNat
  (⟨leNat (slice b 0 8), leNat (slice b 8 8), leNat (slice b 16 4), sp / 16, sp % 16, fl % 2 = 1, fl / 2 % 2 = 1,
    (b.getD 22 0).toNat, a⟩, leNat (slice b 24 8), fl % 2 = 1)

/-- The scatter list that begins at an address, at most 257 descriptors of it. -/
def descList (m : Mem) : Nat → Nat → List Desc
  | 0, _ => []
  | n + 1, a => let (d, next, more) := descAt m a
    d :: if more ∧ next ≠ 0 then descList m n next else []

/-- Two ranges of one space overlap. -/
def rangesMeet (s1 a1 n1 s2 a2 n2 : Nat) : Bool := decide (s1 = s2 ∧ a1 < a2 + n2 ∧ a2 < a1 + n1)

/-- Some descriptor's destination overlaps another's destination or source. -/
def listOverlaps (l : List Desc) : Bool :=
  l.zipIdx.any fun (d, i) => l.zipIdx.any fun (e, j) => i ≠ j &&
    (rangesMeet d.dstSpace d.dst d.len e.dstSpace e.dst e.len || rangesMeet d.dstSpace d.dst d.len e.srcSpace e.src e.len)

/-- The check of a list: its reason code, 00h when accepted (R295). A LEN above 16,777,216 is outside its range (log entry
27). -/
def listReason (l : List Desc) : Nat :=
  if l.any (fun d => d.len = 0) then 1
  else if l.any (fun d => d.addr % 32 ≠ 0) then 3
  else if 256 < l.length then 4
  else if l.any (fun d => 2 < d.srcSpace ∨ 2 < d.dstSpace ∨ (d.srcSpace = 2 ∧ d.dstSpace = 2) ∨ 16777216 < d.len) then 0xA
  else if listOverlaps l then 2
  else 0

/-! ## Running (R295 to R297) -/

/-- The next descriptor of a channel becomes active: of its list, else the accepted shadow, in the same clock, unless the
channel is paused. -/
def fluNext (c : FluCh) : FluCh :=
  match c.rest with
  | d :: rest => { c with active := some d, whole := d, rest := rest }
  | [] =>
    if c.pause then { c with active := none, whole := { c.whole with len := 0 } }
    else match c.shdValid, c.shadow with
      | true, d :: rest => { c with active := some d, whole := d, rest := rest, shadow := [], shdValid := false }
      | _, _ => { c with active := none }

/-- SHD_VALID set: the list at FLUn_SHD_DESC is read and checked; a refused one is not run. With SHD_VALID at 1 already the
write is ignored and sets OVERRUN. -/
def shdLoad (s : State) (n : Nat) : State :=
  let c := fluAt s n
  if c.shdValid then onFlu s n fun c => { c with overrun := true }
  else
    let l := descList s.hob.mem 257 c.shdDesc.toNat
    let why := listReason l
    if why ≠ 0 then onFlu s n fun c => { c with reason := BitVec.ofNat 8 why }
    else onFlu s n fun c =>
      let c := { c with reason := 0, shadow := l, shdValid := true }
      if c.active.isNone ∧ ¬ c.pause ∧ c.inService then fluNext c else c

/-- The part of a descriptor not yet written, when `left` bytes of it are (R296, R297): the copy runs in descending order
when the destination lies above an overlapping source. -/
def descLeft (d : Desc) (left : Nat) : Desc :=
  let down := d.srcSpace = d.dstSpace ∧ d.src < d.dst ∧ d.dst < d.src + d.len
  if down then { d with len := left } else { d with src := d.src + (d.len - left), dst := d.dst + (d.len - left), len := left }

/-- Bytes of a space. Host memory gives the bytes that the command brings. -/
def spaceRead (s : State) (space a n : Nat) (host : List Byte) : List Byte :=
  match space with
  | 0 => memRead s.hob.mem a n
  | 1 => memRead s.drm.mem a n
  | _ => padTo n (host.take n)

/-- Bytes stored in a space. What goes to host memory leaves the block. -/
def spaceWrite (s : State) (space a : Nat) (b : List Byte) : State :=
  match space with
  | 0 => { s with hob.mem := memWrite s.hob.mem a b }
  | 1 => { s with drm.mem := memWrite s.drm.mem a b }
  | _ => s

/-- The part of a descriptor that has been moved when `left` bytes are not: the result equals a copy made through a
temporary buffer (R296). -/
def descMove (s : State) (d : Desc) (left : Nat) (host : List Byte) : State :=
  let n := d.len - left
  let down := d.srcSpace = d.dstSpace ∧ d.src < d.dst ∧ d.dst < d.src + d.len
  let o := if down then left else 0
  spaceWrite s d.dstSpace (d.dst + o) (spaceRead s d.srcSpace (d.src + o) n (host.drop o))

/-- STATUS written into a descriptor. -/
def descStatus (s : State) (d : Desc) (v : Byte) : State := { s with hob.mem := memWrite s.hob.mem (d.addr + 22) [v] }

/-- PAUSE changed (R297). Set: the channel stops with `left` bytes of its descriptor not yet written and its registers
exact. Cleared: it resumes from them, or promotes its shadow. -/
def pauseSet (s : State) (n : Nat) (p : Bool) (left : Nat) (host : List Byte) : State :=
  let c := fluAt s n
  if p then
    if c.pause then s
    else match c.active with
      | some d =>
        let part := descLeft d (min left d.len)
        let s := descMove s d (min left d.len) host
        let s := { s with flu.again := s.flu.again.map fun x => if x = (n, d) then (n, part) else x }
        onFlu s n fun c => { c with pause := true, paused := true, active := some part, whole := part }
      | none => onFlu s n fun c => { c with pause := true, paused := true }
  else onFlu s n fun c =>
    let c := { c with pause := false, paused := false }
    if c.active.isNone ∧ c.inService then fluNext c else c

/-! ## Table channels (R299) -/

/-- The channel that performs a role. -/
def fluOf (s : State) (role : Nat) : Option Nat :=
  (List.range 40).find? fun n => (fluAt s n).inService ∧ (fluAt s n).serves.toNat = role

/-- A channel serves the table class. -/
def fluTable (c : FluCh) : Bool := c.cls = 1

/-- A table channel has completed a descriptor while the recovery runs: the channels run alone one after another, and the
recovery ends, as a class 0 event, once the retry has succeeded. -/
def tableDone (s : State) (n : Nat) : State :=
  if ¬ s.flu.stopped ∨ ¬ fluTable (fluAt s n) then s
  else match s.flu.alone with
    | none => fault0 { s with flu.stopped := false }
    | some r =>
      if (fluAt s n).serves.toNat ≠ r then s
      else if r = 35 then fault0 { s with flu.stopped := false, flu.alone := none }
      else { s with flu.alone := some (r + 1) }

/-- A table channel may run now. -/
def tableRuns (s : State) (c : FluCh) : Bool :=
  match s.flu.alone with
  | some r => !fluTable c || decide (c.serves.toNat = r)
  | none => true

/-! ## Substitution (R300) -/

/-- A channel declared faulty: its sets go to an idle spare, or the flue runs with fewer channels. -/
def flueFault (s : State) (n : Nat) : State :=
  let c := fluAt s n
  if c.cls = 3 then s
  else if c.cls = 2 then
    fault1 { onFlu s n (fun c => { c with cls := 3, inService := false }) with str.flueLeft := s.str.flueLeft - 1 } (.flue n) 0x24 [5, n]
  else
    let out := fun (s : State) => onFlu s n fun c => { c with
      cls := 3, serves := 0x3F, inService := false, active := none, rest := [], shadow := [], shdValid := false }
    match (List.range 40).find? fun i => (fluAt s i).cls = 2 with
    | some i =>
      let s := onFlu (out s) i fun x => { c with done := x.done, fails := [], inService := true }
      let s := { s with flu.again := s.flu.again.map fun (m, d) => if m = n then (i, d) else (m, d) }
      spareUsed { s with str.flueLeft := s.str.flueLeft - 1 } (.flue n) (.flue i)
    | none => budgetSpent (out s) (.flue n)

/-! ## Meanings -/

/-- FLUE_DESCRIPTOR_DONE: a running channel finishes its descriptor: the bytes are at their destination, its STATUS reads
01h, and the next descriptor or the shadow becomes active. `host`: the bytes a host source gave. -/
def flueDescriptorDone (s : State) (n : Fin 40) (host : List Byte) : State :=
  let c := fluAt s n
  match c.active with
  | none => s
  | some d =>
    if c.pause ∨ ¬ c.inService ∨ ¬ tableRuns s c ∨ ¬ blkEn s 4 then s
    else
      let s := descStatus (descMove s d 0 host) d 1
      let s := { s with flu.again := s.flu.again.filter fun x => x ≠ (n.val, d) }
      tableDone (onFlu s n fun c => fluNext { c with done := c.done + 1 }) n

/-- A bus error that recurs in the hob or the LPDDR5X counts against the channel (R300). -/
def flueFailed (s : State) (n : Nat) : State :=
  let recent := (fluAt s n).fails.filter fun t => s.time < t + 1000000
  let s := onFlu s n fun c => { c with fails := s.time :: recent }
  if recent.isEmpty then s else flueFault s n

/-- A recurring host-memory error ends the command whose data the channel moves. -/
def flueHostFail (s : State) (n : Nat) : State :=
  match (fluAt s n).ctx with
  | some c => { s with host.dataErr := s.host.dataErr ++ [c] }
  | none => s

/-- FLUE_BUS_ERROR: an active descriptor meets a bus error at its destination (`atDst`) or its source, with `left` bytes not
yet written. A host-data channel marks it, goes on with the next, and the unwritten part is issued once more; a table
channel stops all four, which retry together. -/
def flueBusError (s : State) (n : Fin 40) (atDst : Bool) (left : Nat) (host : List Byte) : State :=
  let c := fluAt s n
  match c.active with
  | none => s
  | some d =>
    if c.pause ∨ ¬ c.inService ∨ ¬ tableRuns s c ∨ ¬ blkEn s 4 then s
    else
      let left := min left d.len
      let space := if atDst then d.dstSpace else d.srcSpace
      let part := descLeft d left
      let s := descMove s d left host
      if fluTable c then
        let s := onFlu s n fun c => { c with active := some part, whole := part }
        let s := if space ≠ 2 then flueFailed s n else s
        let s := { s with flu.events := satInc s.flu.events }
        if s.flu.alone.isSome then { s with flu.alone := none, flu.stopped := false }
        else if s.flu.stopped then { s with flu.alone := some 32 }
        else { s with flu.stopped := true }
      else
        let s := descStatus s d (if atDst then 3 else 2)
        if (n.val, d) ∈ s.flu.again then
          let s := { s with flu.again := s.flu.again.erase (n.val, d) }
          let s := onFlu s n fun c => fluNext { c with descBad := true }
          if space = 2 then flueHostFail s n else flueFailed s n
        else
          let s := { s with flu.again := s.flu.again ++ [(n.val, part)] }
          let s := onFlu s n fun c => fluNext { c with descBad := true, rest := c.rest ++ [part] }
          if space = 2 then s else flueFailed s n

end Sys2Proof.Machine
end

