-- ==== Sys2Proof/Machine/Transport.lean ====
section
/-! DEFINITION. The NVMe transport: contexts, acceptance, the checks made when a command is accepted, and posting
completions (R340 to R358, R378 to R385). -/
namespace Sys2Proof.Machine
open Sys2Proof

/-! ## Contexts -/

/-- A command context. -/
def ctxBy (s : State) (c : Nat) : Option Ctx := (s.host.ctxs.find? fun x => x.1 = c).map (·.2)

/-- A context changed. -/
def onCtx (s : State) (c : Nat) (f : Ctx → Ctx) : State :=
  { s with host.ctxs := s.host.ctxs.map fun x => if x.1 = c then (x.1, f x.2) else x }

/-- Bits [hi:lo] of command dword 10 and on. -/
def dwBits (w : Word) (hi lo : Nat) : Nat := bitsOf w hi lo

/-- KEYLEN and FLAGS of an object command. -/
def SqEntry.keyLen (e : SqEntry) : Nat := dwBits e.dw10 7 0
def SqEntry.flags (e : SqEntry) : Nat := dwBits e.dw10 15 8
/-- HANDLE, VERSION, ARG_A and ARG_B. -/
def SqEntry.handle (e : SqEntry) : Nat := dwBits e.dw2 15 0
def SqEntry.argA (e : SqEntry) : Nat := e.dw12.toNat + e.dw13.toNat * 2 ^ 32
def SqEntry.argB (e : SqEntry) : Nat := e.dw14.toNat + e.dw15.toNat * 2 ^ 32
/-- The key at KPTR. -/
def SqEntry.key (e : SqEntry) : List Byte := padTo e.keyLen (e.kbytes.take e.keyLen)
/-- The two-key block and the copy block at KPTR (Tables 13.6 and 13.7). -/
def SqEntry.block (e : SqEntry) : List Byte := padTo 576 (e.kbytes.take 576)
def SqEntry.blkNat (e : SqEntry) (i n : Nat) : Nat := leNat (slice e.block i n)

/-- An object command: NSID 1 on an I/O queue, opcode 80h or above. -/
def isObject (x : Ctx) : Bool := decide (x.sq ≠ 0 ∧ x.entry.nsid = 1 ∧ 0x80 ≤ x.entry.opc.toNat)
/-- A zoned command. -/
def isZoned (x : Ctx) : Bool := decide (x.sq ≠ 0 ∧ x.entry.nsid = 2)
/-- A command of an I/O queue. -/
def isIo (x : Ctx) : Bool := decide (x.sq ≠ 0)
/-- An admin command with an opcode. -/
def isAdmin (op : Byte) (x : Ctx) : Bool := decide (x.sq = 0 ∧ x.entry.opc = op)
/-- An object command with an opcode. -/
def isObj (op : Byte) (x : Ctx) : Bool := isObject x && decide (x.entry.opc = op)

/-- A command that takes its effect in acceptance order (R383, R420, R471, R473): I/O commands, Format NVM, Sanitize and
Security Send. -/
def ordered (x : Ctx) : Bool :=
  isIo x || decide (x.entry.opc = 0x80 ∨ x.entry.opc = 0x81 ∨ x.entry.opc = 0x84)

/-- Every ordered command accepted before a number has taken its effect. -/
def orderClear (s : State) (n : Nat) : Bool :=
  s.host.ctxs.all fun x => !(ordered x.2 && decide (x.2.accept < n ∧ x.2.phase = .accepted))

/-- A context whose command may take its effect now: it is its turn, and no restore holds it (R521). -/
def turn (s : State) (x : Ctx) : Bool :=
  decide (x.phase = .accepted) && (!ordered x || orderClear s x.accept) && (!isIo x || s.pwr.restored)

/-- A command whose host memory failed again ends with 04h Data Transfer Error (R298, Table 12.3). -/
def dataError (s : State) (c : Nat) : State :=
  onCtx s c fun x => { x with phase := .done ⟨0, 4, 0, if isObject x then x.accept % 2 ^ 32 else 0, []⟩ }

/-- A command runs in a context: when the context holds such a command and its turn has come; not when its host memory has
failed again. -/
def onTurn (s : State) (c : Nat) (is : Ctx → Bool) (f : Ctx → State) : State :=
  match ctxBy s c with
  | some x =>
    if is x && turn s x then (if c ∈ s.host.dataErr then dataError s c else f x) else s
  | none => s

/-- A command ends with a completion; DW1 of an object command is its acceptance number (R381). -/
def finish (s : State) (c sct sc dw0 : Nat) (data : List Byte := []) : State :=
  onCtx s c fun x => { x with phase := .done ⟨sct, sc, dw0, if isObject x then x.accept % 2 ^ 32 else 0, data⟩ }

/-- A command ends with success. -/
def succeed (s : State) (c dw0 : Nat) (data : List Byte := []) : State := finish s c 0 0 dw0 data

/-- A command ends with an object status of Table 13.3. -/
def refuse7 (s : State) (c sc dw0 : Nat) : State := finish s c 7 sc dw0

/-- A command ends with 02h Invalid Field in Command. -/
def invalidField (s : State) (c : Nat) : State := finish s c 0 2 0

/-! ## Controller registers (R344 to R346) -/

/-- CAP: the capability values of Table 12.2 in NVMe's places, as R344 takes them. -/
def capRegister : DWord := BitVec.ofNat 64 <|
  0x0FFF + 2 ^ 16 * 1 + 2 ^ 17 * 1 + 2 ^ 24 * 0x3C + 2 ^ 32 * 0 + 2 ^ 36 * 0 + 2 ^ 37 * 0x41 + 2 ^ 48 * 0 + 2 ^ 52 * 4
/-- VS: NVMe 2.0. -/
def vsRegister : Word := 0x00020000
/-- CSTS: RDY, CFS after a class 3 fault (R346), SHST and PP. -/
def cstsRegister (s : State) : Word :=
  packFields [(0, 1, bit s.host.rdy), (1, 1, bit s.flt.class3), (2, 2, s.host.shst), (5, 1, bit s.host.pp)]

/-! ## Submission queues and arbitration (R348, R352) -/

/-- A submission queue. -/
def sqBy (s : State) (q : Nat) : Option SubQueue := (s.host.sqs.find? fun x => x.1 = q).map (·.2)
/-- A submission queue changed. -/
def onSubq (s : State) (q : Nat) (f : SubQueue → SubQueue) : State :=
  { s with host.sqs := s.host.sqs.map fun x => if x.1 = q then (x.1, f x.2) else x }
/-- A completion queue. -/
def cqBy (s : State) (q : Nat) : Option CompQueue := (s.host.cqs.find? fun x => x.1 = q).map (·.2)
/-- A completion queue changed. -/
def onCompq (s : State) (q : Nat) (f : CompQueue → CompQueue) : State :=
  { s with host.cqs := s.host.cqs.map fun x => if x.1 = q then (x.1, f x.2) else x }

/-- Contexts of a queue drawn from its reserve, and contexts drawn from the pool. -/
def reserveUsed (s : State) (q : Nat) : Nat := (s.host.ctxs.filter fun x => x.2.sq = q ∧ ¬ x.2.pooled).length
def poolUsed (s : State) : Nat := (s.host.ctxs.filter fun x => x.2.pooled).length
/-- The shared pool: what the reserves of the admin queue and of the I/O queues leave of 4,096. -/
def poolSize (s : State) : Nat := 4096 - 32 - 8 * (s.host.sqs.filter fun q => q.1 ≠ 0).length

/-- The context that a queue may draw now, and whether it comes from the pool. -/
def ctxDraw (s : State) (q : Nat) : Option (Nat × Bool) :=
  let free := (List.range 4096).find? fun i => !s.host.ctxs.any fun x => x.1 = i
  if reserveUsed s q < (if q = 0 then 32 else 8) then free.map (·, false)
  else if q ≠ 0 ∧ poolUsed s < poolSize s then free.map (·, true)
  else none

/-- A queue holds an entry and may draw a context. -/
def eligible (s : State) (q : Nat) : Bool :=
  match sqBy s q with
  | some x => decide (x.head ≠ x.tail) && x.deleting.isNone && (ctxDraw s q).isSome
  | none => false

/-- The class that arbitration serves a queue in: with weighted round-robin the admin queue, the urgent class, the rest. -/
def arbClass (s : State) (q : Nat) : Nat :=
  if s.host.ams ≠ 1 then 0 else if q = 0 then 0 else match sqBy s q with
    | some x => if x.prio = 0 then 1 else 2
    | none => 3

/-- The Arbitration Burst; 7 means no limit. -/
def arbBurst (s : State) : Nat :=
  let b := lookupD s.host.feats 1 0 % 8
  if b = 7 then 65536 else 2 ^ b

/-- The weights of the high, medium and low classes: the commands each may fetch in a round, 0's based. PRESUMED (log entry 165):
their places in the Arbitration feature are NVMe's. -/
def arbWeights (s : State) : Nat × Nat × Nat :=
  let f := lookupD s.host.feats 1 0
  (f / 2 ^ 24 % 256 + 1, f / 2 ^ 16 % 256 + 1, f / 2 ^ 8 % 256 + 1)

/-- What a weighted class (1 high, 2 medium, 3 low) has left of a round. -/
def creditOf (c : Nat × Nat × Nat) (prio : Nat) : Nat := if prio = 1 then c.1 else if prio = 2 then c.2.1 else c.2.2

/-- A queue's priority: 0 urgent to 3 low. -/
def prioOf (s : State) (q : Nat) : Nat := match sqBy s q with | some x => x.prio | none => 0

/-- What the weighted classes may still fetch: a round is over once no class with a queue that waits has any left, and the next
one begins with the weights. -/
def creditsNow (s : State) : Nat × Nat × Nat :=
  if s.host.sqs.any fun y => arbClass s y.1 = 2 ∧ eligible s y.1 ∧ 0 < creditOf s.host.credits y.2.prio then s.host.credits
  else arbWeights s

/-- A queue's class may still fetch in this round: without weights, and outside the weighted classes, always. -/
def inRound (s : State) (q : Nat) : Bool := decide (arbClass s q ≠ 2 ∨ 0 < creditOf (creditsNow s) (prioOf s q))

/-- What is left of the round after a fetch from a queue. -/
def creditsAfter (s : State) (q : Nat) : Nat × Nat × Nat :=
  if arbClass s q ≠ 2 then s.host.credits
  else match creditsNow s, prioOf s q with
    | (h, m, l), 1 => (h - 1, m, l)
    | (h, m, l), 2 => (h, m - 1, l)
    | (h, m, l), _ => (h, m, l - 1)

/-- Arbitration may fetch from a queue now: no class before its own waits, its weighted class has commands left in the round,
and a grant of the full burst is over while another queue that may be granted waits. HST is enabled. -/
def mayFetch (s : State) (q : Nat) : Bool :=
  let others := (s.host.sqs.map (·.1)).filter fun i => i ≠ q ∧ eligible s i
  blkEn s 19 && eligible s q && inRound s q && others.all (fun i => decide (arbClass s q ≤ arbClass s i)) &&
    !(decide (s.host.grant.1 = q ∧ arbBurst s ≤ s.host.grant.2) && others.any fun i => arbClass s i = arbClass s q ∧ inRound s i)

/-! ## Checks made at acceptance (R355 to R359, R366, R378 to R382, R419) -/

/-- Admin opcodes of Table 12.5. -/
def adminOps : List Nat := [0x00, 0x01, 0x02, 0x04, 0x05, 0x06, 0x08, 0x09, 0x0A, 0x0C, 0x10, 0x11, 0x80, 0x81, 0x82, 0x84, 0xC0, 0xC1]
/-- Object opcodes of Table 13.2. -/
def objOps : List Nat := [0x80, 0x81, 0x85, 0x88, 0x82, 0x86, 0x8A, 0x8C, 0x90, 0x94, 0x98, 0x9E]
/-- Zoned opcodes of Table 14.2. -/
def zoneOps : List Nat := [0x01, 0x02, 0x79, 0x7A, 0x7D]
/-- Admin opcodes not permitted during a sanitize (log entry 30). -/
def sanitizeBars : List Nat := [0x10, 0x11, 0x80, 0x81, 0x82, 0x84]

/-- Bytes of the pages that a command's data transfer states; none where the pointer's own length counts. -/
def dataLen (admin : Bool) (e : SqEntry) : Option Nat :=
  if admin then
    match e.opc.toNat with
    | 0x02 => some ((dwBits e.dw10 31 16 + dwBits e.dw11 15 0 * 65536 + 1) * 4)
    | 0x06 => some 4096
    | 0x11 => some ((e.dw10.toNat + 1) * 4)
    | 0x81 | 0x82 => some e.dw11.toNat
    | 0xC0 | 0xC1 => some e.dw10.toNat
    | _ => none
  else if e.nsid = 1 then
    match e.opc.toNat with
    | 0x81 => some e.dw11.toNat
    | 0x82 => some e.dw14.toNat
    | 0x85 => if e.flags % 2 = 1 then some 64 else none
    | _ => none
  else
    match e.opc.toNat with
    | 0x01 | 0x02 | 0x7D => some ((dwBits e.dw12 15 0 + 1) * 4096)
    | 0x7A => some ((e.dw12.toNat + 1) * 4)
    | _ => none

/-- Bytes of the data pointer. -/
def ptrLen (e : SqEntry) : Nat := (e.blocks.map (·.2)).foldl (· + ·) 0

/-- Data blocks that are contiguous in host memory merged (R355). -/
def mergeBlocks (bs : List (Nat × Nat)) : List (Nat × Nat) :=
  (bs.foldl (fun (acc : List (Nat × Nat)) b => match acc with
    | (a, n) :: r => if a + n = b.1 then (a, n + b.2) :: r else b :: acc
    | [] => [b]) []).reverse

/-- Two blocks of a list overlap. -/
def blocksMeet : List (Nat × Nat) → Bool
  | [] => false
  | b :: bs => bs.any (fun d => decide (b.1 < d.1 + d.2 ∧ d.1 < b.1 + b.2)) || blocksMeet bs

/-- The command's data moves to the host. -/
def toHost (admin : Bool) (e : SqEntry) : Bool := decide (e.opc.toNat % 4 = 2) || (admin && decide (e.opc = 0xC1))

/-- The transport's refusal of a data pointer (Table 12.3): code type, code, DW0. -/
def transferStatus (admin : Bool) (e : SqEntry) : Option (Nat × Nat × Nat) :=
  let n := (dataLen admin e).getD (ptrLen e)
  if e.blocks.isEmpty ∧ n = 0 then none
  else if e.psdt = 0 ∧ e.blocks.any (fun b => b.1 % 4 ≠ 0) then some (0, 0x13, 0)
  else if e.psdt ≠ 0 ∧ ¬ e.sglKindsOk then some (0, 0x11, 0)
  else if 524288 < n then some (0, 2, 0)
  else if e.psdt ≠ 0 ∧ ptrLen e ≠ n then some (0, 0x0F, 0)
  else
    let l := mergeBlocks e.blocks
    if l.any (fun b => b.2 = 0) then some (7, 0xF1, 1)
    else if 256 < l.length then some (7, 0xF1, 4)
    else if toHost admin e ∧ blocksMeet l then some (7, 0xF1, 2)
    else none

/-- A buffer at KPTR crosses a memory page. -/
def kptrCrosses (s : State) (e : SqEntry) (n : Nat) : Bool :=
  let page := 4096 * 2 ^ s.host.mps
  decide (page < e.kptr.toNat % page + n)

/-- An object command's fields are outside their range (R378, R379, R382). -/
def objBad (s : State) (e : SqEntry) : Bool :=
  let key := decide (e.keyLen = 0) || kptrCrosses s e e.keyLen
  let blk := fun (n : Nat) => decide (e.kptr.toNat % 8 ≠ 0) || kptrCrosses s e n
  match e.opc.toNat with
  | 0x80 => key || decide (64 < dwBits e.dw11 6 0)
  | 0x81 => decide (e.dw11.toNat = 0 ∨ 524288 < e.dw11.toNat)
  | 0x82 => key || decide (e.dw14.toNat = 0 ∨ 524288 < e.dw14.toNat)
  | 0x86 | 0x90 | 0x9E => key
  | 0x8A => blk 528 || decide (e.flags % 4 = 3)
  | 0x8C => blk 576 || decide (e.blkNat 0 1 = 0 ∨ e.blkNat 1 1 = 0 ∨ 64 < e.blkNat 2 1)
  | 0x94 => key || decide (e.flags % 4 = 3)
  | 0x98 => kptrCrosses s e e.keyLen
  | _ => false

/-- A zoned command's action or option is not supported (R419). -/
def zoneBad (e : SqEntry) : Bool :=
  match e.opc.toNat with
  | 0x79 => decide (dwBits e.dw13 7 0 = 0 ∨ 4 < dwBits e.dw13 7 0)
  | 0x7A => decide (dwBits e.dw13 7 0 ≠ 0 ∨ 7 < dwBits e.dw13 15 8)
  | _ => false

/-- A sanitize, or a format, is in progress (R366, R443). -/
def sanitizing (s : State) : Bool := s.mop.sanitize && decide (1 ≤ s.mop.rec_.state ∧ s.mop.rec_.state ≤ 3)
def formatting (s : State) : Bool := !s.mop.sanitize && decide (1 ≤ s.mop.rec_.state ∧ s.mop.rec_.state ≤ 3)

/-- The status that refuses a command when it is accepted, with nothing done: code type, code, DW0. -/
def acceptStatus (s : State) (q : Nat) (e : SqEntry) : Option (Nat × Nat × Nat) :=
  let op := e.opc.toNat
  if q = 0 then
    if op ∉ adminOps then some (0, 1, 0)
    else if sanitizing s ∧ op ∈ sanitizeBars then some (0, 0x1D, 0)
    else if e.fuse ≠ 0 then some (0, 2, 0)
    else if op = 0xC0 ∧ (e.dw10.toNat < 16 ∨ 65536 < e.dw10.toNat) then some (0, 2, 0)
    else transferStatus true e
  else
    let zones := !s.zns.zones.isEmpty
    if e.nsid ≠ 1 ∧ ¬ (e.nsid = 2 ∧ zones) then some (0, 0x0B, 0)
    else if op ≠ 0 ∧ op ∉ (if e.nsid = 1 then objOps else zoneOps) then some (0, 1, 0)
    else if sanitizing s then some (0, 0x1D, 0)
    else if formatting s then some (0, 0x82, 0)
    else if s.sec.lc = .decommissioned ∧ op ≠ 0 then some (Config.decommissionedStatus.1, Config.decommissionedStatus.2, 0)
    else if e.fuse ≠ 0 then some (0, 2, 0)
    else match transferStatus false e with
      | some st => some st
      | none => if (if e.nsid = 1 then objBad s e else zoneBad e) then some (0, 2, 0) else none

/-- HOST_TIME of a command (R377). -/
def hostTime (q : Nat) (e : SqEntry) : Nat :=
  if q = 0 ∨ e.nsid ≠ 1 then 0
  else match e.opc.toNat with
    | 0x80 | 0x85 | 0x90 | 0x94 => e.argB
    | 0x8C => e.blkNat 568 8
    | _ => 0

/-- COMMAND_ACCEPT: the queue engine fetches the next entry `e` of a submission queue: it takes a context and the next
acceptance number, below a ceiling that is raised in time; the retention clock takes its HOST_TIME; a command the checks
refuse is complete. Where arbitration passes over the queue, nothing happens. -/
def commandAccept (s : State) (q : Nat) (e : SqEntry) : State :=
  match sqBy s q, ctxDraw s q with
  | some sq, some (c, pooled) =>
    if ¬ s.host.fetching ∨ ¬ mayFetch s q then s
    else
      let n := s.host.accept
      let clock := max s.obj.clock (hostTime q e)
      let x : Ctx :=
        { sq := q, pooled := pooled, accept := n, entry := e, phase := .accepted, staged := false,
          inflight := s.host.ctxs.map (·.2.accept), ends := false, lines := [], clock := clock, parts := [], recheck := false, stream := none, checked := false }
      let refused := acceptStatus s q e
      let credits := creditsAfter s q
      let s := onSubq s q fun y => { y with head := (sq.head + 1) % sq.size }
      let s := { s with
        host.ctxs := s.host.ctxs ++ [(c, x)], host.accept := n + 1,
        host.ceiling := if s.host.ceiling ≤ n + 1 then s.host.ceiling + 2 ^ 20 else s.host.ceiling,
        host.peak := max s.host.peak (s.host.ctxs.length + 1), obj.clock := clock,
        host.grant := if s.host.grant.1 = q then (q, s.host.grant.2 + 1) else (q, 1), host.credits := credits }
      match refused with
      | some (t, sc, d) => finish s c t sc d
      | none => s
  | _, _ => s

/-! ## Posting completions (R349, R351, R381, R385) -/

/-- A Put Data, Put Commit or Put Abort. -/
def isSessionCmd (x : Ctx) : Bool := isObj 0x81 x || isObj 0x85 x || isObj 0x88 x

/-- A command that must be posted before another (R385). -/
def postsBefore (y x : Ctx) : Bool :=
  decide (y.accept < x.accept) &&
    ((isObj 0x81 y && isSessionCmd x && decide (y.entry.handle = x.entry.handle)) ||
     (x.ends && isObj 0x82 x && isObj 0x82 y && decide (y.entry.flags % 2 = 1 ∧ y.entry.handle = x.entry.handle)))

/-- A completion may be posted now. -/
def mayPost (s : State) (x : Ctx) : Bool := !s.flt.class3 && s.host.ctxs.all fun y => !postsBefore y.2 x

/-- An open session by handle: its slot number. -/
def sessionAt (s : State) (handle : Nat) : Option (Nat × Session) :=
  match s.obj.slots[handle % 256]? with
  | some sl => if sl.gen = handle / 256 then (sl.sess.filter fun x => !x.copying).map (handle % 256, ·) else none
  | none => none

/-- A session slot changed. -/
def onSlot (s : State) (n : Nat) (f : SessSlot → SessSlot) : State :=
  { s with obj.slots := s.obj.slots.zipIdx.map fun (x, i) => if i = n then f x else x }
/-- An open session changed. -/
def onSession (s : State) (n : Nat) (f : Session → Session) : State := onSlot s n fun sl => { sl with sess := sl.sess.map f }

/-- The interrupt of a completion on a vector: at once, or once the threshold of the coalescing feature is reached; vector
0 is never coalesced (R349). -/
def interrupt (s : State) (v : Nat) : State :=
  let thr := lookupD s.host.feats 8 0 % 256
  let time := lookupD s.host.feats 8 0 / 256 % 256
  let off := lookupD s.host.feats (9 + 256 * v) 0 / 65536 % 2 = 1
  let send := fun (s : State) => { s with
    host.msix := assocSet s.host.msix v (lookupD s.host.msix v 0 + 1), host.agg := s.host.agg.filter fun a => a.1 ≠ v }
  if v = 0 ∨ thr = 0 ∨ time = 0 ∨ off then send s
  else
    let (n, since) := match s.host.agg.find? fun a => a.1 = v with | some a => (a.2.1, a.2.2) | none => (0, s.time)
    if thr + 1 ≤ n + 1 then send s
    else { s with host.agg := (s.host.agg.filter fun a => a.1 ≠ v) ++ [(v, n + 1, since)] }

/-- A waiting command whose end follows from the state: a Sync or Flush whose covered leaves are durable, and an
Asynchronous Event Request that an event meets. -/
def settleCtx (s : State) (c : Nat) : State :=
  match ctxBy s c with
  | none => s
  | some x =>
    match x.phase with
    | .waitDurable uids => if uids.all (fun u => !(stagedBy s u).any (·.dirty)) then succeed s c 0 else s
    | .outstanding =>
      if isAdmin 0x0C x then
        match s.host.events with
        | (t, i, p) :: r => succeed { s with host.events := r } c (t + 256 * i + 65536 * p)
        | [] => s
      else if isAdmin 0 x then
        let q := dwBits x.entry.dw10 15 0
        if (s.host.ctxs.any fun y => y.2.sq = q) || (sqBy s q).any (fun y => !y.aborts.isEmpty) then s
        else succeed { s with host.sqs := s.host.sqs.filter fun y => y.1 ≠ q } c 0
      else s
    | _ => s

/-- What a posted success means: the bytes of a Put Data are acknowledged (R387, R389). -/
def acknowledge (s : State) (x : Ctx) (r : Completion) : State :=
  if isObj 0x81 x ∧ r.sct = 0 ∧ r.sc = 0 then
    match sessionAt s x.entry.handle with
    | some (n, _) => onSession s n fun y => { y with acked := max y.acked (x.entry.argA + x.entry.dw11.toNat) }
    | none => s
  else s

/-- A context freed: its requests and pins go. -/
def freeCtx (s : State) (c : Nat) (x : Ctx) : State :=
  let s := pinLines s false x.lines
  { s with
    host.ctxs := s.host.ctxs.filter fun y => y.1 ≠ c, host.dataErr := s.host.dataErr.filter (· ≠ c) }

/-- One unfetched entry of a queue that is deleted completes with 08h, when the completion queue has room (R367). -/
def postAbort (s : State) (q : Nat) : State :=
  match sqBy s q with
  | some x => match x.aborts, cqBy s x.cq with
    | cid :: rest, some cq =>
      if (cq.tail + 1) % cq.size = cq.head then s
      else
        let s := onCompq s x.cq fun y => { y with tail := (y.tail + 1) % y.size, entries := y.entries ++ [⟨q, cid, ⟨0, 8, 0, 0, []⟩⟩] }
        let s := onSubq s q fun y => { y with aborts := rest }
        if cq.irq then interrupt s cq.vector else s
    | _, _ => s
  | none => s

/-- COMPLETION_POST: a completion is posted when its completion queue has room and the order of R385 allows; until then it
waits in the completion staging with its context. An error is noted in the error information log. -/
def completionPost (s : State) (c : Fin 4096) : State :=
  let s := match ctxBy s c with
    | some x => if isAdmin 0 x ∧ x.phase = .outstanding ∧ ¬ s.flt.class3 then postAbort s (dwBits x.entry.dw10 15 0) else s
    | none => s
  let s := settleCtx s c
  match ctxBy s c with
  | none => s
  | some x =>
    match x.phase, (sqBy s x.sq).bind fun q => (cqBy s q.cq).map fun cq => (q.cq, cq) with
    | .done r, some (qid, cq) =>
      let r := if c.val ∈ s.host.dataErr ∧ r.data ≠ [] then ⟨0, 4, 0, r.dw1, []⟩ else r
      if ¬ mayPost s x then s
      else if (cq.tail + 1) % cq.size = cq.head then onCtx s c fun y => { y with staged := true }
      else
        let s := onCompq s qid fun q => { q with tail := (q.tail + 1) % q.size, entries := q.entries ++ [⟨x.sq, x.entry.cid, r⟩] }
        let s := acknowledge (freeCtx s c x) x r
        let s := if r.sct = 0 ∧ r.sc = 0 then s else { s with
          host.errCount := s.host.errCount + 1,
          host.errs := (⟨s.host.errCount + 1, x.sq, x.entry.cid, r.sct, r.sc⟩ :: s.host.errs).take 64 }
        if cq.irq then interrupt s cq.vector else s
    | _, _ => s

/-- AGGREGATION_TIME_EXPIRE: a vector's aggregation time has run out and its pending interrupt is sent. -/
def aggregationTimeExpire (s : State) (v : Fin 65) : State :=
  match s.host.agg.find? fun a => a.1 = v.val with
  | none => s
  | some a =>
    let s := s.at (a.2.2 + 100 * (lookupD s.host.feats 8 0 / 256 % 256))
    { s with host.msix := assocSet s.host.msix v (lookupD s.host.msix v 0 + 1), host.agg := s.host.agg.filter fun a => a.1 ≠ v.val }

/-! ## Doorbells (R350) -/

/-- An invalid doorbell write: ignored, with the error event of NVMe (code 00h for a queue that does not exist, 01h for a
value beyond the queue). -/
def badDoorbell (s : State) (code : Nat) : State := { s with host.events := s.host.events ++ [(0, code, 1)] }

/-- SQ_DOORBELL_WRITE. -/
def sqDoorbellWrite (s : State) (q value : Nat) : State :=
  match sqBy s q with
  | none => badDoorbell s 0
  | some x => if x.size ≤ value then badDoorbell s 1 else onSubq s q fun y => { y with tail := value }

/-- CQ_DOORBELL_WRITE: the entries before the new head are consumed. A head beyond the posted entries is invalid. -/
def cqDoorbellWrite (s : State) (q value : Nat) : State :=
  match cqBy s q with
  | none => badDoorbell s 0
  | some x =>
    let n := (value + x.size - x.head) % x.size
    if x.size ≤ value ∨ x.entries.length < n then badDoorbell s 1
    else onCompq s q fun y => { y with head := value, entries := y.entries.drop n }

end Sys2Proof.Machine
end

