-- ==== Sys2Proof/Machine/Staging.lean ====
section
/-! DEFINITION. Bytes of sessions and zones entering the write staging, admission under the dirty limit, and the removal of
what a controller reset abandons (R13, R14, R289, R388 to R395, R468). -/
namespace Sys2Proof.Machine
open Sys2Proof

/-! ## Enciphering (R468, R474) -/

/-- A range's key: in its slot, or unwrapped by hearthstone while the storage wrapping key stands. -/
def rangeKey (s : State) (r : Nat) : Option (List Byte) :=
  let row := s.sec.ranges.getD r default
  match row.slot with
  | some k => some k
  | none => match s.sec.swk, row.wrappedKey with
    | some w, some k => kwUnwrap w k
    | _, _ => none

/-- A leaf's valid bytes as stored. -/
def leafStored (s : State) (objectId lrange offset : Nat) (plain : List Byte) : List Byte :=
  if lrange = 0 then plain
  else match rangeKey s lrange with
    | some k => xtsLeaf false k objectId offset plain
    | none => plain.map fun _ => 0

/-- A stored leaf's valid bytes in plaintext; none while its range has no key. -/
def leafPlain (s : State) (coded : List Byte) : Option (List Byte) :=
  let oid := leNat (slice coded 8 8)
  let lr := leNat (slice coded 32 1)
  let b := (payloadOf coded).take (validLenOf coded)
  if lr = 0 then some b
  else (rangeKey s lr).map fun k => xtsLeaf true k oid (leNat (slice coded 24 8)) b

/-! ## Admission (R14, R289) -/

/-- A write is held at submission: dirty leaves are written home at once (R14). -/
def holdWrite (s : State) (c : Nat) : State :=
  let s := onCtx s c fun x => { x with phase := .held }
  if s.pwr.wrHeld then s else writeHome s

/-- A write whose effect is `t` takes it when it is admitted, and is held otherwise. -/
def stageOr (s t : State) (c : Nat) : State := if admits s t then t else holdWrite s c

/-- A step that adds records to the index log takes effect when the dirty limit admits what it opens; else its command waits. -/
def withRoom (s : State) (f : State → State) : State :=
  if admits s (f s) then f s else if s.pwr.wrHeld then s else writeHome s

/-! ## Staging bytes (R289, R390) -/

/-- What staged bytes belong to. -/
structure StageFor where
  objectId : Nat
  version : Nat
  key : List Byte
  accept : Nat
  lrange : Nat → Nat       -- by offset: one range for an object, a leaf's own for a zone

/-- Leaf i of a version or zone takes its bytes: an open leaf grows, a leaf already formed is followed by a new one. A full
leaf is formed. -/
def stageLeaf (s : State) (f : StageFor) (refs : List LeafRef) (i : Nat) (plain : List Byte) : State × List LeafRef :=
  let off := 32768 * i
  let stored := leafStored s f.objectId (f.lrange off) off plain
  let open' := (refs[i]?).bind fun r => (stagedBy s r.uid).filter fun l => l.place.isNone
  let (s, uid) := match open' with
    | some l => (stagedGrow s l stored (f.key, f.accept) fun l => { l with mramGroup := none }, l.uid)
    | none => stageNew s .data f.objectId f.version off (f.lrange off) stored f.key f.accept
  let refs := if i < refs.length then refs.set i ⟨uid, none⟩ else refs ++ [⟨uid, none⟩]
  (s, refs)

/-- Leaves i on take their bytes from the plaintext so far; the fuel is their number. -/
def stageLeaves (f : StageFor) (plain : List Byte) : Nat → Nat → State × List LeafRef → State × List LeafRef
  | 0, _, st => st
  | n + 1, i, st => stageLeaves f plain n (i + 1) (stageLeaf st.1 f st.2 i (slice plain (32768 * i) 32768))

/-- References with the places that their staged leaves have by now. -/
def refsNow (s : State) (refs : List LeafRef) : List LeafRef :=
  refs.map fun r => match stagedBy s r.uid with
    | some l => { r with place := l.place }
    | none => r

/-- Full leaves among references formed. -/
def formFull (s : State) (refs : List LeafRef) : State :=
  (refs.filter fun r => (stagedBy s r.uid).any fun l => l.place.isNone ∧ l.validLen = 32768).foldl (fun s r => formLeaf s r.uid) s

/-! ## What a reset abandons (R364, R394, R395) -/

/-- A leaf that nothing names any more leaves the dirty count; one not yet placed is discarded (R394). -/
def dropLeaf (s : State) (uid : Nat) : State :=
  match stagedBy s uid with
  | some l =>
    if l.place.isNone then stagedKeep s fun x => x.uid ≠ uid else
      releaseStaged (onStaged (leafDurable s uid) uid fun l => { l with emberCopies := [], mramGroup := none })
  | none => s

/-- A session brought back to its acknowledged length. -/
def trimSession (s : State) (n : Nat) (x : Session) : State :=
  let keep := (x.acked + 32767) / 32768
  let s := (x.leaves.drop keep).foldl (fun s r => dropLeaf s r.uid) s
  let plain := x.absorbed.take x.acked
  let last := (x.leaves.take keep).getLast?
  let part := slice plain (32768 * (keep - 1)) 32768
  let cut := last.bind fun r => (stagedBy s r.uid).filter fun l => part.length < l.validLen
  let f : StageFor := ⟨x.objectId, x.version, x.key, 0, fun _ => x.lrange⟩
  let (s, refs) : State × List LeafRef := match cut with
    | some l =>
      let s := if l.place.isSome then leafDurable s l.uid else s
      stageLeaf s f (x.leaves.take keep) (keep - 1) part
    | none => (s, x.leaves.take keep)
  onSession s n fun y => { y with accepted := x.acked, absorbed := plain, leaves := refs }

/-- A session slot ends: its number is never used again, its leaves are named by nothing (R394). -/
def endSession (s : State) (n : Nat) : State :=
  match (s.obj.slots[n]?).bind (·.sess) with
  | some x => onSlot (x.leaves.foldl (fun s r => dropLeaf s r.uid) s) n fun sl => { gen := (sl.gen + 1) % 256, sess := none }
  | none => s

/-- Every outstanding command is abandoned without a completion (R122, R364, R395): its reads end, a Copy that is not yet
applied gives its slot back, streams close (log entry 32), the unacknowledged bytes of sessions go, and a zone's write pointer returns to what it holds. -/
def abandonAll (s : State) : State :=
  let s := s.host.ctxs.foldl (fun s x => abandonReq (pinLines s false x.2.lines) x.1) s
  let s := s.host.ctxs.foldl (fun s x => match x.2.phase with | .moving n => endSession s n | _ => s) s
  let s := { s with
    host.ctxs := [], host.dataErr := [], obj.streams := [],
    sec.op := match s.sec.op with | some (.signing none) => s.sec.op | _ => none }
  let s := (List.range 256).foldl (fun s n => match (s.obj.slots[n]?).bind (·.sess) with
    | some x => if x.accepted = x.acked then s else trimSession s n x
    | none => s) s
  { s with zns.zones := s.zns.zones.map fun z =>
      if z.state = .full ∨ z.wp * 4096 ≤ z.written then z else { z with wp := z.written / 4096 } }

end Sys2Proof.Machine
end

