-- ==== Sys2Proof/Machine/Host.lean ====
section
/-! DEFINITION. Controller readiness, resets and shutdown, the link, queues, the plain admin commands and firmware images
(R340 to R351, R358 to R372, R463, R464). -/
namespace Sys2Proof.Machine
open Sys2Proof

/-! ## Firmware images (R370, R371, R463, R464) -/

/-- The digest of a sequencer store, over its words as the store CRC takes them (R465). -/
def storeDigest (st : Store) : List Byte :=
  shake256 ((List.range 16384).flatMap (fun i => leBytes 3 (lookupD st.micro i 0).toNat) ++
    (List.range 2048).flatMap fun i => leBytes 16 (lookupD st.nano i 0).toNat) 64

/-- The stores of an image loaded into the master copy and every sequencer that is not retired. -/
def loadStores (s : State) (img : FwImage) : State :=
  let st : Store := ⟨img.micro, img.nano⟩
  let crc := storeCrc st
  let n := (s.seq.sq.toList.filter fun q => q.serves ≠ 6).length
  let s := { s with
    seq.master := st, seq.masterBase := img.base, seq.masterPatch := 0, seq.prevMaster := none, seq.patching := none,
    seq.undoing := false, seq.patchCut := false,
    seq.sq := s.seq.sq.map fun q => if q.serves = 6 then q else { q with partly := false, store := st, base := img.base, patch := 0, crc := crc } }
  (List.range n).foldl (fun s _ => measExtend s 2 (storeDigest st)) s

/-- The image of a slot starts: measured, then run (R465); its sequencer stores are loaded. -/
def fwStart (s : State) (slot : Nat) : State :=
  match Config.fwParse (vget s.fw.slots slot []) with
  | some img =>
    let s := measExtend s 1 img.digest
    loadStores { s with
      fw.active := slot, fw.running := some img, fw.runningSince := s.hours, flt.fwRunning := true } img
  | none => s

/-- An image may be activated: verified, its SVN at most 64 and not below the blown fuses (R464). -/
def fwImageOk (s : State) (image : List Byte) : Option FwImage :=
  (Config.fwParse image).filter fun i => i.svn ≤ 64 ∧ s.sec.svnFuses ≤ i.svn

/-- An activation without reset begins (R370, steps 2 and 3). -/
def activateBegin (s : State) (slot c : Nat) : State :=
  trapAll { s with
    host.pp := true, host.fetching := false, host.events := s.host.events ++ [(2, 1, 3)],
    fw.act := some (.running slot, c) } .recall

/-- Every sequencer has ended its recalled routine. -/
def allRecalled (s : State) : Bool :=
  s.seq.sq.toList.all fun q => 4 ≤ q.serves || (q.routine.isNone && q.trapPend.getLsbD 1 == false && q.mode == .quiet)

/-- Steps 4 to 6 of R370: a table switch that waits completes first (R327), and the recalled routines, which the hearth keeps,
are issued again under the new store (R323). -/
def activateEnd (s : State) (slot c : Nat) : State :=
  let s := quietAll { fwStart (tableSwitch s) slot with fw.act := none }
  succeed { s with host.pp := false, host.fetching := s.host.rdy && !s.host.shutting && !s.flt.class3 } c 0

/-- FIRMWARE_ACTIVATION_RESUME: an activation that waited for a banking sequence proceeds once it has ended (R371). -/
def firmwareActivationResume (s : State) : State :=
  match s.fw.act with
  | some (.waiting slot, c) => if s.pwr.banking then s else activateBegin s slot c
  | _ => s

/-- FIRMWARE_ACTIVATION_COMPLETE: once every sequencer is recalled, the new image and its stores are in place. -/
def firmwareActivationComplete (s : State) : State :=
  match s.fw.act with
  | some (.running slot, c) => if allRecalled s ∧ ¬ s.pwr.banking then activateEnd s slot c else s
  | _ => s

/-- FIRMWARE_IMAGE_DOWNLOAD: a piece at a 4 KiB granularity. -/
def firmwareImageDownload (s : State) (c : Fin 4096) (data : List Byte) : State :=
  onTurn s c (isAdmin 0x11) fun x =>
    let off := x.entry.dw11.toNat * 4
    let n := (x.entry.dw10.toNat + 1) * 4
    if off % 4096 ≠ 0 ∨ n % 4096 ≠ 0 then invalidField s c
    else succeed { s with fw.download := memWrite s.fw.download off (padTo n (data.take n)), fw.downLen := max s.fw.downLen (off + n) } c 0

/-- FIRMWARE_COMMIT: actions 000b to 011b over two slots; slot 0 leaves the choice to the controller, which takes the
inactive one. -/
def firmwareCommit (s : State) (c : Fin 4096) : State :=
  onTurn s c (isAdmin 0x10) fun x =>
    let fs := dwBits x.entry.dw10 2 0
    let ca := dwBits x.entry.dw10 5 3
    let slot := if fs = 0 then 1 - s.fw.active else fs - 1
    if 2 < fs then finish s c 1 6 0
    else if 3 < ca ∨ s.fw.act.isSome then invalidField s c
    else
      let fresh := s.fw.downLen ≠ 0 ∧ ca ≠ 2
      let image := if fresh then memRead s.fw.download 0 s.fw.downLen else vget s.fw.slots slot []
      match fwImageOk s image with
      | none => finish s c 1 7 0
      | some img =>
        let s := if fresh then { s with fw.slots := vset s.fw.slots slot image, fw.download := [], fw.downLen := 0 } else s
        if ca = 0 then succeed s c 0
        else if ca ≠ 3 then succeed { s with fw.next := some slot } c 0
        else if img.needsReset then finish s c 1 0x11 0
        else
          let s := onCtx s c fun y => { y with phase := .outstanding }
          if s.pwr.banking then { s with fw.act := some (.waiting slot, c), host.fetching := false }
          else activateBegin s slot c

/-! ## Readiness, resets and shutdown (R345, R346, R364, R365) -/

/-- The number of no context: that of an activation whose Firmware Commit is completed or abandoned. -/
def noCtx : Nat := 4096

/-- An image that takes effect at a controller reset, or whose activation a reset meets (R370, R371): at once where no routine
runs; else its activation goes on after the reset, once the banking sequence has ended and the routines are recalled, and
fetching stays stopped until it completes. -/
def activateAtReset (s : State) (slot : Nat) : State :=
  if s.pwr.banking then { s with fw.act := some (.waiting slot, noCtx) }
  else if s.seq.sq.toList.all fun q => decide (4 ≤ q.serves) || (q.routine.isNone && q.mode == .quiet) then activateEnd s slot noCtx
  else trapAll { s with fw.act := some (.running slot, noCtx) } .recall

/-- The controller is reset: an activation in progress completes, outstanding commands are abandoned, the I/O queues go,
and an image that waits for the reset starts (R364, R370, R371). Acknowledged data, the media work and the spindle go on. -/
def controllerReset (s : State) : State :=
  let s := abandonAll s
  let s := match s.fw.act with
    | some (.running slot, _) => activateAtReset s slot
    | some (.waiting slot, _) => activateAtReset s slot
    | none => s
  let s := match s.fw.next, s.fw.act with
    | some slot, none => activateAtReset { s with fw.next := none } slot
    | _, _ => s
  { s with
    host.en := false, host.rdy := false, host.fetching := false, host.shutting := false, host.shst := 0, host.pp := false,
    host.sqs := [], host.cqs := [], host.feats := [], host.agg := [], host.grant := (0, 0), host.credits := (0, 0, 0) }

/-- CC_EN_SET: CSTS.RDY rises without waiting for the spindle; before the firmware runs and after a class 3 fault it stays 0. The admin queues take
their sizes from AQA (0's based). -/
def ccEnSet (s : State) (asqSize acqSize : Fin 4096) (ams : Fin 2) (mps : Fin 5) : State :=
  if s.host.en ∨ s.host.perst ∨ asqSize.val = 0 ∨ acqSize.val = 0 then s
  else
    { s with
      host.en := true, host.rdy := s.flt.fwRunning && !s.flt.class3,
      host.fetching := s.flt.fwRunning && !s.flt.class3 && s.fw.act.isNone, host.ams := ams, host.mps := mps,
      host.sqs := [(0, ⟨asqSize + 1, 0, 0, 0, 0, none, []⟩)], host.cqs := [(0, ⟨acqSize + 1, 0, 0, 0, true, []⟩)] }

/-- CC_EN_CLEAR. -/
def ccEnClear (s : State) : State := if s.host.en then controllerReset s else s

/-- Steps 3 to 5 of R365, once no command is left. -/
def shutdownGo (s : State) : State :=
  if (s.host.ctxs.any fun x => x.2.phase ≠ .outstanding) then s
  else if dirtyCount s ≠ 0 then writeHome s
  else if ¬ allUnloaded s then unloadAll s 4
  else { s with host.shst := 2, host.shutting := false }

/-- CC_SHN_SHUTDOWN: a normal or an abrupt shutdown; it goes on when the command comes again, until SHST reads 10b. -/
def ccShnShutdown (s : State) (abrupt : Bool) : State :=
  if ¬ s.host.en ∨ s.host.shst = 2 then s
  else if s.host.shutting then shutdownGo s
  else
    let s := { s with host.fetching := false, host.shutting := true, host.shst := 1 }
    shutdownGo (if abrupt then abandonAll s else s)

/-- FUNCTION_LEVEL_RESET: the controller is reset; configuration space is restored, the link is unchanged. -/
def functionLevelReset (s : State) : State := controllerReset s

/-- HOT_RESET_LINK_DOWN: the link is retrained and the controller reset. -/
def hotResetLinkDown (s : State) : State :=
  if ¬ s.host.link.up then s
  else
    let l := s.host.link
    controllerReset { s with host.link := { l with up := false, rate := 0, width := 0, retrains := satAdd 0xFFFF l.retrains 1 } }

/-- PERST_ASSERT: link and HOST island held in reset. -/
def perstAssert (s : State) : State :=
  let l := s.host.link
  controllerReset { s with
    host.perst := true, host.link := { l with up := false, rate := 0, width := 0 } }

/-- PERST_DEASSERT: the HOST island leaves reset and link training starts (R577); the life-cycle state fixes the BARs (R342). -/
def perstDeassert (s : State) : State := { s with host.perst := false, host.fundamental := s.sec.lc }

/-- LINK_UP: training completes at a rate (1–5) and a width (1, 2 or 4). -/
def linkUp (s : State) (rate : Fin 6) (width : Fin 5) : State :=
  if s.host.perst ∨ s.host.link.up ∨ ¬ s.pwr.powered ∨ rate.val = 0 ∨ width.val ∉ [1, 2, 4] then s
  else
    let l := s.host.link
    { s with host.link := { l with up := true, rate := rate, width := width } }

/-! ## Queues (R347, R359, R367) -/

/-- Most I/O queues of each kind. -/
def maxQueues : Nat := 64

/-- CREATE_IO_CQ. -/
def createIoCq (s : State) (c : Fin 4096) : State :=
  onTurn s c (isAdmin 0x05) fun x =>
    let e := x.entry
    let q := dwBits e.dw10 15 0
    let n := dwBits e.dw10 31 16
    let v := dwBits e.dw11 31 16
    if q = 0 ∨ maxQueues < q ∨ (cqBy s q).isSome then finish s c 1 1 0
    else if n = 0 ∨ 4095 < n then finish s c 1 2 0
    else if e.dw11.toNat % 2 = 0 then invalidField s c
    else if 64 < v then finish s c 1 8 0
    else succeed { s with host.cqs := s.host.cqs ++ [(q, ⟨n + 1, 0, 0, v, e.dw11.toNat / 2 % 2 = 1, []⟩)] } c 0

/-- CREATE_IO_SQ. -/
def createIoSq (s : State) (c : Fin 4096) : State :=
  onTurn s c (isAdmin 0x01) fun x =>
    let e := x.entry
    let q := dwBits e.dw10 15 0
    let n := dwBits e.dw10 31 16
    let cq := dwBits e.dw11 31 16
    if cq = 0 ∨ (cqBy s cq).isNone then finish s c 1 0 0
    else if q = 0 ∨ maxQueues < q ∨ (sqBy s q).isSome then finish s c 1 1 0
    else if n = 0 ∨ 4095 < n then finish s c 1 2 0
    else if e.dw11.toNat % 2 = 0 then invalidField s c
    else succeed { s with host.sqs := s.host.sqs ++ [(q, ⟨n + 1, 0, 0, cq, dwBits e.dw11 2 1, none, []⟩)] } c 0

/-- DELETE_IO_SQ: the queue is closed to arbitration; `cids` are the identifiers that its unfetched entries carry. -/
def deleteIoSq (s : State) (c : Fin 4096) (cids : List (BitVec 16)) : State :=
  onTurn s c (isAdmin 0x00) fun x =>
    let q := dwBits x.entry.dw10 15 0
    match (if q = 0 then none else sqBy s q) with
    | none => finish s c 1 1 0
    | some y =>
      if y.deleting.isSome then finish s c 1 1 0
      else
        let n := (y.tail + y.size - y.head) % y.size
        onCtx (onSubq s q fun y => { y with deleting := some c.val, head := y.tail, aborts := cids.take n }) c
          fun z => { z with phase := .outstanding }

/-- DELETE_IO_CQ. -/
def deleteIoCq (s : State) (c : Fin 4096) : State :=
  onTurn s c (isAdmin 0x04) fun x =>
    let q := dwBits x.entry.dw10 15 0
    if q = 0 ∨ (cqBy s q).isNone then finish s c 1 1 0
    else if s.host.sqs.any (fun y => y.2.cq = q) then finish s c 1 0x0C 0
    else succeed { s with host.cqs := s.host.cqs.filter fun y => y.1 ≠ q } c 0

/-! ## Plain admin commands (R359 to R362) -/

/-- n bytes from a base, some of them fixed. -/
def overlay (n : Nat) (base : Nat → Byte) (fixed : List (Nat × List Byte)) : List Byte :=
  fixed.foldl (fun l f => l.take f.1 ++ f.2 ++ l.drop (f.1 + f.2.length)) ((List.range n).map base)

/-- Log page 01h: 64 entries of 64 bytes. -/
def errorPage (s : State) : List Byte :=
  let es := s.host.errs.map fun e => overlay 64 (Config.logByte 1)
    [(0, leBytes 8 e.count ++ leBytes 2 e.sq ++ leBytes 2 e.cid.toNat ++ leBytes 2 ((e.sc + 256 * e.sct) * 2))]
  padTo 4096 es.flatten

/-- SSTAT of page 81h. -/
def sanitizePage (s : State) : List Byte :=
  let r := s.mop.rec_
  let prog := if sanitizing s then r.ringsDone * 65536 / max 1 r.ringsTotal else 65535
  overlay 512 (Config.logByte 0x81) [(0, leBytes 2 prog ++ leBytes 2 s.host.sanitizeStatus)]

/-- Page 05h: each supported opcode has CSUPP set. -/
def effectsPage (s : State) : List Byte :=
  let word := fun (sup : List Nat) (o i : Nat) =>
    if i ∈ sup then leBytes 4 (1 + (Config.logByte 5 (o + i)).toNat / 2 * 2) else zeroBytes 4
  let io := 0 :: objOps ++ if s.zns.zones.isEmpty then [] else zoneOps
  (List.range 256).flatMap (word adminOps 0) ++ (List.range 256).flatMap (word io 256) ++ zeroBytes 2048

/-- A log page by its identifier. -/
def logPage (s : State) (lid : Nat) : Option (List Byte) :=
  match lid with
  | 0x01 => some (errorPage s)
  | 0x02 => some (overlay 512 (Config.logByte 2)
      [(112, leBytes 16 s.pwr.cycles), (128, leBytes 16 (s.hours / 16)), (176, leBytes 16 s.host.errCount)])
  | 0x03 => some (overlay 512 (Config.logByte 3)
      [(0, leBytes 1 (s.fw.active + 1 + 16 * (match s.fw.next with | some n => n + 1 | none => 0)))])
  | 0x05 => some (effectsPage s)
  | 0x81 => some (sanitizePage s)
  | 0xC0 => some (s.ash.health.flatMap Config.healthEntry)
  | _ => none

/-- GET_LOG_PAGE. During a sanitize only pages 01h, 02h and 81h are served (log entry 30). -/
def getLogPage (s : State) (c : Fin 4096) : State :=
  onTurn s c (isAdmin 0x02) fun x =>
    let lid := dwBits x.entry.dw10 7 0
    let off := x.entry.dw12.toNat + x.entry.dw13.toNat * 2 ^ 32
    let n := (dataLen true x.entry).getD 0
    match logPage s lid with
    | none => finish s c 1 9 0
    | some p =>
      if sanitizing s ∧ lid ∉ [0x01, 0x02, 0x81] then finish s c 0 0x1D 0
      else if p.length < off then invalidField s c
      else succeed s c 0 (padTo n (slice p off n))

/-- The capacity of the object namespace in LBAs of 4 KiB (R256, R357). -/
def nsCapacity (s : State) : Nat := 8 * (freeCapacity s - reservedSlots s)

/-- The data structure of a supported CNS value. -/
def identifyData (s : State) (cns nsid : Nat) : Option (List Byte) :=
  let zoned := nsid = 2 ∧ ¬ s.zns.zones.isEmpty
  let base := Config.identifyByte cns nsid
  match cns with
  | 0x00 =>
    if zoned then some (overlay 4096 base [(0, leBytes 8 (s.zns.zones.length * 1048576)), (25, [0]), (26, [0]), (128, [0, 0, 12, 0])])
    else if nsid = 1 then some (overlay 4096 base [(8, leBytes 8 (nsCapacity s)), (25, [0]), (26, [0]), (128, [0, 0, 12, 0])])
    else some (zeroBytes 4096)
  | 0x01 => some (overlay 4096 base
      [(4, s.sec.serial), (77, [7]), (80, leBytes 4 0x00020000), (88, leBytes 4 3000000), (92, leBytes 4 0x300), (96, leBytes 4 0),
       (256, leBytes 2 7), (258, [3, 3]), (260, [0x14]), (262, [63]), (263, [0]), (265, [0]), (270, leBytes 2 2), (318, [0]),
       (319, [1]), (328, leBytes 4 5), (520, leBytes 2 0), (522, leBytes 2 0), (524, [7]), (525, [0]), (531, [0]),
       (536, leBytes 4 1)])
  | 0x02 =>
    let ids := [1, 2].filter fun i => nsid < i ∧ (i = 1 ∨ ¬ s.zns.zones.isEmpty)
    some (padTo 4096 (ids.flatMap fun i => leBytes 4 i))
  | 0x03 => some (overlay 4096 base [(0, [4, 1, 0, 0, if zoned then 2 else 0])])
  | 0x05 =>
    if zoned then some (overlay 4096 base [(4, leBytes 4 15), (8, leBytes 4 15), (2816, leBytes 8 1048576 ++ [0])])
    else some (overlay 4096 base [])
  | 0x06 => some (overlay 4096 base [(0, [0])])
  | 0x1C => some (padTo 4096 (leBytes 8 (if s.zns.zones.isEmpty then 1 else 5)))
  | _ => none

/-- IDENTIFY. -/
def identify (s : State) (c : Fin 4096) : State :=
  onTurn s c (isAdmin 0x06) fun x =>
    match identifyData s (dwBits x.entry.dw10 7 0) x.entry.nsid.toNat with
    | some d => succeed s c 0 d
    | none => invalidField s c

/-- ABORT: never aborts. -/
def abortCmd (s : State) (c : Fin 4096) : State := onTurn s c (isAdmin 0x08) fun _ => succeed s c 1

/-- Features of Table 12.5. -/
def features : List Nat := [0x01, 0x02, 0x04, 0x06, 0x07, 0x08, 0x09, 0x0B, 0x19]

/-- SET_FEATURES: Volatile Write Cache is refused; there is one power state; 64 queues of each kind. -/
def setFeatures (s : State) (c : Fin 4096) : State :=
  onTurn s c (isAdmin 0x09) fun x =>
    let f := dwBits x.entry.dw10 7 0
    let v := x.entry.dw11.toNat
    if f ∉ features ∨ f = 0x06 ∨ (f = 0x02 ∧ v % 32 ≠ 0) ∨ (f = 0x09 ∧ 64 < v % 65536) then invalidField s c
    else if f = 0x07 then succeed s c 0x003F003F
    else succeed { s with host.feats := assocSet s.host.feats (if f = 9 then 9 + 256 * (v % 65536) else f) v } c 0

/-- GET_FEATURES. -/
def getFeatures (s : State) (c : Fin 4096) : State :=
  onTurn s c (isAdmin 0x0A) fun x =>
    let f := dwBits x.entry.dw10 7 0
    let v := x.entry.dw11.toNat % 65536
    if f ∉ features then invalidField s c
    else if f = 0x07 then succeed s c 0x003F003F
    else if f = 0x09 then succeed s c (lookupD s.host.feats (9 + 256 * v) v)
    else succeed s c (lookupD s.host.feats f 0)

/-- ASYNCHRONOUS_EVENT_REQUEST: outstanding until an event is posted; a fifth is refused. -/
def asyncEventRequest (s : State) (c : Fin 4096) : State :=
  onTurn s c (isAdmin 0x0C) fun _ =>
    let n := (s.host.ctxs.filter fun y => isAdmin 0x0C y.2 ∧ y.2.phase = .outstanding).length
    if 4 ≤ n then finish s c 1 5 0 else onCtx s c fun y => { y with phase := .outstanding }

end Sys2Proof.Machine
end

