-- ==== Sys2Proof/Machine/Objects.lean ====
section
/-! DEFINITION. The object commands (chapter 13): sessions, commits, reads, listings, copies, deletion, retention, Sync,
Flush and receipts. -/
namespace Sys2Proof.Machine
open Sys2Proof

/-! ## Keys and versions (R375, R376) -/

/-- The object of a key. -/
def objBy (s : State) (key : List Byte) : Option Obj := s.obj.objs.find? fun o => o.key = key
/-- An object changed. -/
def onObj (s : State) (key : List Byte) (f : Obj → Obj) : State :=
  { s with obj.objs := s.obj.objs.map fun o => if o.key = key then f o else o }
/-- A version by number. -/
def verBy (o : Obj) (no : Nat) : Option Version := o.versions.find? fun v => v.no = no
/-- A version of an object changed. -/
def onVersion (s : State) (key : List Byte) (no : Nat) (f : Version → Version) : State :=
  onObj s key fun o => { o with versions := o.versions.map fun v => if v.no = no then f v else v }
/-- The latest version: the highest-numbered live one. -/
def latest (o : Obj) : Option Version := (o.versions.filter fun v => v.state = .live).getLast?

/-- Keys in byte order, a prefix first (R375). -/
def keyLt : List Byte → List Byte → Bool
  | [], [] => false
  | [], _ :: _ => true
  | _ :: _, [] => false
  | a :: as, b :: bs => if a = b then keyLt as bs else decide (a.toNat < b.toNat)

/-- A key and version resolved: the status that refuses it, or the object and version. `live`: a deleted version is
refused. -/
def resolve (s : State) (key : List Byte) (no : Nat) (live : Bool) : Except Nat (Obj × Version) :=
  match objBy s key with
  | none => .error 0x80
  | some o =>
    if o.versions.isEmpty then .error 0x80
    else match (if no = 0 then latest o else verBy o no) with
      | none => .error 0x81
      | some v => if live ∧ v.state = .deleted then .error 0x81 else .ok (o, v)

/-- A key's next version number, with an OBJECT_ID at its first use (R375): the identity and the number. -/
def assignVersion (s : State) (key : List Byte) : State × Nat × Nat :=
  match objBy s key with
  | some o => (onObj s key fun o => { o with assigned := o.assigned + 1 }, o.id, o.assigned + 1)
  | none =>
    let id := s.obj.nextId
    ({ s with
        obj.objs := s.obj.objs ++ [⟨key, id, 1, []⟩], obj.nextId := id + 1 }, id, 1)

/-- A version entered in its object, in order of numbers. -/
def addVersion (s : State) (key : List Byte) (v : Version) : State :=
  onObj s key fun o => { o with versions := o.versions.filter (·.no < v.no) ++ v :: o.versions.filter (v.no < ·.no) }

/-! ## Locked ranges (R471) -/

/-- A range is read-locked, write-locked: by its locks, in DIAGNOSTIC, or with its key slot empty. -/
def readLocked (s : State) (r : Nat) : Bool :=
  let x := s.sec.ranges.getD r default
  decide (r ≠ 0) && (x.slot.isNone || (x.readLockEnabled && x.readLocked) || decide (s.sec.lc = .diagnostic))
def writeLocked (s : State) (r : Nat) : Bool :=
  let x := s.sec.ranges.getD r default
  decide (r ≠ 0) && (x.slot.isNone || (x.writeLockEnabled && x.writeLocked) || decide (s.sec.lc = .diagnostic))

/-- A range that a version may name: 0, or one with a key and RangeLength 0 (R386, R470). -/
def rangeUsable (s : State) (r : Nat) : Bool :=
  decide (r = 0) || ((s.sec.ranges.getD r default).wrappedKey.isSome && decide ((s.sec.ranges.getD r default).length = 0))

/-- 86h Access Denied. -/
def denied (s : State) (c : Nat) : State := finish s c 2 0x86 0

/-! ## Put sessions (R386 to R395) -/

/-- A free session slot: any of the free ones (free value). -/
def freeSlot (s : State) : Option Nat :=
  let fr := (List.range 256).filter fun n => ((s.obj.slots[n]?).bind (·.sess)).isNone
  fr[Config.slotPick s.freeCtr % fr.length]?

/-- A slot taken by a session for a new version. -/
def openSession (s : State) (n : Nat) (key : List Byte) (lrange : Nat) (hold : Bool) (retain : Nat) (copying : Bool) :
    State × Nat :=
  let (s, id, no) := assignVersion s key
  let x : Session :=
    { key := key, objectId := id, version := no, lrange := lrange, hold := hold, retain := retain, broken := false,
      damaged := false, accepted := 0, acked := 0, absorbed := [], leaves := [], copying := copying }
  (onSlot { s with freeCtr := s.freeCtr + 1 } n fun sl => { sl with sess := some x }, no)

/-- PUT_OPEN. -/
def putOpen (s : State) (c : Fin 4096) : State :=
  onTurn s c (isObj 0x80) fun x =>
    let e := x.entry
    let lr := dwBits e.dw11 6 0
    if ¬ rangeUsable s lr then invalidField s c
    else if writeLocked s lr then denied s c
    else match freeSlot s with
      | none => refuse7 s c 0x84 0
      | some n =>
        let gen := ((s.obj.slots[n]?).map (·.gen)).getD 0
        let (s, _) := openSession s n e.key lr (e.flags % 2 = 1) e.argA false
        succeed s c (n + 256 * gen)

/-- Slots that accepted Put Data will open and have not yet opened. -/
def heldSlots (s : State) : Nat :=
  (s.obj.slots.map fun sl => match sl.sess with
    | some x => (x.accepted + 32767) / 32768 - x.leaves.length
    | none => 0).foldl (· + ·) 0

/-- An earlier Put Data of the session is still held. -/
def heldBefore (s : State) (handle n : Nat) : Bool :=
  s.host.ctxs.any fun y => isObj 0x81 y.2 && decide (y.2.phase = .held ∧ y.2.entry.handle = handle ∧ y.2.accept < n)

/-- The bytes of a Put Data enter the staging and the digest: it is complete (R389). -/
def putStage (s : State) (c : Nat) (x : Ctx) (n : Nat) (y : Session) (data : List Byte) : State :=
  let len := x.entry.dw11.toNat
  let old := y.absorbed.length
  let plain := y.absorbed ++ padTo len (data.take len)
  let f : StageFor := ⟨y.objectId, y.version, y.key, x.accept + 1, fun _ => y.lrange⟩
  let (s, refs) := stageLeaves f plain ((plain.length + 32767) / 32768 - old / 32768) (old / 32768) (s, y.leaves)
  let placed := refs.any fun r => (stagedBy s r.uid).any fun l => l.place.isNone ∧ l.validLen = 32768
  let s := onSession s n fun y => { y with absorbed := plain, leaves := refs }
  let s := formFull s refs
  let s := match (s.obj.slots[n]?).bind (·.sess) with
    | some z => if placed then sessionRecord s z (x.accept + 1) else s
    | none => s
  succeed s c 0

/-- A Put Data that has been accepted is staged when its turn and the dirty limit allow, or held; a host-memory error
breaks its session (R392). -/
def putGo (s : State) (c : Nat) (x : Ctx) (n : Nat) (y : Session) (data : List Byte) : State :=
  if c ∈ s.host.dataErr then dataError (onSession s n fun y => { y with broken := true }) c
  else if heldBefore s x.entry.handle x.accept then holdWrite s c
  else stageOr s (putStage s c x n y data) c

/-- PUT_DATA: checked and taken into the accepted length when it is accepted; its bytes `data` are staged at once, or when
the command comes again for a held write. -/
def putData (s : State) (c : Fin 4096) (data : List Byte) : State :=
  match ctxBy s c with
  | none => s
  | some x =>
    let e := x.entry
    let len := e.dw11.toNat
    if ¬ isObj 0x81 x then s
    else if x.phase = .held then
      match sessionAt s e.handle with
      | none => refuse7 s c 0x83 0
      | some (n, y) => if y.broken then refuse7 s c (if y.damaged then 0x8C else 0x8A) (if y.damaged then y.version else 0)
          else putGo s c x n y data
    else if ¬ turn s x then s
    else match sessionAt s e.handle with
      | none => refuse7 s c 0x83 0
      | some (n, y) =>
        if y.damaged then refuse7 s c 0x8C y.version
        else if y.broken then refuse7 s c 0x8A 0
        else if writeLocked s y.lrange then denied s c
        else if e.argA ≠ y.accepted then refuse7 s c 0x85 (y.accepted % 2 ^ 32)
        else if 2 ^ 44 < y.accepted + len then refuse7 s c 0x86 0
        else if freeCapacity s < reservedSlots s + heldSlots s + ((y.accepted + len + 32767) / 32768 - (y.accepted + 32767) / 32768) then
          refuse7 s c 0x87 0
        else putGo (onSession s n fun y => { y with accepted := y.accepted + len }) c x n y data

/-- The version of a session becomes live, whole, with its record (R393): its leaves are formed, the record enters the index
log, the slot is free. -/
def commitVersion (s : State) (n : Nat) (y : Session) (digest : List Byte) (accept : Nat) : State :=
  let s := y.leaves.foldl (fun s r => formLeaf s r.uid) s
  let refs := refsNow s y.leaves
  let (w, s) := nextWseq s
  let v : Version :=
    { no := y.version, state := .live, lrange := y.lrange, hold := y.hold, retain := y.retain, hours := s.hours,
      length := y.accepted, digest := digest, extents := refExtents s refs, wseq := w, damaged := false, pinned := false }
  let s := idxWrite (addVersion s y.key v) y.key accept (versionRecords y.key y.objectId v w)
  onSlot s n fun sl => { gen := (sl.gen + 1) % 256, sess := none }

/-- PUT_COMMIT: `expected` is the digest at DPTR. It waits for the transfers of its session. -/
def putCommit (s : State) (c : Fin 4096) (expected : List Byte) : State :=
  onTurn s c (isObj 0x85) fun x =>
    let e := x.entry
    match sessionAt s e.handle with
    | none => refuse7 s c 0x83 0
    | some (n, y) =>
      if y.damaged then refuse7 s c 0x8C y.version
      else if y.broken then refuse7 s c 0x8A 0
      else if writeLocked s y.lrange then denied s c
      else if e.argA ≠ y.accepted then refuse7 s c 0x89 (y.accepted % 2 ^ 32)
      else if y.absorbed.length ≠ y.accepted then s
      else
        let d := shake256 y.absorbed 64
        if e.flags % 2 = 1 ∧ expected ≠ d then refuse7 s c 0x88 0
        else withRoom s fun s => succeed (commitVersion s n y d (x.accept + 1)) c y.version

/-- PUT_ABORT: it waits for the transfers of its session. -/
def putAbort (s : State) (c : Fin 4096) : State :=
  onTurn s c (isObj 0x88) fun x =>
    match sessionAt s x.entry.handle with
    | none => refuse7 s c 0x83 0
    | some (n, y) => if heldBefore s x.entry.handle x.accept ∧ ¬ y.broken then s else succeed (endSession s n) c 0

/-! ## Reading (R400 to R404) -/

/-- The parts of a version's bytes from `a` on, n of them, by leaf. -/
def versionParts (s : State) (v : Version) (a n : Nat) : List ReadPart :=
  if n = 0 then []
  else
    let ps := versionPlaces s v
    (List.range' (a / 32768) ((a + n + 32767) / 32768 - a / 32768)).map fun i =>
      let lo := max a (32768 * i)
      let hi := min (a + n) (32768 * (i + 1))
      ⟨ps[i]?, lo - 32768 * i, hi - lo, []⟩

/-- The plaintext of a part, given its leaf. -/
def partBytes (s : State) (p : ReadPart) (lf : Option Leaf) : Option (List Byte) :=
  match p.place, lf with
  | none, _ => some p.bytes
  | some _, some l => (leafPlain s l.coded).map fun b => slice b p.start p.len
  | some _, none => none

/-- Leaves answered to the parts that need them. -/
def partsWith (ps : List ReadPart) (got : List (Option Leaf)) : List (ReadPart × Option Leaf) :=
  (ps.foldl (fun (acc : List (ReadPart × Option Leaf) × List (Option Leaf)) p =>
    match p.place with
    | none => (acc.1 ++ [(p, none)], acc.2)
    | some _ => (acc.1 ++ [(p, acc.2.headD none)], acc.2.tail)) ([], got)).1

/-- The index of the first part whose leaf is missing. -/
def firstMissing (ps : List (ReadPart × Option Leaf)) : Option Nat := ps.findIdx? fun p => p.1.place.isSome && p.2.isNone

/-- The bytes of all parts; none when some range has no key. -/
def allBytes (s : State) (ps : List (ReadPart × Option Leaf)) : Option (List Byte) :=
  ps.foldl (fun a p => match a, partBytes s p.1 p.2 with
    | some x, some y => some (x ++ y)
    | _, _ => none) (some [])

/-- Leaves rebuilt from their stripes whatever the stored pieces say (R403). Leaves in the staging are taken from it. -/
def fetchRebuilt (s : State) (id : ReqId) (purpose : ReadPurpose) (want : List (Nat × Nat)) : State × Option (List (Option Leaf)) :=
  match reqBy s id with
  | some r =>
    if reqSettled r then ({ s with reqs := s.reqs.filter fun x => x.id ≠ id }, some (r.leaves.map (·.data))) else (s, none)
  | none =>
    let leaves := want.zipIdx.filterMap fun (p, i) => (groupById s (stripeGroup p.1)).map fun g =>
      let held := (stagedAt s p.1 p.2).map fun l => bareLeaf p.1 p.2 (stagedCoded l)
      { pieceLeaf s g (stripeSlot p.1) i p.2 with data := held, phase := if held.isSome then LeafPhase.ready else .waiting }
    if leaves.length < want.length then (s, some (want.map fun _ => none))
    else
      let s := releaseLeaves { s with reqs := s.reqs ++ [⟨id, purpose, 0, leaves, 0, false⟩] }
      ((leaves.filter fun l => l.phase = .waiting).foldl (fun s l => startRebuild s id l.idx) s, none)

/-- A rebuilt leaf replaces what the read cache holds for it. -/
def cacheRepair (s : State) (p : Nat × Nat) (lf : Leaf) : State :=
  let s := { s with drm.l2 := s.drm.l2.filter fun e => ¬ (e.1 = p.1 ∧ e.2.1 = p.2) }
  match findLine s p.1 p.2 with
  | some l => if l.valid = 0xFF then onLine s l.set l.way fun l => { l with leaf := some lf } else s
  | none => cacheFill (cacheAlloc s p.1 p.2) p.1 p.2 lf

/-- A version by object identity and number. -/
def versionById (s : State) (oid no : Nat) : Option Version := (s.obj.objs.find? fun o => o.id = oid).bind fun o => verBy o no

/-- The stream of a Get. -/
def streamBy (s : State) (id : Nat) : Option Stream := s.obj.streams.find? fun t => t.id = id

/-- The bytes of a stream in offset order, when they run without a gap to `upto`. -/
def streamBytes (t : Stream) (upto : Nat) : Option (List Byte) :=
  let b := (sortBy (fun a b => a.1 ≤ b.1) t.got).flatMap (·.2)
  if b.length = upto then some b else none

/-- A Get whose bytes are at hand ends: after the digest check where it covers its version (R401, R402). -/
def getEnd (s : State) (c : Nat) (x : Ctx) (v : Version) (oid : Nat) (bytes : List Byte) : State :=
  let off := x.entry.argA
  let s := match x.stream with
    | some id => { s with obj.streams := s.obj.streams.map fun t => if t.id = id then
        { t with got := (off, bytes) :: t.got.filter fun g => g.1 ≠ off } else t }
    | none => s
  let whole : Option (Option (List Byte)) :=
    if x.ends then some (((x.stream.bind (streamBy s)).bind fun t => streamBytes t v.length))
    else if off = 0 ∧ bytes.length = v.length then some (some bytes) else none
  match whole with
  | none => succeed s c v.no bytes
  | some none => s
  | some (some all) =>
    let s := { s with obj.streams := s.obj.streams.filter fun t => ¬ (x.ends ∧ some t.id = x.stream) }
    if shake256 all 64 = v.digest then succeed s c v.no bytes
    else
      let s := onCtx s c fun y => { y with recheck := true }
      (fetchRebuilt (onCtx s c fun y => { y with phase := .reading oid v.no }) c .host (versionPlaces s v)).1

/-- A Get reads on: its leaves, then, after a failed digest check, its version rebuilt from the stripes (R403). -/
def getGo (s : State) (c : Nat) (x : Ctx) (oid no : Nat) : State :=
  match versionById s oid no with
  | none => refuse7 s c 0x81 0
  | some v =>
    if x.recheck then
      match fetchRebuilt s c .host (versionPlaces s v) with
      | (s, none) => s
      | (s, some got) =>
        let ps := partsWith (versionParts s v 0 v.length) got
        match firstMissing ps, allBytes s ps with
        | none, some b =>
          if shake256 b 64 = v.digest then
            refuse7 (((versionPlaces s v).zip got).foldl (fun s p => match p.2 with
              | some lf => cacheRepair s p.1 lf
              | none => s) s) c 0x92 v.no
          else refuse7 s c 0x88 0
        | _, _ => refuse7 s c 0x88 0
    else
      match fetchLeaves s c .host 0 false (x.parts.filterMap (·.place)) with
      | (s, none) => s
      | (s, some got) =>
        let ps := partsWith x.parts got
        match firstMissing ps with
        | some i => refuse7 s c 0x8B i
        | none => match allBytes s ps with
          | some b => getEnd s c x v oid b
          | none => denied s c

/-- The stream rules of R402 for a Get that names a version: the status that refuses it, or the streams after it with the
stream it belongs to and whether it ends that stream. -/
def streamStep (s : State) (x : Ctx) (key : List Byte) (v : Version) : Except (Nat × Nat) (List Stream × Option Nat × Bool) :=
  let e := x.entry
  let len := e.dw14.toNat
  if e.flags % 2 = 0 then .ok (s.obj.streams, none, false)
  else if e.argA = 0 then
    let rest := s.obj.streams.filter fun t => t.ended ∨ t.tag ≠ e.handle
    let opened := rest.filter fun t => ¬ t.ended
    let drop := if 256 ≤ opened.length then (argMin (·.lastAccept) opened).map (·.id) else none
    let ends := len = v.length
    .ok ((rest.filter fun t => some t.id ≠ drop) ++ [⟨e.handle, key, v.no, len, x.accept, x.accept, ends, []⟩], some x.accept, ends)
  else match s.obj.streams.find? fun t => ¬ t.ended ∧ t.tag = e.handle with
    | none => .error (0x8F, 0)
    | some t =>
      if t.key ≠ key ∨ t.version ≠ v.no ∨ t.pos ≠ e.argA then .error (0x85, t.pos % 2 ^ 32)
      else
        let ends := t.pos + len = v.length
        .ok (s.obj.streams.map fun u => if u.id = t.id then { u with pos := t.pos + len, lastAccept := x.accept, ended := ends } else u,
          some t.id, ends)

/-- The version that a Get names: 0 in a stream that is under way stands for the stream's own. -/
def getVersion (s : State) (x : Ctx) : Nat :=
  let e := x.entry
  if e.dw11 = 0 ∧ e.flags % 2 = 1 ∧ e.argA ≠ 0 then
    match s.obj.streams.find? fun t => ¬ t.ended ∧ t.tag = e.handle ∧ t.key = e.key with
    | some t => t.version
    | none => 0
  else e.dw11.toNat

/-- GET: it takes its effect at its turn, reads what it needs, and ends when the command comes again with its leaves
at hand. -/
def get (s : State) (c : Fin 4096) : State :=
  match ctxBy s c with
  | none => s
  | some x =>
    if ¬ isObj 0x82 x then s
    else match x.phase with
      | .reading oid no => getGo s c x oid no
      | _ => onTurn s c (isObj 0x82) fun x =>
        let e := x.entry
        match resolve s e.key (getVersion s x) true with
        | .error st => refuse7 s c st 0
        | .ok (o, v) =>
          if v.damaged then refuse7 s c 0x8C v.no
          else if readLocked s v.lrange then denied s c
          else if v.length < e.argA + e.dw14.toNat then refuse7 s c 0x8D v.no
          else match streamStep s x e.key v with
            | .error (st, d) => refuse7 s c st d
            | .ok (streams, id, ends) =>
              let parts := versionParts s v e.argA e.dw14.toNat
              let x' : Ctx := { x with
                phase := .reading o.id v.no, parts := parts, stream := id, ends := ends, lines := parts.filterMap (·.place) }
              let s := onCtx { s with obj.streams := streams } c fun _ => x'
              getGo (pinLines s true x'.lines) c x' o.id v.no

/-! ## Stat and List (R405, R406) -/

/-- The code of a version's state. -/
def verCode (v : Version) : Nat := match v.state with | .live => 1 | .deleted => 2

/-- The Stat record of Table 13.4. -/
def statRecord (o : Obj) (v : Version) (clock : Nat) : List Byte :=
  leBytes 8 o.id ++ leBytes 4 v.no ++ leBytes 4 (match latest o with | some l => l.no | none => 0) ++ leBytes 4 o.assigned ++
    leBytes 1 (verCode v) ++ leBytes 1 (bit v.hold + 2 * bit v.damaged) ++ leBytes 1 v.lrange ++ leBytes 1 o.key.length ++
    leBytes 8 v.length ++ leBytes 8 v.retain ++ leBytes 8 clock ++ zeroBytes 16 ++ padTo 64 v.digest ++ padTo 256 o.key

/-- STAT. -/
def stat (s : State) (c : Fin 4096) : State :=
  onTurn s c (isObj 0x86) fun x =>
    let e := x.entry
    if ptrLen e < 384 then refuse7 s c 0x8E 384
    else match resolve s e.key e.dw11.toNat false with
      | .error st => refuse7 s c st 0
      | .ok (o, v) => succeed s c v.no (statRecord o v x.clock)

/-- A List entry (Table 13.5). -/
def listEntry (id no state flags keylen lrange length retain handle : Nat) (key : List Byte) : List Byte :=
  leBytes 8 id ++ leBytes 4 no ++ leBytes 1 state ++ leBytes 1 flags ++ leBytes 1 keylen ++ leBytes 1 lrange ++ leBytes 8 length ++
    leBytes 8 retain ++ leBytes 2 handle ++ zeroBytes 6 ++ padTo ((keylen + 7) / 8 * 8) key

/-- The entries of a mode with their keys and versions, in key and version order. -/
def listAll (s : State) (mode : Nat) : List (List Byte × Nat × List Byte) :=
  let ver := fun (o : Obj) (v : Version) => (o.key, v.no, listEntry o.id v.no (verCode v) (bit v.hold + 2 * bit v.damaged) o.key.length
    v.lrange v.length v.retain 0 o.key)
  let es : List (List Byte × Nat × List Byte) :=
    match mode with
    | 0 => s.obj.objs.flatMap fun o => (latest o).toList.map (ver o)
    | 1 => s.obj.objs.flatMap fun o => o.versions.map (ver o)
    | _ => s.obj.slots.zipIdx.flatMap fun (sl, n) => match sl.sess with
      | some y => if y.copying then [] else
        [(y.key, y.version, listEntry y.objectId y.version (if y.broken then 4 else 3) (bit y.hold + 2 * bit y.damaged) y.key.length
          y.lrange y.acked y.retain (n + 256 * sl.gen) y.key)]
      | none => []
  sortBy (fun a b => keyLt a.1 b.1 || (a.1 == b.1 && decide (a.2.1 ≤ b.2.1))) es

/-- As many entries as fit whole in a buffer. -/
def listFit : Nat → List (List Byte) → List (List Byte)
  | _, [] => []
  | room, e :: es => if e.length ≤ room then e :: listFit (room - e.length) es else []

/-- LIST. -/
def list (s : State) (c : Fin 4096) : State :=
  onTurn s c (isObj 0x8A) fun x =>
    let e := x.entry
    if ptrLen e < 16 then refuse7 s c 0x8E 16
    else
      let la := e.blkNat 0 1
      let lb := e.blkNat 1 1
      let ka := slice e.block 16 la
      let kb := slice e.block 272 lb
      let after := fun (k : List Byte) (no : Nat) => decide (lb = 0) || keyLt kb k || (kb == k && decide (e.dw11.toNat < no))
      let all := (listAll s (e.flags % 4)).filter fun p => p.1.take la == ka && decide (la ≤ p.1.length) && after p.1 p.2.1
      let out := listFit (min 524288 (ptrLen e) - 16) (all.map (·.2.2))
      succeed s c out.length
        (leBytes 4 out.length ++ leBytes 1 (bit (decide (out.length < all.length))) ++ zeroBytes 11 ++ out.flatten)

/-! ## Copy (R407 to R409) -/

/-- n zero bytes as a part. -/
def zeroPart (n : Nat) : List ReadPart := if n = 0 then [] else [⟨none, 0, n, zeroBytes n⟩]

/-- Bytes a to b of a base version, zeros beyond its end or where there is none. -/
def baseParts (s : State) (base : Option Version) (a b : Nat) : List ReadPart :=
  match base with
  | some v =>
    let m := max a (min b v.length)
    versionParts s v a (m - a) ++ zeroPart (b - m)
  | none => zeroPart (b - a)

/-- What a Copy names: the status that refuses it, or its source, base and the composition and length of the result. -/
def copyPlan (s : State) (e : SqEntry) : Except (Nat × Nat) (Version × Option Version × List ReadPart × Nat) :=
  let ka := slice e.block 16 (e.blkNat 0 1)
  let kb := slice e.block 272 (e.blkNat 1 1)
  match resolve s ka (e.blkNat 528 4) true with
  | .error st => .error (st, 0)
  | .ok (_, v) =>
    if v.damaged then .error (0x8C, v.no)
    else if e.flags % 2 = 0 then .ok (v, none, versionParts s v 0 v.length, v.length)
    else
      let soff := e.blkNat 536 8
      let doff := e.blkNat 544 8
      let len := e.blkNat 552 8
      let base : Except (Nat × Nat) (Option Version) :=
        if e.blkNat 532 4 = 0 then .ok none
        else match (objBy s kb).bind fun o => verBy o (e.blkNat 532 4) with
          | some b => if b.state = .deleted then .error (0x81, 0) else if b.damaged then .error (0x8C, b.no) else .ok (some b)
          | none => .error (0x81, 0)
      match base with
      | .error st => .error st
      | .ok base =>
        let bl := match base with | some b => b.length | none => 0
        if len = 0 ∨ v.length < soff + len then .error (0x8D, v.no)
        else if 2 ^ 44 < max bl (doff + len) then .error (0x86, 0)
        else .ok (v, base,
          baseParts s base 0 doff ++ versionParts s v soff len ++ (if doff + len < bl then baseParts s base (doff + len) bl else []),
          max bl (doff + len))

/-- Leaves of a Copy that are not yet home: they count as dirty data from its commit. -/
def copyOwed (s : State) (y : Session) : List Nat :=
  (y.leaves.filter fun r => (stagedBy s r.uid).any fun l => match l.place with
    | some p => stripePending s p.1 || (groupById s (stripeGroup p.1)).any fun g => g.state = .opened ∧ g.next / g.k = stripeSlot p.1
    | none => true).map (·.uid)

/-- The next leaves of a Copy are staged, as many as there are slots for, and formed; with no slot free those it has staged are
made to be written. They are clean until its commit: their bytes lie on the media. -/
def copyStage (s : State) (x : Ctx) (n : Nat) (y : Session) : State :=
  let m := min (stagingRoom s) ((y.accepted + 32767) / 32768 - y.leaves.length)
  if m = 0 then forceLeaves (onSession s n fun _ => y) (y.leaves.map (·.uid))
  else
    let f : StageFor := ⟨y.objectId, y.version, y.key, x.accept + 1, fun _ => y.lrange⟩
    let (s, refs) := stageLeaves f y.absorbed m y.leaves.length (s, y.leaves)
    let s := (refs.drop y.leaves.length).foldl (fun s r => formLeaf (leafDurable s r.uid) r.uid) s
    onSession s n fun _ => { y with leaves := refsNow s refs }

/-- A Copy goes on: its source leaves are fetched and checked, the new leaves staged and written, and the version
committed once the leaves not yet home fit the dirty limit. -/
def copyGoOn (s : State) (c : Nat) (x : Ctx) (n : Nat) : State :=
  match (s.obj.slots[n]?).bind (·.sess) with
  | none => s
  | some y =>
    if y.acked = 0 then
      match fetchLeaves s c .host 0 false (x.parts.filterMap (·.place)) with
      | (s, none) => s
      | (s, some got) =>
        let ps := partsWith x.parts got
        match firstMissing ps, allBytes s ps with
        | some i, _ => refuse7 (endSession s n) c 0x8B i
        | none, none => denied (endSession s n) c
        | none, some b =>
          -- one more than its length: the bytes are at hand
          copyStage s x n { y with accepted := b.length, acked := b.length + 1, absorbed := b }
    else if y.leaves.length < (y.accepted + 32767) / 32768 then copyStage s x n y
    else
      let owed := copyOwed s y
      let t := succeed (commitVersion (owed.foldl (fun s u => onStaged s u fun l => { l with dirty := true }) s) n y
        (shake256 y.absorbed 64) (x.accept + 1)) c y.version
      if admits s t then t
      else if s.pwr.wrHeld then s
      else forceLeaves (writeHome s) owed

/-- COPY. -/
def copy (s : State) (c : Fin 4096) : State :=
  match ctxBy s c with
  | none => s
  | some x =>
    if ¬ isObj 0x8C x then s
    else match x.phase with
      | .moving n => copyGoOn s c x n
      | _ => onTurn s c (isObj 0x8C) fun x =>
        let e := x.entry
        let kb := slice e.block 272 (e.blkNat 1 1)
        let lr := e.blkNat 2 1
        match copyPlan s e with
        | .error (st, d) => refuse7 s c st d
        | .ok (v, base, parts, len) =>
          if ¬ rangeUsable s lr then invalidField s c
          else if readLocked s v.lrange ∨ base.any (fun b => readLocked s b.lrange) ∨ writeLocked s lr then denied s c
          else if freeCapacity s < reservedSlots s + heldSlots s + (len + 32767) / 32768 then refuse7 s c 0x87 0
          else match freeSlot s with
            | none => refuse7 s c 0x84 0
            | some n =>
              let (s, _) := openSession s n kb lr (e.flags / 2 % 2 = 1) (e.blkNat 560 8) true
              let s := onSession s n fun y => { y with accepted := len }  -- its leaves are reserved (R388)
              let x' : Ctx := { x with phase := .moving n, parts := parts, lines := parts.filterMap (·.place) }
              copyGoOn (pinLines (onCtx s c fun _ => x') true x'.lines) c x' n

/-! ## Delete and Hold (R410, R411) -/

/-- A version is under legal hold, or under retention by a clock. -/
def retained (v : Version) (clock : Nat) : Bool := v.hold || decide (clock < v.retain)

/-- A state record for a version's present state. -/
def stateWrite (s : State) (o : Obj) (v : Version) (accept : Nat) : State :=
  let (w, s) := nextWseq s
  idxWrite s o.key accept [stateRecord w o.id v.no (verCode v) (bit v.hold) v.retain]

/-- A version deleted: its state record, its pin, its entry in the damage list (R399, R450). -/
def deleteVersion (s : State) (o : Obj) (v : Version) (accept : Nat) : State :=
  let s := if v.pinned then (versionPlaces s v).foldl (fun s p => cacheUnlock s p.1 p.2) s else s
  let v' := { v with state := VerState.deleted, pinned := false }
  let s := { s with obj.damage := s.obj.damage.filter fun d => d ≠ (o.key, v.no) }
  stateWrite (onVersion s o.key v.no fun _ => v') o v' accept

/-- The versions that a Delete or Hold names; `live`: a deleted one named is refused. -/
def namedVersions (s : State) (e : SqEntry) (all live : Bool) : Except Nat (Obj × List Version) :=
  if all then
    match objBy s e.key with
    | none => .error 0x80
    | some o => if o.versions.isEmpty then .error 0x80 else .ok (o, o.versions.filter fun v => v.state = .live)
  else match resolve s e.key e.dw11.toNat live with
    | .error st => .error st
    | .ok (o, v) => .ok (o, if v.state = .live then [v] else [])

/-- DELETE. -/
def delete (s : State) (c : Fin 4096) : State :=
  onTurn s c (isObj 0x90) fun x =>
    match namedVersions s x.entry (x.entry.flags % 2 = 1) false with
    | .error st => refuse7 s c st 0
    | .ok (o, vs) =>
      if vs.any fun v => writeLocked s v.lrange then denied s c
      else
        let holding := (vs.filter fun v => retained v x.clock).length
        if holding ≠ 0 then refuse7 s c 0xF0 holding
        else if vs.isEmpty then succeed s c 0
        else withRoom s fun s => succeed (vs.foldl (fun s v => deleteVersion s o v (x.accept + 1)) s) c vs.length

/-- A version after a Hold. -/
def heldVersion (v : Version) (op retain : Nat) : Version :=
  { v with hold := if op = 1 then true else if op = 2 then false else v.hold, retain := if retain = 0 then v.retain else retain }

/-- HOLD. -/
def hold (s : State) (c : Fin 4096) : State :=
  onTurn s c (isObj 0x94) fun x =>
    let e := x.entry
    let op := e.flags % 4
    match namedVersions s e (e.flags / 4 % 2 = 1) true with
    | .error st => refuse7 s c st 0
    | .ok (o, vs) =>
      if vs.any fun v => writeLocked s v.lrange then denied s c
      else if op = 2 ∧ ¬ s.prof.holdClearEn then refuse7 s c 0x90 0
      else if e.argA ≠ 0 ∧ vs.any (fun v => e.argA < v.retain) then refuse7 s c 0x91 0
      else
        let ch := vs.filter fun v => heldVersion v op e.argA ≠ v
        if ch.isEmpty then succeed s c 0
        else withRoom s fun s =>
          succeed (ch.foldl (fun s v =>
            stateWrite (onVersion s o.key v.no fun _ => heldVersion v op e.argA) o (heldVersion v op e.argA) (x.accept + 1)) s) c ch.length

/-! ## Sync and Flush (R363, R397, R398) -/

/-- A staged leaf that a Sync of a key, or with no key of all, or a Flush covers: it holds something of the key of a command
posted before the Sync was fetched. -/
def covers (x : Ctx) (key : List Byte) (l : StagedLeaf) : Bool :=
  l.dirty && l.accepts.any fun a => decide ((key = [] ∨ a.1 = key) ∧ 0 < a.2 ∧ a.2 ≤ x.accept ∧ (a.2 - 1) ∉ x.inflight)

/-- The covered leaves are made to be written, and the command waits for them. -/
def waitFor (s : State) (c : Nat) (uids : List Nat) : State :=
  let s := if s.pwr.banking then s else forceLeaves s uids
  onCtx s c fun y => { y with phase := .waitDurable uids }

/-- A damaged leaf that a Sync or Flush covers: the first one accepted after its finding completes with 8Ch (R399). A zone's
leaves are covered by a Flush alone. -/
def damagedCover (s : State) (x : Ctx) (zones : Bool) (key : List Byte) : Option (List Byte × Nat × Nat) :=
  s.obj.damagedLeaves.find? fun d => (if d.1 = [] then zones else decide (key = [] ∨ d.1 = key)) ∧ d.2.2 ≤ x.accept

/-- SYNC: of a key, or with KEYLEN 0 of every key. -/
def sync (s : State) (c : Fin 4096) : State :=
  onTurn s c (isObj 0x98) fun x =>
    let key := x.entry.key
    match damagedCover s x false key with
    | some d => refuse7 { s with obj.damagedLeaves := s.obj.damagedLeaves.erase d } c 0x8C d.2.1
    | none =>
      let ls := s.stg.leaves.filter fun l => covers x key l && (zoneOfId l.objectId).isNone
      waitFor s c (ls.map (·.uid))

/-- A Flush waits for the leaves it covers, and the zones whose written bytes they hold take a record (R417). -/
def flushRecords (s : State) (c : Nat) (x : Ctx) : State :=
  let ls := s.stg.leaves.filter (covers x [])
  let zs := (ls.filterMap fun l => if l.kind = .data then zoneOfId l.objectId else none).dedup
  zs.foldl (fun s z => zoneRecord s z (x.accept + 1)) (waitFor s c (ls.map (·.uid)))

/-- FLUSH: on either namespace. A zone whose written bytes it covers takes a zone record (R417), once the dirty limit admits it;
during a banking sequence, which writes no record, it takes none (log entry 125). -/
def flush (s : State) (c : Fin 4096) : State :=
  onTurn s c (fun x => isIo x && decide (x.entry.opc = 0)) fun x =>
    match damagedCover s x true [] with
    | some d => refuse7 { s with obj.damagedLeaves := s.obj.damagedLeaves.erase d } c 0x8C d.2.1
    | none =>
      if s.pwr.wrHeld then waitFor s c ((s.stg.leaves.filter (covers x [])).map (·.uid))
      else withRoom s fun s => flushRecords s c x

/-! ## Receipts (R412, R467) -/

/-- Receipt bytes 0 to 415. -/
def receiptBody (s : State) (kind : Nat) (key : List Byte) (oid : Nat) (v : Version) : List Byte :=
  [0x4A, 0x56, 0x58, 0x52, 0x43, 0x50, 0x54, 0x31] ++ leBytes 2 1 ++ leBytes 1 kind ++ leBytes 1 key.length ++ leBytes 4 v.no ++
    leBytes 8 oid ++ leBytes 8 v.length ++ padTo 64 v.digest ++ leBytes 4 s.hours ++ leBytes 4 s.pwr.cycles ++ s.sec.serial ++
    shake256 s.sec.identityPub 32 ++ padTo 256 key ++ leBytes 2 1 ++ leBytes 2 0x0500 ++ zeroBytes 4

/-- A signed receipt; each signature takes a fresh salt. -/
def receipt (s : State) (kind : Nat) (key : List Byte) (oid : Nat) (v : Version) : State × List Byte :=
  let b := receiptBody s kind key oid v
  ({ s with freeCtr := s.freeCtr + 1 }, b ++ falconSig s (shake256 b 64))

/-- Hearthstone can sign (R478, R480, R484). -/
def maySign (s : State) : Bool := !s.sec.refusing && !s.sec.identity.isEmpty && !s.sec.zeroized

/-- An operation of hearthstone: begun, then, when the command comes again, ended with `f`. A MARGIN_WARN discards its result,
which HEARTHSTONE_OP_RETRY brings back (R481, R583). -/
def hsStep (s : State) (o : HsOp) (f : State → State) : State :=
  match s.sec.op with
  | none => if s.pwr.banking then s else { s with sec.op := some o }
  | some op => if op = o ∧ ¬ s.sec.opRetry then f { s with sec.op := none } else s

/-- A signing. -/
def signStep (s : State) (ctx : Option Nat) (f : State → State) : State := hsStep s (.signing ctx) f

/-- The receipt of a version that needs no further check, or has passed it. -/
def receiptSign (s : State) (c kind : Nat) (o : Obj) (v : Version) : State :=
  if ¬ maySign s then finish s c 7 0x93 0
  else signStep s (some c) fun s =>
    let (s, r) := receipt s kind o.key o.id v
    succeed s c r.length r

/-- A Receipt with AUDIT = 1 reads its version from the media and checks it, rebuilding where the digest fails. -/
def receiptGo (s : State) (c : Nat) (x : Ctx) (oid no : Nat) : State :=
  match s.obj.objs.find? fun o => o.id = oid with
  | none => refuse7 s c 0x81 0
  | some o => match verBy o no with
    | none => refuse7 s c 0x81 0
    | some v =>
      if x.checked then receiptSign s c (1 + x.entry.flags % 2) o v
      else
        let ps := versionParts s v 0 v.length
        let r := if x.recheck then fetchRebuilt s c .audit (versionPlaces s v) else fetchLeaves s c .audit 0 true (versionPlaces s v)
        match r with
        | (s, none) => s
        | (s, some got) =>
          let w := partsWith ps got
          match firstMissing w, allBytes s w with
          | some i, _ => refuse7 s c 0x8B i
          | none, none => denied s c
          | none, some b =>
            if shake256 b 64 = v.digest then receiptSign (onCtx s c fun y => { y with checked := true }) c 2 o v
            else if x.recheck then refuse7 s c 0x88 0
            else (fetchRebuilt (onCtx s c fun y => { y with recheck := true }) c .audit (versionPlaces s v)).1

/-- RECEIPT. -/
def receiptCmd (s : State) (c : Fin 4096) : State :=
  match ctxBy s c with
  | none => s
  | some x =>
    if ¬ isObj 0x9E x then s
    else match x.phase with
      | .reading oid no => receiptGo s c x oid no
      | _ => onTurn s c (isObj 0x9E) fun x =>
        let e := x.entry
        let audit := e.flags % 2 = 1
        if ptrLen e < 4096 then refuse7 s c 0x8E 4096
        else match resolve s e.key e.dw11.toNat true with
          | .error st => refuse7 s c st 0
          | .ok (o, v) =>
            if v.damaged then refuse7 s c 0x8C v.no
            else if audit ∧ readLocked s v.lrange then denied s c
            else if ¬ maySign s then finish s c 7 0x93 0
            else if audit then
              let x' : Ctx := { x with phase := .reading o.id v.no, parts := versionParts s v 0 v.length }
              receiptGo (onCtx s c fun _ => x') c x' o.id v.no
            else
              let s := onCtx s c fun y => { y with phase := .reading o.id v.no, checked := true }
              receiptSign s c 1 o v

end Sys2Proof.Machine
end

