-- ==== Sys2Proof/Machine/Checks.lean ====
section
/-! DEFINITION. The consistency checks of the blocks (R538, R581): on a set of CK registers and a profile, so that
PROFILE_ACTIVATE can judge a staged one (R436). -/
namespace Sys2Proof.Machine
open Sys2Proof

/-- What a check judges: CK registers, profile, data rings of the drive, and which blocks are enabled. -/
structure CheckIn where
  ck : CkRegs
  prof : Prof
  rings : Nat
  en : List Bool

/-- A refusal: the offset of the register refused, FFCh when no register holds the value, and the reason code. -/
abbrev Refused := Nat × Nat

/-- HOLD_MIN of R513 in mJ, for P_HOLD in mW. -/
def holdMinOf (pHold eUnload : Nat) : Nat := (((pHold * 550 : Qty) / 1000 + 4 * eUnload) / (4 / 5)).ceil.toNat

/-- A block is enabled. -/
def CheckIn.on (c : CheckIn) (b : Nat) : Bool := c.en.getD b false

/-- The blocks that a block depends on (Table 19.7). -/
def depends (b : Nat) : List Nat :=
  match b with
  | 2 => [18] | 3 => [2] | 4 => [2] | 5 => [2] | 6 | 7 | 8 | 9 => [12, 5, 2] | 10 => [15] | 11 => [6] | 12 => [14, 15]
  | 13 => [12] | 14 => [18] | 15 => [14] | 17 => [16] | 19 => [2, 4]
  | _ => []

/-- A field outside its range: refused with 0Ah. -/
def outOf (off : Nat) (w : Word) (hi lo a b : Nat) : List Refused :=
  if a ≤ bitsOf w hi lo ∧ bitsOf w hi lo ≤ b then [] else [(off, 0xA)]

/-- A condition that refuses a register's value. -/
def refuseIf (p : Bool) (off reason : Nat) : List Refused := if p then [(off, reason)] else []

/-- HOB and CCH (R301, R304, R309). -/
def chkHOB (c : CheckIn) : List Refused :=
  outOf 0 c.ck.hobCfg 23 16 1 0xA8 ++ outOf 0 c.ck.hobCfg 7 0 1 0x20 ++ refuseIf (decide (8 < c.prof.dramSize)) 0xFFC 4
def chkCCH (c : CheckIn) : List Refused :=
  outOf 0 c.ck.cchCfg 27 24 0 0xC ++ outOf 0 c.ck.cchCfg 15 0 8 0x400

/-- GRT (R110, R134). -/
def chkGRT (c : CheckIn) : List Refused :=
  let w := c.ck.grtCfg
  let ce := bitsOf w 5 0
  let scrub := bitsOf w 13 8
  let first := bitsOf w 21 16
  let retry := bitsOf w 29 24
  outOf 0 w 29 24 0x10 0x32 ++ outOf 0 w 21 16 4 0x10 ++ outOf 0 w 13 8 2 8 ++ outOf 0 w 5 0 1 0x10 ++
    refuseIf (decide (first < ce ∨ first < scrub ∨ retry ≤ first)) 0 1 ++
    refuseIf (c.prof.geom.any fun z => decide (z.strength < 1 ∨ 7 < z.strength)) 0xFFC 0xA

/-- Minimum widths of the preamplifier functions in the order of Table 6.4, with the two reader biases apart; the assist may be
absent. -/
def paWidths : List Nat := [3, 6, 6, 6, 4, 3, 8, 8]

/-- PA_MAP has a width below its minimum (R154). -/
def paMapBad (p : Prof) : Bool :=
  paWidths.zipIdx.any fun (w, i) =>
    let have' := match p.paMap[i]? with | some m => m.2.2 | none => 0
    decide (have' < w) && !(decide (i = 6 ∧ have' = 0))

/-- ACTn (R97, R105, R145, R153, R154). A PA_SCK_MHZ outside 1–50 is refused as other values of the preamplifier are (log entry
122). -/
def chkACT (c : CheckIn) (n : Nat) : List Refused :=
  let w := vget c.ck.syncCfg n 0
  let top := (c.prof.geom.map (·.rate)).foldl max 0
  outOf 0x100 w 15 8 0x10 0x60 ++ outOf 0x100 w 3 0 2 8 ++
    refuseIf (c.prof.geom.any fun z => decide (z.rate < 2400 ∨ 6400 < z.rate)) 0xFFC 0xA ++
    refuseIf (decide (48000000 < c.prof.paTon * top ∨ 16000000 < c.prof.paToff * top)) 0xFFC 0xA ++
    refuseIf (paMapBad c.prof || decide (c.prof.paSck < 1 ∨ 50 < c.prof.paSck)) 0xFFC 0xA

/-- SEQ. -/
def chkSEQ (c : CheckIn) : List Refused := outOf 0xF00 c.ck.seqCfg 15 0 0x10 0x4000

/-- DMP (R165, R168, R174, R186). -/
def chkDMP (c : CheckIn) : List Refused :=
  ((List.range 6).flatMap fun n =>
    let w := vget c.ck.ontrk n 0
    let v := vget c.ck.srvCfg n 0
    let o := 0x200 * n
    outOf (o + 0x10) w 27 24 1 0xF ++ outOf (o + 0x10) w 23 16 8 0x60 ++ outOf (o + 0x10) w 15 8 8 0x80 ++ outOf (o + 0x10) w 7 0 4 0x40 ++
      outOf (o + 0x14) v 19 16 4 0xF ++ outOf (o + 0x14) v 15 8 4 0x40 ++ outOf (o + 0x14) v 7 0 4 0x40) ++
    ((List.range 6).flatMap fun n =>
      let w := vget c.ck.ontrk n 0
      refuseIf (decide (bitsOf w 23 16 ≤ bitsOf w 7 0)) (0x200 * n + 0x10) 1) ++
    refuseIf (c.prof.act.toList.any fun a =>
      decide (a.gainLut.headD 0 ≠ 64 ∨ 8 / 5 < a.iMax ∨ a.vMax * a.fRes1 < 2 * (a.accPerA * a.iMax))) 0xFFC 0xA

/-- The curve's draft values and speeds (R201): the first point that breaks a rule. -/
def chkCurve (pts : List (Nat × Nat)) : List Refused :=
  pts.zipIdx.flatMap fun (p, i) =>
    let o := 0x80 + 4 * i
    let prev := pts.getD (i - 1) (0, 0)
    refuseIf (decide ((i = 0 ∧ p.1 ≠ 0) ∨ (i = 15 ∧ p.1 ≠ 255) ∨ (i ≠ 0 ∧ p.1 ≤ prev.1))) o 1 ++
      refuseIf (decide (p.2 < 3600 ∨ 7200 < p.2 ∨ (i ≠ 0 ∧ p.2 < prev.2))) o 0xA

/-- Profile values of the spindle (R191, R205, R208, R209, R212, R215, R218, R513). -/
def chkSpnProf (c : CheckIn) : List Refused :=
  let p := c.prof
  let w := omegaM p.shortRpm * ((p.poles : Qty) / 2)
  refuseIf (decide (p.poles ∉ [8, 10, 12])) 0xFFC 0xA ++
  refuseIf (decide (3 < p.iRunMax ∨ 3 < p.startI ∨ 3 < p.alignI)) 0xFFC 0xA ++
  refuseIf (decide (5400 < holdFloor p ∨ p.holdE < holdMinOf (bitsOf c.ck.pwrCfg 15 0) p.eUnload)) 0xFFC 0xA ++
  refuseIf (decide ((5924 / 1000) * (5924 / 1000) < phaseVoltSq p 7200)) 0xFFC 0xA ++
  refuseIf (decide (p.holdV < 6 ∨ 12 < p.holdV ∨ p.shortRpm < 300 ∨ 2400 < p.shortRpm ∨ 3 * p.rPh < p.ke * w ∨ p.regenMax < 0 ∨
    3000 < p.regenMax ∨ p.vmClamp < 12 ∨ 147 / 10 < p.vmClamp)) 0xFFC 0xA

/-- SPN. -/
def chkSPN (c : CheckIn) : List Refused :=
  outOf 0 c.ck.spnCfg0 31 24 2 0xFF ++ outOf 0 c.ck.spnCfg0 23 16 1 0xFE ++ outOf 0 c.ck.spnCfg0 15 0 0xA 0xE10 ++
    outOf 4 c.ck.spnCfg1 31 16 0x64 0x4B0 ++ outOf 4 c.ck.spnCfg1 15 8 0 0xC8 ++
    refuseIf (decide (bitsOf c.ck.spnCfg0 31 24 ≤ bitsOf c.ck.spnCfg0 23 16)) 0 1 ++
    chkCurve (c.ck.curve.toList.map fun w => (bitsOf w 23 16, bitsOf w 15 0)) ++ chkSpnProf c

/-- PWR (R512, R513): a P_HOLD with which an enabled SPN would refuse HOLD_E conflicts with it (R581). -/
def chkPWR (c : CheckIn) : List Refused :=
  outOf 4 c.ck.pwrCfg 23 16 5 0xF ++ outOf 4 c.ck.pwrCfg 15 0 0x3E8 0x1F40 ++
    refuseIf (c.on 13 && decide (c.prof.holdE < holdMinOf (bitsOf c.ck.pwrCfg 15 0) c.prof.eUnload)) 4 5

/-- CFG (R237, R413). -/
def chkCFG (c : CheckIn) : List Refused :=
  let st := c.ck.cfgStripe
  let sp := c.ck.cfgSpare
  let dk := bitsOf st 28 24
  let dm := bitsOf st 19 16
  let ik := bitsOf st 12 8
  let im := bitsOf st 3 0
  let heads := ((List.range 32).filter fun i => c.prof.present.getLsbD i).length
  let zones := bitsOf c.ck.cfgZns 19 0
  outOf 0x100 st 28 24 1 0x1F ++ outOf 0x100 st 19 16 1 8 ++ outOf 0x100 st 12 8 1 0x1F ++ outOf 0x100 st 3 0 1 8 ++
    outOf 0x104 sp 31 24 2 0x19 ++ outOf 0x104 sp 20 16 2 0x10 ++ outOf 0x104 sp 15 8 4 0x40 ++ outOf 0x104 sp 7 0 8 0xFF ++
    refuseIf (decide (32 < dk + dm ∨ heads < dk + dm ∨ 32 < ik + im ∨ heads < ik + im)) 0x100 4 ++
    refuseIf (decide (dk < bitsOf sp 20 16)) 0x100 1 ++
    refuseIf (decide (zones ≠ 0 ∧ (16 < dk ∨ c.rings - (bitsOf sp 31 24 * c.rings + 99) / 100 < zones * (dk + dm)))) 0x118 4

/-- The first refusal of a block's check. -/
def blockCheck (c : CheckIn) (b : Nat) : Option Refused :=
  if (depends b).all c.on then
    (match b with
      | 2 => chkHOB c | 3 => chkCCH c | 5 => chkGRT c | 6 | 7 | 8 | 9 => chkACT c (b - 6) | 11 => chkSEQ c | 12 => chkDMP c
      | 13 => chkSPN c | 14 => chkPWR c | 18 => chkCFG c
      | _ => []).head?
  else some (0xFFC, 8)

/-- The enable order of Table 19.7. -/
def enableOrder : List Nat := [18, 2, 3, 4, 5, 14, 15, 16, 17, 12, 13, 10, 6, 7, 8, 9, 11, 19]

/-- Every block checked as if each were enabled in power-up order: the first block refused, with its refusal. -/
def checkAll (c : CheckIn) : Option (Nat × Refused) :=
  (enableOrder.foldl (fun (st : List Bool × Option (Nat × Refused)) b =>
    match st.2, blockCheck { c with en := st.1 } b with
    | none, none => (st.1.set b true, none)
    | none, some r => (st.1, some (b, r))
    | some r, _ => (st.1, some r)) (List.replicate 20 false, none)).2

/-- What the checks judge now. -/
def checkIn (s : State) : CheckIn := ⟨s.reg.ck, s.prof, dataRings s, s.reg.blk.toList.map (·.en)⟩

end Sys2Proof.Machine
end

