-- ==== Sys2Proof/Machine/Zones.lean ====
section
/-! DEFINITION. Zoned block access (chapter 14): writes, appends and reads of zones, and their states. -/
namespace Sys2Proof.Machine
open Sys2Proof

/-! ## Geometry and ranges (R414, R470) -/

/-- LBAs of a zone. -/
def zoneLbas : Nat := 1048576
/-- SLBA and the number of LBAs of a zoned command. -/
def SqEntry.slba (e : SqEntry) : Nat := e.dw10.toNat + e.dw11.toNat * 2 ^ 32
def SqEntry.nlb (e : SqEntry) : Nat := dwBits e.dw12 15 0 + 1

/-- LBAs of the namespace. -/
def znsSize (s : State) : Nat := s.zns.zones.length * zoneLbas

/-- The range that holds an LBA. -/
def rangeOfLba (s : State) (lba : Nat) : Nat :=
  ((List.range 65).find? fun r => let x := s.sec.ranges.getD r default
    r ≠ 0 ∧ x.start ≤ lba ∧ lba < x.start + x.length).getD 0

/-- Some range that meets LBAs a to b − 1 is locked. -/
def lbasLocked (s : State) (locked : State → Nat → Bool) (a b : Nat) : Bool :=
  (List.range 65).any fun r => let x := s.sec.ranges.getD r default
    decide (x.length ≠ 0 ∧ x.start < b ∧ a < x.start + x.length) && locked s r

/-- A zoned command ends with one of the zone statuses (status code type 1h, log entry 33). -/
def zoneStatus (s : State) (c sc : Nat) : State := finish s c 1 sc 0

/-- A zone leaves Empty: its group is formed and its ZCAP fixed (R415). -/
def zoneForm (s : State) (z : Nat) (st : ZoneState) : Option State :=
  match formGroup s .data (some z) with
  | (s, some g) => some (onZone s z fun x => { x with state := st, zcap := g.k * 65536 })
  | (_, none) => none

/-! ## Writing (R416, R420) -/

/-- An earlier write of the zone is still held. -/
def zoneHeld (s : State) (z n : Nat) : Bool :=
  s.host.ctxs.any fun y => isZoned y.2 && decide (y.2.phase = .held ∧ y.2.accept < n) &&
    y.2.parts.any fun p => p.place = some (z, (zoneBy s z).resets)

/-- The zone is full: its groups are full and its record is written (R417). -/
def zoneFilled (s : State) (z accept : Nat) : State :=
  zoneRecord (onZone s z fun x => { x with state := .full }) z accept

/-- The bytes of an accepted write enter the staging. -/
def zoneStage (s : State) (c : Nat) (x : Ctx) (z lba : Nat) (data : List Byte) : State :=
  let zn := zoneBy s z
  let len := x.entry.nlb * 4096
  let plain := zn.absorbed ++ padTo len (data.take len)
  let f : StageFor := ⟨2 ^ 63 + z, zn.resets + 1, zoneKey z, x.accept + 1, fun off => rangeOfLba s (z * zoneLbas + off / 4096)⟩
  let i := zn.absorbed.length / 32768
  let (s, refs) := stageLeaves f plain ((plain.length + 32767) / 32768 - i) i (s, zn.leaves)
  let s := formFull (onZone s z fun y => { y with absorbed := plain, written := plain.length, leaves := refs }) refs
  let s := if plain.length = zn.zcap * 4096 then zoneFilled s z (x.accept + 1) else s
  let at' := z * zoneLbas + lba
  if x.entry.opc = 0x7D then
    onCtx s c fun y => { y with phase := .done ⟨0, 0, at' % 2 ^ 32, at' / 2 ^ 32, []⟩ }
  else succeed s c 0

/-- An accepted write is staged when its turn and the dirty limit allow, or held; one whose zone has been reset since then
succeeds with its bytes discarded (R424). -/
def zoneGo (s : State) (c : Nat) (x : Ctx) (data : List Byte) : State :=
  match x.parts with
  | [⟨some (z, gen), lba, _, _⟩] =>
    let zn := zoneBy s z
    if c ∈ s.host.dataErr then dataError s c
    else if gen ≠ zn.resets then
      onCtx s c fun y => { y with phase := .done ⟨0, 0, if x.entry.opc = 0x7D then (z * zoneLbas + lba) % 2 ^ 32 else 0,
        if x.entry.opc = 0x7D then (z * zoneLbas + lba) / 2 ^ 32 else 0, []⟩ }
    else if zoneHeld s z x.accept then holdWrite s c
    else stageOr s (zoneStage s c x z lba data) c
  | _ => s

/-- An accepted write in its zone: the context that holds its place, the write pointer past it, and a zone that was Closed
or Empty open. -/
def zoneTaken (s : State) (c : Nat) (x : Ctx) (z : Nat) : State × Ctx :=
  let zn := zoneBy s z
  let n := x.entry.nlb
  let st := if zn.state = .closed ∨ zn.state = .empty then ZoneState.implicitOpen else zn.state
  let s := onZone s z fun y => { y with wp := zn.wp + n, state := if zn.wp + n = zn.zcap then .full else st }
  let x' := { x with parts := [⟨some (z, zn.resets), zn.wp, n, []⟩] }
  (onCtx s c fun _ => x', x')

/-- A write or append at a zone LBA takes its effect: the write pointer moves on, an Empty or Closed zone opens. -/
def zoneAccept (s : State) (c : Nat) (x : Ctx) (z : Nat) (data : List Byte) : State :=
  let zn := zoneBy s z
  let n := x.entry.nlb
  let a := z * zoneLbas + zn.wp
  let go := fun (s : State) =>
    if (zoneBy s z).zcap < (zoneBy s z).wp + n then zoneStatus s c 0xB8
    else let u := zoneTaken s c x z; zoneGo u.1 c u.2 data
  if lbasLocked s writeLocked a (a + n) then denied s c
  else if zn.state = .empty then
    if 16 ≤ activeZones s then zoneStatus s c 0xBD
    else match zoneForm s z .implicitOpen with
      | some s' => go s'
      | none => finish s c 0 0x81 0
  else go s

/-- ZONE_WRITE: SLBA must equal the write pointer. -/
def zoneWrite (s : State) (c : Fin 4096) (data : List Byte) : State :=
  match ctxBy s c with
  | none => s
  | some x =>
    if ¬ isZoned x ∨ x.entry.opc ≠ 0x01 then s
    else if x.phase = .held then zoneGo s c x data
    else onTurn s c isZoned fun x =>
      let e := x.entry
      let z := e.slba / zoneLbas
      if znsSize s < e.slba + e.nlb then finish s c 0 0x80 0
      else if e.slba % zoneLbas ≠ (zoneBy s z).wp then zoneStatus s c 0xBC
      else zoneAccept s c x z data

/-- ZONE_APPEND: the write pointer at acceptance is the LBA, returned in DW0 and DW1. -/
def zoneAppend (s : State) (c : Fin 4096) (data : List Byte) : State :=
  match ctxBy s c with
  | none => s
  | some x =>
    if ¬ isZoned x ∨ x.entry.opc ≠ 0x7D then s
    else if x.phase = .held then zoneGo s c x data
    else onTurn s c isZoned fun x =>
      let e := x.entry
      if znsSize s ≤ e.slba then finish s c 0 0x80 0
      else if e.slba % zoneLbas ≠ 0 then invalidField s c
      else zoneAccept s c x (e.slba / zoneLbas) data

/-! ## Reading (R421) -/

/-- The parts of n bytes of a zone from byte a: what is written, zeros beyond it. -/
def zoneParts (zn : Zone) (a n : Nat) : List ReadPart :=
  (List.range' (a / 32768) ((a + n + 32767) / 32768 - a / 32768)).flatMap fun i =>
    let lo := max a (32768 * i)
    let hi := min (a + n) (32768 * (i + 1))
    let m := max lo (min hi zn.written)
    let stored : List ReadPart := if m = lo then [] else match (zn.leaves[i]?).bind (·.place) with
      | some p => [⟨some p, lo - 32768 * i, m - lo, []⟩]
      | none => [⟨none, 0, m - lo, slice zn.absorbed lo (m - lo)⟩]
    stored ++ zeroPart (hi - m)

/-- The parts of n LBAs from an LBA of the namespace, zone by zone; the fuel is the number of zones. -/
def lbaParts (s : State) : Nat → Nat → Nat → List ReadPart
  | 0, _, _ => []
  | k + 1, lba, n =>
    if n = 0 then []
    else
      let here := min n (zoneLbas - lba % zoneLbas)
      zoneParts (zoneBy s (lba / zoneLbas)) (lba % zoneLbas * 4096) (here * 4096) ++ lbaParts s k (lba + here) (n - here)

/-- A zoned Read ends once its leaves are at hand. -/
def zoneReadGo (s : State) (c : Nat) (x : Ctx) : State :=
  match fetchLeaves s c .host 0 false (x.parts.filterMap (·.place)) with
  | (s, none) => s
  | (s, some got) =>
    let ps := partsWith x.parts got
    match firstMissing ps, allBytes s ps with
    | some _, _ => finish s c 2 0x81 0
    | none, none => denied s c
    | none, some b => succeed s c 0 b

/-- Zones that n LBAs from an LBA touch. -/
def zonesOf (lba n : Nat) : List Nat := List.range' (lba / zoneLbas) ((lba + n - 1) / zoneLbas - lba / zoneLbas + 1)

/-- ZONE_READ: across zone boundaries, in every zone state. -/
def zoneRead (s : State) (c : Fin 4096) : State :=
  match ctxBy s c with
  | none => s
  | some x =>
    if ¬ isZoned x ∨ x.entry.opc ≠ 0x02 then s
    else match x.phase with
      | .reading _ _ => zoneReadGo s c x
      | _ => onTurn s c isZoned fun x =>
        let e := x.entry
        let zs := zonesOf e.slba e.nlb
        -- bytes that a held write of the range has still to bring
        let waits := fun z => zoneHeld s z x.accept && decide (e.slba < z * zoneLbas + (zoneBy s z).wp ∧
          z * zoneLbas + (zoneBy s z).written / 4096 < e.slba + e.nlb)
        if znsSize s < e.slba + e.nlb then finish s c 0 0x80 0
        else if lbasLocked s readLocked e.slba (e.slba + e.nlb) then denied s c
        else if zs.any (fun z => (zoneBy s z).damaged.any fun i =>
            e.slba * 4096 < z * zoneLbas * 4096 + 32768 * (i + 1) ∧ z * zoneLbas * 4096 + 32768 * i < (e.slba + e.nlb) * 4096) then finish s c 2 0x81 0
        else if zs.any waits then s
        else
          let parts := lbaParts s (zs.length) e.slba e.nlb
          let x' : Ctx := { x with phase := .reading 0 0, parts := parts, lines := parts.filterMap (·.place) }
          zoneReadGo (pinLines (onCtx s c fun _ => x') true x'.lines) c x'

/-! ## Zone management (R422 to R424) -/

/-- A Zone Management Send with an action. -/
def isZms (action : Nat) (x : Ctx) : Bool :=
  isZoned x && decide (x.entry.opc = 0x79 ∧ dwBits x.entry.dw13 7 0 = action)

/-- The zones that a Zone Management Send names: one by its start, or with Select All those in given states. -/
def zmsZones (s : State) (e : SqEntry) (sel : Zone → Bool) : Option (List Nat) :=
  if dwBits e.dw13 8 8 = 1 then some ((List.range s.zns.zones.length).filter fun z => sel (zoneBy s z))
  else if znsSize s ≤ e.slba ∨ e.slba % zoneLbas ≠ 0 then none else some [e.slba / zoneLbas]

/-- A Zone Management Send over its zones: each takes a step, or the first status that refuses it ends the command. -/
def zmsRun (s : State) (c : Nat) (e : SqEntry) (sel : Zone → Bool) (step : State → Nat → Except Nat State) : State :=
  match zmsZones s e sel with
  | none => if znsSize s ≤ e.slba then finish s c 0 0x80 0 else invalidField s c
  | some zs =>
    match zs.foldl (fun (r : Except Nat State) z => match r with | .ok s => step s z | e => e) (.ok s) with
    | .ok s => succeed s c 0
    | .error sc => zoneStatus s c sc

/-- Open of one zone: an Empty one takes a group where fewer than 16 are active. -/
def openOne (s : State) (z : Nat) : Except Nat State :=
  match (zoneBy s z).state with
  | .empty =>
    if 16 ≤ activeZones s then .error 0xBD
    else match zoneForm s z .explicitOpen with
      | some s => .ok s
      | none => .error 0xBD
  | .full => .error 0xBF
  | _ => .ok (onZone s z fun y => { y with state := .explicitOpen })

/-- ZONE_OPEN. Select All opens the closed zones. -/
def zoneOpen (s : State) (c : Fin 4096) : State :=
  onTurn s c (isZms 3) fun x => zmsRun s c x.entry (fun z => z.state = .closed) openOne

/-- Close of one zone. -/
def closeOne (s : State) (z : Nat) : Except Nat State :=
  match (zoneBy s z).state with
  | .empty | .full => .error 0xBF
  | _ => .ok (onZone s z fun y => { y with state := .closed })

/-- ZONE_CLOSE. Select All closes the open zones. -/
def zoneClose (s : State) (c : Fin 4096) : State :=
  onTurn s c (isZms 1) fun x => zmsRun s c x.entry (fun z => z.state = .implicitOpen ∨ z.state = .explicitOpen) closeOne

/-- The groups formed for a zone that are not freed. -/
def zoneGroups (s : State) (z : Nat) : List Nat :=
  (s.str.groups.filter fun g => g.zone = some z ∧ g.state ≠ .freed).map (·.id)

/-- A zone's last leaf is formed, its open stripe closed, its group full, its record written. -/
def zoneEnd (s : State) (z accept : Nat) : State :=
  let s := (zoneBy s z).leaves.foldl (fun s r => formLeaf s r.uid) s
  let s := (zoneGroups s z).foldl (fun s g => groupFull (closeStripe s g) g) s
  zoneFilled (onZone s z fun y => { y with wp := y.zcap }) z accept

/-- Finish of one zone: a Full one stands, an Empty one takes a group first. -/
def finishOne (accept : Nat) (s : State) (z : Nat) : Except Nat State :=
  match (zoneBy s z).state with
  | .full => .ok s
  | .empty => match zoneForm s z .full with
    | some s => .ok (zoneEnd s z accept)
    | none => .error 0xBD
  | _ => .ok (zoneEnd s z accept)

/-- ZONE_FINISH. Select All finishes the open and closed zones. It waits for writes of its zones that are held. -/
def zoneFinish (s : State) (c : Fin 4096) : State :=
  onTurn s c (isZms 2) fun x =>
    let zs := (zmsZones s x.entry zoneActive).getD []
    if zs.any fun z => lbasLocked s writeLocked (z * zoneLbas) ((z + 1) * zoneLbas) then denied s c
    else if zs.any fun z => zoneHeld s z x.accept then s
    else withRoom s fun s => zmsRun s c x.entry zoneActive (finishOne (x.accept + 1))

/-- A zone brought back to Empty: its version's state record, its groups freed, the next generation. -/
def zoneEmptied (s : State) (z accept : Nat) : State :=
  let zn := zoneBy s z
  let s := zn.leaves.foldl (fun s r => dropLeaf s r.uid) s
  let (w, s) := nextWseq s
  let s := idxWrite s (zoneKey z) accept [stateRecord w (2 ^ 63 + z) (zn.resets + 1) 2 0 0]
  let s := (zoneGroups s z).foldl freeGroup s
  onZone { s with zns.damage := s.zns.damage.filter fun d => d.1 ≠ z } z fun _ => { (default : Zone) with resets := zn.resets + 1 }

/-- A zone that a Reset with Select All takes: any that is not Empty. -/
def zoneUsed (z : Zone) : Bool := decide (z.state ≠ .empty)

/-- Reset of one zone: an Empty one stands. -/
def resetOne (accept : Nat) (s : State) (z : Nat) : Except Nat State :=
  .ok (if (zoneBy s z).state = .empty then s else zoneEmptied s z accept)

/-- ZONE_RESET. Select All resets every zone that is not Empty. It waits for reads in progress of its groups. -/
def zoneReset (s : State) (c : Fin 4096) : State :=
  onTurn s c (isZms 4) fun x =>
    let zs := (zmsZones s x.entry zoneUsed).getD []
    if zs.any fun z => lbasLocked s writeLocked (z * zoneLbas) ((z + 1) * zoneLbas) then denied s c
    else if zs.any fun z => (zoneGroups s z).any (groupRead s) then s
    else withRoom s fun s => zmsRun s c x.entry zoneUsed (resetOne (x.accept + 1))

/-! ## Report Zones (R415, R419) -/

/-- The NVMe code of a zone state. -/
def zoneCode (z : Zone) : Nat :=
  match z.state with | .empty => 1 | .implicitOpen => 2 | .explicitOpen => 3 | .closed => 4 | .full => 0xE

/-- The ZCAP a zone reports: an Empty one what R239 would give it now. -/
def zoneCap (s : State) (z : Zone) : Nat := if z.state = .empty then kNewNow s * 65536 else z.zcap

/-- A zone descriptor. -/
def zoneDesc (s : State) (i : Nat) : List Byte :=
  let z := zoneBy s i
  leBytes 1 2 ++ leBytes 1 (zoneCode z * 16) ++ zeroBytes 6 ++ leBytes 8 (zoneCap s z) ++ leBytes 8 (i * zoneLbas) ++
    leBytes 8 (i * zoneLbas + z.wp) ++ zeroBytes 32

/-- The zones of a reporting option. -/
def zoneReported (z : Zone) (opt : Nat) : Bool :=
  match opt with
  | 0 => true | 1 => zoneCode z = 1 | 2 => zoneCode z = 2 | 3 => zoneCode z = 3 | 4 => zoneCode z = 4 | 5 => zoneCode z = 0xE
  | _ => false

/-- REPORT_ZONES: from the zone that holds SLBA on. -/
def reportZones (s : State) (c : Fin 4096) : State :=
  onTurn s c (fun x => isZoned x && decide (x.entry.opc = 0x7A)) fun x =>
    let e := x.entry
    if znsSize s ≤ e.slba then finish s c 0 0x80 0
    else
      let n := (e.dw12.toNat + 1) * 4
      let zs := ((List.range s.zns.zones.length).drop (e.slba / zoneLbas)).filter fun i => zoneReported (zoneBy s i) (dwBits e.dw13 15 8)
      let room := (n - 64) / 64
      let shown := if dwBits e.dw13 16 16 = 1 then min room zs.length else zs.length
      succeed s c 0 (padTo n ((leBytes 8 shown ++ zeroBytes 56 ++ (zs.take room).flatMap (zoneDesc s)).take n))

end Sys2Proof.Machine
end

