-- ==== Sys2Proof/Machine/Collector.lean ====
section
/-! DEFINITION. The fault collector, HEARTBEAT and the ash log's writer (R487 to R503). -/
namespace Sys2Proof.Machine
open Sys2Proof

/-! ## Judging pairs (R487, R489) -/

/-- Table 17.1 on two consecutive MOTOR clocks; none where the previous judgement stands. -/
def judgePair (p : PairSample) : Option Judgement :=
  if p.t1 = p.c1 ∧ p.t2 = p.c2 then some .broken
  else if ¬ p.t1 ∧ p.c1 ∧ ¬ p.t2 ∧ p.c2 then some .noError
  else if p.t1 ∧ ¬ p.c1 ∧ p.t2 ∧ ¬ p.c2 then some .error
  else none

/-- A lockstep pair has diverged, or stopped (R491). -/
def lockstepFault (s : State) (n : Nat) (cause : BitVec 3) : State :=
  failStop { s with flt.lsRun := vset s.flt.lsRun n false } cause (.lockstep n)

/-- The reaction to an error that an element reports on its pair (R490, R491; log entry 37). -/
def elementError (s : State) (e : Element) : State :=
  match e with
  | .lane n => laneFault s n 0
  | .grate n => grateFault s n
  | .sequencer n => seqFault s n
  | .damper n => damperFault s n
  | .flue n => flueFault s n
  | .lockstep n => lockstepFault s n 1
  | .hearthstone => failStop s 4 .hearthstone
  | .firebrick => failStop s 2 .firebrick
  | .configStore => failStop s 3 .configStore
  | e => fault2 s e 0x45 [(elementCode e).1]

/-- A spare is left for an element (R488): the rows of a bank are no spare of the bank. -/
def spareLeftFor (s : State) (e : Element) : Bool :=
  match e with
  | .lane _ => decide (s.str.lanesLeft ≠ 0)
  | .grate _ => decide (s.str.gratesLeft ≠ 0)
  | .sequencer _ => s.str.seqLeft
  | .damper _ => s.str.dmpLeft
  | .flue _ => decide (s.str.flueLeft ≠ 0)
  | _ => false

/-- What a broken pair does to the element behind it (R488): class 3 for a comparator, hearthstone or the firebrick; else a
class 1 fault, with the element replaced where a spare is left. `spare`: one was left when the clock began, so that of two faults
that ask for the last one the later is handled as a spent budget (R489). -/
def elementBroken (s : State) (spare : Bool) (input : Nat) (e : Element) : State :=
  match e with
  | .lockstep n => lockstepFault s n 6
  | .hearthstone => failStop s 6 .hearthstone
  | .firebrick => failStop s 2 .firebrick
  | e =>
    let s := fault1 s e 0x30 [input]
    if spare then elementError s e else s

/-- One pair judged; `s0`: the state as the clock began, `seen`: the elements whose reaction has started in it. A masked pair is not
judged; the second judgement of an element enters its pair's state and the element's record. -/
def judgeOne (s0 : State) (st : State × List Element) (p : PairSample) : State × List Element :=
  let (s, seen) := st
  let old := s.flt.pairs[p.input]
  if old.masked then st
  else
    let put := fun (j : Judgement) => { s with
      flt.pairs := s.flt.pairs.set p.input ⟨p.t2, p.c2, j, decide (j = .broken)⟩ }
    let e := Config.pairElement p.input.val
    match judgePair p with
    | none => (put old.judged, seen)
    | some .noError => (put .noError, seen)
    | some .error => if old.judged = .error then (put .error, seen) else if e ∈ seen then (ashAlso (put .error) e p.input.val, seen) else (elementError (put .error) e, e :: seen)
    | some .broken => if e ∈ seen then (ashAlso (put .broken) e p.input.val, seen)
      else (elementBroken (put .broken) (spareLeftFor s0 e) p.input.val e, e :: seen)

/-- ERROR_PAIR_REPORT: the pairs judged in one MOTOR clock, in ascending input number. -/
def errorPairReport (s : State) (ps : List PairSample) : State :=
  if ¬ blkEn s 16 then s else ((sortBy (fun a b => a.input.val ≤ b.input.val) ps).foldl (judgeOne s) (s, [])).1

/-- LOCKSTEP_WATCHDOG_LATE (R491): the kick of a running pair is more than 2 ms late. -/
def lockstepWatchdogLate (s : State) (n : Fin 2) : State :=
  if s.flt.lsRun[n] then lockstepFault s n 1 else s

/-- FAIL_STOP_BANK_LIMIT (R493): 500 ms after the declaration the banking step ends unfinished, and steps 5 and 6 begin where a
second class 3 fault has not begun them. -/
def failStopBankLimit (s : State) : State :=
  match s.flt.declaredAt with
  | some t =>
    if s.flt.class3 ∧ s.pwr.banking then
      let s := { s.at (t + 500000) with pwr.banking := false, pwr.endedAt := max s.time (t + 500000) }
      if s.flt.bankLimitDone then s else failStopPark s
    else s
  | none => s

/-- HEARTBEAT_TOGGLE (R496): every 500 µs while it runs. -/
def heartbeatToggle (s : State) : State :=
  if hbRuns s then
    let s := s.at (s.flt.lastToggle + 500)
    { s with flt.hbLevel := !s.flt.hbLevel, flt.lastToggle := s.time }
  else s

/-! ## The ash log's writer (R499, R501, R503) -/

/-- ASH_RECORD_WRITE, the three steps done (log entry 107): the head of the queue takes the next SEQ and the slot of the oldest record. -/
def ashRecordWrite (s : State) : State :=
  if ¬ blkEn s 17 then s else
  match s.ash.queue with
  | [] => s
  | r :: rest => { s with
      ash.queue := rest, ash.recent := (r.trigger, s.time) :: ashRecent s, ash.nextSeq := s.ash.nextSeq + 1, ash.dropSince := 0,
      ash.ring := ({ r with seq := s.ash.nextSeq, dropped := s.ash.dropSince } :: s.ash.ring).take 4096 }

/-- The 256 bytes of a record in the ember (Table 17.6). -/
def ashBytes (r : AshRec) : List Byte :=
  let (kind, idx) := elementCode r.source
  let body := leBytes 8 r.seq ++ leBytes 2 r.trigger ++ leBytes 1 r.cls ++ leBytes 1 r.snaps.length ++ leBytes 4 r.hours ++
    leBytes 4 r.cycles ++ leBytes 4 r.uptimeMs ++ leBytes 2 (kind * 256 + idx) ++ leBytes 2 r.suppressed ++ leBytes 2 r.dropped ++
    zeroBytes 2 ++ padTo 8 ((Config.ashDetail r.trigger r.detail).take 8) ++ leBytes 4 r.pversion ++ leBytes 4 r.listCrc.toNat ++
    padTo 192 (r.snaps.flatMap fun w => leBytes 4 w.toNat) ++ zeroBytes 8
  body ++ leBytes 4 (crc32c body).toNat ++ [0x3C, 0xC3, 0x5A, 0xA5]

end Sys2Proof.Machine
end

