-- ==== Sys2Proof/Machine/Start.lean ====
section
/-! DEFINITION. Tamper, power-up and the core reset (R434, R458 to R465, R476 to R482, R495, R520 to R528, R582). -/
namespace Sys2Proof.Config
open Sys2Proof Sys2Proof.Machine

/-- The profile that a body spells (R434 names its fields, not their places): the values that no register holds, and the CK
registers. -/
opaque profParse : List Byte → Option (Prof × CkRegs)

end Sys2Proof.Config

namespace Sys2Proof.Machine
open Sys2Proof

/-! ## Tamper (R480) -/

/-- The tamper response. -/
def tamperResponse (s : State) (cause : BitVec 3) : State :=
  let s := wipeFirebrick s .tamper
  let s := { s with
    sec.ranges := s.sec.ranges.map fun r => { r with slot := none },
    sec.op := none, sec.opRetry := false, sec.latched := true, sec.cause := cause, sec.count := satInc s.sec.count }
  ashRecord s 0x13 255 .hearthstone [cause.toNat]

/-- Tamper that kindling finds before its self-tests release any result: an edge latched in the reset (R560), and a mismatch of
hearthstone's own integrity checks. -/
def tamperFound (s : State) (b : Boot) : State :=
  let s := if s.sec.tamperEdge then tamperResponse { s with sec.tamperEdge := false } 1 else s
  if b.integrity then s else tamperResponse s 3

/-! ## Profiles (R434, R436) -/

/-- A header as R434 lays it out, and a file long enough for what it declares. -/
def profHeadOk (b : List Byte) : Bool :=
  decide (b.take 8 = [0x5A, 0x45, 0x49, 0x56, 0x50, 0x52, 0x4F, 0x46] ∧ leNat (slice b 8 2) = 1 ∧ leNat (slice b 10 2) = 0x4480 ∧
    64 ≤ leNat (slice b 16 4) ∧ leNat (slice b 16 4) ≤ leNat (slice b 20 4) ∧ leNat (slice b 20 4) + 8 ≤ b.length)

/-- The bytes that the signature covers. -/
def profSigned (b : List Byte) : List Byte := b.take (leNat (slice b 20 4))

/-- A signature block at an offset: SIGLEN, 6 reserved bytes, the signature. -/
def sigAt (b : List Byte) (o : Nat) : List Byte := slice b (o + 8) (leNat (slice b o 2))

/-- KEYHASH names the enrolled key, and the signature verifies with it. -/
def profSigOk (s : State) (b : List Byte) : Bool :=
  match s.sec.integrator with
  | some k => slice b 24 32 == shake256 k 32 && Config.falconVerify k (shake256 (profSigned b) 64) (sigAt b (leNat (slice b 20 4)))
  | none => false

/-- PVERSION. -/
def profVersion (b : List Byte) : Nat := leNat (slice b 12 4)

/-- A profile file's values; none for a file that is no profile. -/
def profOf (b : List Byte) : Option (Prof × CkRegs) :=
  if profHeadOk b then (Config.profParse b).map fun p => ({ p.1 with pversion := profVersion b }, ckMasked p.2) else none

/-! ## Hearthstone at start-up (R458, R460, R465, R474, R478) -/

/-- SWK from the DUS (R458). -/
def swkOf (dus : List Byte) : List Byte :=
  shake256 ([0x54, 0x6F, 0x6C, 0x73, 0x61, 0x6E, 0x20, 0x53, 0x57, 0x4B, 0x20, 0x76, 0x31] ++ dus) 32

/-- The DRBG instantiated from the entropy source. -/
def drbgStart (s : State) : State :=
  let (n, s) := s.fresh
  { s with sec.drbg := some (drbgInit (padTo 48 ((Config.entropy n).take 48))), sec.drbgStopped := false }

/-- n bytes of the DRBG; zeros while it is stopped. -/
def drbgTake (s : State) (n : Nat) : State × List Byte :=
  match s.sec.drbg with
  | some d =>
    if s.sec.drbgStopped then (s, zeroBytes n)
    else let (out, d) := drbgGen d n; ({ s with sec.drbg := some d }, out.take n)
  | none => (s, zeroBytes n)

/-- SWK derived, the DRBG instantiated, M0 to M4 cleared and M0 extended. A blown ZEROIZE fuse blocks the derivation. -/
def deriveSecrets (s : State) : State :=
  let s := drbgStart { s with
    sec.swk := if s.sec.zeroFuse then none else some (swkOf s.sec.dus), sec.meas := List.replicate 5 (zeroBytes 64),
    sec.wipe := .none }
  measExtend s 0 Config.kindlingDigest

/-- Bytes padded to a multiple of 8, and wrapped by AES key wrap. -/
def wrapBytes (k b : List Byte) : List Byte := kwWrap k (padTo ((b.length + 7) / 8 * 8) b)

/-- The identity key pair made (R460). -/
def identityMake (s : State) : State :=
  let (s, seed) := drbgTake s 48
  let (priv, pub) := Config.falconKey seed
  { s with
    sec.identity := priv, sec.identityPub := pub,
    sec.wrappedId := s.sec.swk.map fun k => wrapBytes k priv }

/-- A wrapped item that fails its check is absent, and recorded (R459). -/
def badItem (s : State) (i : Option Nat) : State :=
  let s := ashRecord s 0x14 255 .hearthstone [Config.wrappedItem i]
  match i with
  | none => { s with sec.wrappedId := none }
  | some r => { s with sec.ranges := s.sec.ranges.modify r fun x => { x with wrappedKey := none } }

/-- The key that belongs in a range's slot: unwrapped while the range is not both read-locked and write-locked. -/
def slotKey (s : State) (r : RangeRow) : Option (List Byte) :=
  if (r.readLockEnabled && r.readLocked && r.writeLockEnabled && r.writeLocked) || decide (s.sec.lc = .diagnostic) then none
  else match s.sec.swk, r.wrappedKey with
    | some k, some w => kwUnwrap k w
    | _, _ => none

/-- Every range's slot as R474 has it; nothing is unwrapped while hearthstone refuses. -/
def slotsLoad (s : State) : State :=
  { s with sec.ranges := s.sec.ranges.map fun r => { r with slot := if s.sec.refusing then none else slotKey s r } }

/-- The identity key made in MANUFACTURE, or unwrapped, and the range keys unwrapped. -/
def keysLoad (s : State) : State :=
  let s := if s.sec.fuseLc = .manufacture ∧ s.sec.wrappedId = none ∧ ¬ s.sec.zeroFuse ∧ ¬ s.sec.refusing then identityMake s
    else { s with sec.identity := match s.sec.swk, s.sec.wrappedId with
      | some k, some w => ((kwUnwrap k w).getD []).take 2305
      | _, _ => [] }
  slotsLoad s

/-- The life-cycle state in force (R476): the straps take MANUFACTURE to FACTORY_TEST for one power-up. -/
def lcOf (fuse : LifeCycle) (straps : BitVec 2) : LifeCycle := if fuse = .manufacture ∧ straps = 1 then .factoryTest else fuse

/-- Fuses read (Table 18.4). -/
def fusesRead (s : State) (straps : BitVec 2) : State :=
  { s with
    sec.straps := straps, sec.lc := lcOf s.sec.fuseLc straps, sec.svnShown := s.sec.svnFuses % 16,
    sec.zeroized := s.sec.zeroFuse, host.fundamental := lcOf s.sec.fuseLc straps }

/-- A block's EN as a status: STN once the self-tests pass, HRT once the firmware runs. -/
def blkOn (s : State) (b : Nat) : State := { s with reg.blk := vmod s.reg.blk b fun c => { c with en := true } }

/-- The firmware of the active slot, else of the other (R463); with neither valid the Nelvar stays in kindling. -/
def fwBoot (s : State) : State :=
  let a := s.fw.next.getD s.fw.active
  let s := { s with fw.next := none }
  if (fwImageOk s (vget s.fw.slots a [])).isSome then fwStart s a
  else if (fwImageOk s (vget s.fw.slots (1 - a) [])).isSome then fwStart s (1 - a)
  else { s with flt.faultPair := true }

/-! ## Configuration at start-up (R436 to R440, R513, R538) -/

/-- A block's check run, as EN does it in power-up order; a refusal is noted. -/
def enableBlock (s : State) (b : Nat) : State :=
  match blockCheck (checkIn s) b with
  | none => { s with reg.blk := vmod s.reg.blk b fun c => { c with en := true, chkReason := 0, chkOfs := 0xFFC } }
  | some (o, r) => noteHealth { s with reg.blk := vmod s.reg.blk b fun c =>
      { c with chkReason := BitVec.ofNat 8 r, chkOfs := BitVec.ofNat 12 o } } (.blockRefused b r o)

/-- The zones that CFG_ZNS gives the enabled block. -/
def zonesExtend (s : State) : State :=
  let n := bitsOf s.reg.ck.cfgZns 19 0
  if (vget s.reg.blk 18 {}).en ∧ s.zns.zones.length < n then
    { s with zns.zones := s.zns.zones ++ List.replicate (n - s.zns.zones.length) default }
  else s

/-- The blocks enabled in the order of Table 19.7. -/
def enableAll (s : State) : State := zonesExtend (enableOrder.foldl enableBlock s)

/-- The tables and limits that the profile sets where they run; a head that it declares present is IN_SERVICE. -/
def profApply (s : State) (vmot : Qty) : State :=
  let p := s.prof
  let cap := vcapOf p vmot
  { s with
    spn.floor := holdFloor p, spn.vmot := vmot, spn.vcap := cap, spn.vcapReg := BitVec.ofNat 16 (min 0xFFFF cap),
    spn.capBlock := decide (cap < holdFloor p),
    spn.cog := p.cog, spn.cogBg := p.cog, spn.fric := p.spnFric, spn.fricBg := p.spnFric,
    str.heads := Vector.ofFn fun f => if s.str.heads[f] = .absent ∧ p.present.getLsbD f then HeadState.inService else s.str.heads[f],
    pwr.holdMin := BitVec.ofNat 16 (min 0xFFFF (holdMinOf (bitsOf s.reg.ck.pwrCfg 15 0) p.eUnload)),
    srv.coefs := p.act.map coefSets,
    srv.loop := Vector.ofFn fun a =>
      let t := p.act[a]
      { s.srv.loop[a] with bias := t.bias, biasBg := t.bias, fric := t.fric, fricBg := t.fric } }

/-- M4 extended (Table 16.4). -/
def m4Extend (s : State) : State :=
  measExtend s 4 (Config.m4Digest (lcCode s.sec.lc) s.sec.svnFuses s.sec.integrator s.reg.crcRef)

/-- The profile in force loaded at power-up, the overlay applied and the CRC checked (R440). -/
def profLoad (s : State) (b : Boot) : State :=
  let file := vget s.cyz.slots s.cyz.slot []
  let got := if profSigOk s file then profOf file else none
  let s : State := match got with
    | some (p, ck) => measExtend { s with prof := p, reg.profCk := ck } 3 (shake256 (profSigned file) 64)
    | none => s
  let s : State :=
    if s.prof.pversion ≠ s.cyz.loaded then
      { s with
        cyz.loaded := s.prof.pversion, reg.overlay := none, reg.ck := s.reg.profCk, reg.crcRef := ckCrc s.reg.profCk }
    else
      let ck := s.reg.overlay.getD s.reg.profCk
      let s := { s with reg.ck := ck, reg.crcRef := if got.isNone ∧ s.reg.overlay.isNone then ckCrc ck else s.reg.crcRef }
      let c1 := b.crc1.getD (ckCrc ck)
      if c1 = s.reg.crcRef then s
      else
        let s := fault2 s .configStore 0x10 [c1.toNat, s.reg.crcRef.toNat]
        if b.crc2.getD (ckCrc ck) = s.reg.crcRef then s else failStop s 3 .configStore
  m4Extend s

/-! ## Calibration (R522 to R524) -/

/-- A lane that passes its recalibration at power-up returns to service, and the spare that carried its reader is idle (R75). -/
def laneBack (s : State) (n : Nat) : State :=
  let s := match spareOf s (n / 2) (n % 2 = 1) with
    | some j => onSpare s j fun p => { p with role := .idle, carries := false }
    | none => s
  ashRecord s 0x42 1 (.lane n) [n, 3, 1]

/-- One lane calibrated at power-up. A faulty lane is left out, but for one that the codeword condition of R75 sends to a last
calibration. -/
def laneStart (s : State) (x : Fin 10 × LaneMeas × LaneMeas × LaneMeas) : State :=
  let n := x.1.val
  let l := vget s.chan.lane n {}
  if l.retired ∨ (l.faulty ∧ ¬ l.recal) then s
  else match laneCal l x.2.1 x.2.2.1 x.2.2.2 with
  | some c =>
    let s := onLane s n fun _ => { c with faulty := false, recal := false }
    if l.recal then laneBack s n else s
  | none =>
    if l.recal then ashRecord (onLane s n fun l => { l with recal := false, retired := true }) 0x42 1 (.lane n) [n, 3, 2]
    else laneFault (calResult s 2 false (.lane n)) n 1

/-- Measurements that agree within an absolute tolerance (R523). -/
def agreeWithin (tol : Qty) (m : Trio) : Option Qty := agree3 (fun a b => absQ (a - b) ≤ tol) m.1 m.2.1 m.2.2

/-- A current sense calibrated: 1 % for its gain, and a tolerance for its offset. -/
def senseCal (tol : Qty) (m : Sense) : Option (Qty × Qty) :=
  match agree3 (agreeRel (1 / 100)) m.gain.1 m.gain.2.1 m.gain.2.2, agreeWithin tol m.offset with
  | some g, some o => some (g, o)
  | _, _ => none

/-- A canary's delay agrees within 2 steps and matches its setting within as many (R512; log entry 109). -/
def canaryOk (m : Trio) : Bool := match agreeWithin 2 m with | some d => decide (absQ d ≤ 2) | none => false

/-- The profile's geometry section declares an actuator present; an absent one keeps its bridge disabled (R561). -/
def fitted (s : State) (a : Nat) : Bool := (List.range 8).any fun h => s.prof.present.getLsbD (8 * a + h)

/-- The items of Table 18.5 that need no media. -/
def calibrate (s : State) (b : Boot) : State :=
  let s := b.lanes.foldl laneStart s
  let s := if s.cal.failed.getLsbD 2 then s
    else (if s.prof.calRef then [0, 1, 2] else [0, 2]).foldl (fun s i => calResult s i true .none) s
  let vc := b.items.vc.map (senseCal (2 / 1000))
  let s := calResult { s with cal.vcSense := vc } 3 ((List.range 4).all fun a => !fitted s a || (vget vc a none).isSome) .none
  let spn := senseCal (5 / 1000) b.items.spn
  let s := calResult { s with cal.spnSense := spn } 4 spn.isSome .none
  let bad := b.items.diodes.map fun m => (agreeWithin 1 m).isNone
  let s := calResult { s with cal.diodeBad := bad } 5 (bad.toList.all fun x => !x) .none
  let gb := (List.range 10).filter fun i => !canaryOk (vget b.items.canary i (0, 0, 0))
  { calResult { s with cal.gbMax := gb } 6 gb.isEmpty .none with cal.up := true }

/-! ## From the firmware's start to service (Table 18.4) -/

/-- The firmware runs: both lockstep pairs and the application cores. -/
def coresStart (s : State) : State :=
  blkOn { s with flt.lsRun := Vector.replicate 2 true, flt.appRun := 15, flt.fwRunning := true, flt.lastToggle := s.time } 0

/-- EVAL (R457). -/
def evalOf (s : State) : Bool := s.sec.lc = .deployed && s.flt.fwRunning && decide (s.prof.pversion ≠ 0 ∧ s.prof.uartMode = 0)

/-- Blocks, elements that fail their tests, the LPDDR5X and the calibration. -/
def serviceStart (s : State) (b : Boot) : State :=
  let s := enableAll s
  let s := paLatchedAct (profApply s b.vmot)
  let s := b.failed.foldl elementError s
  let s := if b.dramOk ∨ s.prof.dramSize = 0 ∨ s.drm.withdrawn then s
    else fault2 { s with drm.withdrawn := true, drm.l2 := [] } .lpddr 0x45 [14]
  let s := calibrate s b
  { s with sec.eval := evalOf s }

/-- The record of a completed start: kindling result and reset type. A start into the fail-stop is not complete. -/
def startDone (s : State) (b : Boot) (ty : Nat) : State :=
  if s.flt.class3 then s else ashRecord s 1 255 .none [b.kindling, ty]

/-! ## What a power-on reset keeps (R12, R387, R402, R520, R521) -/

/-- A leaf of the staging lives on in the ember leaves or the MRAM. -/
def emberKept (l : StagedLeaf) : Bool := !l.emberCopies.isEmpty || l.mramGroup.isSome

/-- The frame of a position is whole on the media and holds a coded region. -/
def homeHolds (s : State) (place : Nat × Nat) (coded : List Byte) : Bool :=
  match (groupById s (stripeGroup place.1)).bind fun g => piecePos g (stripeSlot place.1) place.2 with
  | some p => (mediaAt s p).any fun f => f.whole && f.leaf.stripe == place.1 && f.leaf.piece == place.2 && f.leaf.coded == coded
  | none => false

/-- The whole pieces of a stripe that the media hold. -/
def wholePieces (s : State) (stripe : Nat) : Nat :=
  match groupById s (stripeGroup stripe) with
  | some g => ((List.range (g.k + g.m)).filter fun i => match piecePos g (stripeSlot stripe) i with
      | some p => headState s p.surface ≠ .out && (mediaAt s p).any fun f => f.whole && f.leaf.stripe == stripe && f.leaf.piece == i
      | none => false).length
  | none => 0

/-- Staged leaves of which a loss of power leaves no copy of their own. -/
def leavesLost (s : State) : List StagedLeaf :=
  s.stg.leaves.filter fun l => !emberKept l && !(l.place.any fun p => homeHolds s p (stagedCoded l))

/-- A session as a loss of power leaves it: its acknowledged length. -/
def sessionCut (x : Session) : Session :=
  { x with accepted := x.acked, absorbed := x.absorbed.take x.acked, leaves := x.leaves.take ((x.acked + 32767) / 32768) }

/-- A zone as a loss of power leaves it: held writes have not moved its write pointer. -/
def zoneCut (z : Zone) : Zone := if z.state = .full ∨ z.wp * 4096 ≤ z.written then z else { z with wp := z.written / 4096 }

/-- Frames still to be written home, as the restore derives them again from the leaves it reads. -/
def jobsKept (s : State) (lost : List StagedLeaf) : List FrameJob :=
  let gone := lost.filterMap fun l => l.place.map (·.1)
  ((s.wrt.act.toList.flatMap fun w => (w.frame.toList ++ w.buffer).map (·.1)) ++ s.wrt.queue).filter fun j =>
    j.leaf.kind ≠ .ember ∧ j.leaf.kind ≠ .scratch ∧ j.leaf.stripe ∉ gone

/-- Stripes left incomplete because a leaf of theirs is lost. -/
def stripesCut (s : State) (lost : List StagedLeaf) : List Nat :=
  ((lost.filterMap fun l => l.place.map (·.1)).filter fun st => wholePieces s st ≠ 0 ∨ stripePending s st).dedup

/-- An acknowledged leaf lost for good is damage (R399): a leaf whose stripe still has k whole pieces is rebuilt instead. -/
def leafDamage (s : State) (l : StagedLeaf) : State :=
  match l.place with
  | some p =>
    if l.kind ≠ .data ∨ ((groupById s (stripeGroup p.1)).elim 0 (·.k)) ≤ wholePieces s p.1 then s
    else match zoneOfId l.objectId with
      | some z => damageZone s z (zoneOrds s z fun r => r.uid = l.uid)
      | none => damageLeaf s p
  | none =>
    match zoneOfId l.objectId with
    | some z => damageZone s z (zoneOrds s z fun r => r.uid = l.uid)
    | none =>
      match s.obj.slots.findSome? fun sl => sl.sess.filter fun x => x.leaves.any fun r => r.uid = l.uid with
      | some x =>
        if (x.key, x.version) ∈ s.obj.damage then s
        else
          let s := ashRecord (noteHealth s (.damaged x.objectId x.version)) 0x50 255 .none [x.objectId]
          { s with
            obj.damage := if damageCount s < 1024 then s.obj.damage ++ [(x.key, x.version)] else s.obj.damage,
            obj.damagedLeaves := s.obj.damagedLeaves ++ [(x.key, x.version, 0)],
            host.events := s.host.events ++ [(7, 0, 0xC0)],
            obj.slots := s.obj.slots.map fun sl => { sl with sess := sl.sess.map fun y =>
              if y.key = x.key ∧ y.version = x.version then { y with broken := true, damaged := true } else y } }
      | none => s

/-- A spare lane as a reset leaves it: one that was to carry another reader, or serves as a substitute, carries its reader; one
that stood in, or whose reader's own lane is back in service, is idle. -/
def spareStart (p : SpareLane) : SpareLane :=
  let q := { p with step := .steady, back := false, next := none }
  match p.next with
  | some (a, t) => { q with role := .substitute, act := a, trail := t, carries := true }
  | none =>
    if p.role = .substitute ∧ ¬ p.back then { q with carries := true } else { q with role := .idle, carries := false }

/-- A lane as a reset leaves it: what the ember holds of it. -/
def laneKept (l : Lane) : Lane := { faulty := l.faulty, retired := l.retired, recal := l.recal }

/-- The engine that runs the spindle after power-up (R225): degraded mode ends when D4 passes its self-test. -/
def driverStart (s : State) (d4 : Bool) : State :=
  if vget s.srv.serves 5 6 = 4 then { s with spn.driver := .d5 }
  else if vget s.srv.serves 4 6 = 4 then (if d4 then { s with spn.driver := .d4 } else spindleEngineFault { s with spn.driver := .d4 })
  else if d4 then { s with srv.serves := vset s.srv.serves 4 4, spn.driver := .d4 }
  else { s with spn.driver := .lockstepPair 0 }

/-- An audit as power-up finds it (R448): entries kept and not read are produced again. -/
def auditBack (a : Audit) : Audit :=
  let n := a.kept.length
  let drop := fun (r : Nat) => (a.kept.filter fun e => min 3 ((e.2.getD 12 0).toNat) = r).length
  { a with
    todo := a.kept.map (·.1) ++ a.todo, checked := a.checked - n, counts := a.counts.zipIdx.map fun (c, r) => c - drop r,
    hashed := a.hashed.take (a.hashed.length - 88 * n), kept := [], rebuilt := false, recheck := false }

/-- The block right after a loss of power: what the ember, the fuses, the flash and the media keep. -/
def powerKept (s : State) : State :=
  let lost := leavesLost s
  let kept := (s.stg.leaves.filter emberKept).map fun l => { l with payload := [] }
  { ({} : State) with
    pending := s.pending, time := s.time, freeCtr := s.freeCtr,
    media := s.media,
    ember := { s.ember with copies := kept ++ s.ember.copies },
    str := { s.str with rebuilds := [], matrices := [], copy := none, ckpt := none,
                        relocPending := s.str.relocPending ++ (stripesCut s lost).map fun x => (x, true) },
    obj := { s.obj with streams := [], slots := s.obj.slots.map fun sl => { sl with sess := sl.sess.map sessionCut } },
    zns.zones := s.zns.zones.map zoneCut,
    mop := s.mop,
    flt.extraCrcCheck := s.flt.extraCrcCheck,
    ash := { ring := s.ash.ring, nextSeq := s.ash.nextSeq, health := s.ash.health },
    pwr := { cycles := s.pwr.cycles + 1, hoursBase := if s.pwr.powered then s.hours else s.pwr.hoursBase, upAt := s.time, vinOk := true,
             powered := true, restore := !(kept ++ s.ember.copies).isEmpty, restored := (kept ++ s.ember.copies).isEmpty },
    stg := { nextUid := s.stg.nextUid, nextOrder := s.stg.nextOrder },
    reg := { overlay := s.reg.overlay, crcRef := s.reg.crcRef },
    host := { perst := s.host.perst, accept := s.host.ceiling, ceiling := s.host.ceiling + 2 ^ 20,
              sanitizeStatus := s.host.sanitizeStatus },
    cyz := { slots := s.cyz.slots, slot := s.cyz.slot, loaded := s.cyz.loaded, audit := s.cyz.audit.map auditBack, summaries := s.cyz.summaries,
             exp := s.cyz.exp.map fun x => { x with left := [], next := none, recheck := false, got := none } },
    sec := { fuseLc := s.sec.fuseLc, diagTrips := s.sec.diagTrips, svnFuses := s.sec.svnFuses, zeroFuse := s.sec.zeroFuse,
             count := s.sec.count, dus := s.sec.dus, serial := s.sec.serial, wrappedId := s.sec.wrappedId,
             identityPub := s.sec.identityPub, certs := s.sec.certs, integrator := s.sec.integrator, authSeq := s.sec.authSeq,
             ranges := s.sec.ranges.map fun r => { r with
               slot := none, readLocked := r.readLocked || (r.lockOnReset && r.readLockEnabled),
               writeLocked := r.writeLocked || (r.lockOnReset && r.writeLockEnabled) },
             cpins := s.sec.cpins.map fun c => { c with tries := 0 }, lockingActive := s.sec.lockingActive, rangeUsers := s.sec.rangeUsers,
             tamperEdge := s.sec.tamperEdge },
    fw := { slots := s.fw.slots, active := s.fw.active, next := s.fw.next },
    wrt := { queue := jobsKept s lost,
             act := s.wrt.act.map fun w => { outOfService := w.outOfService, verify := w.verify, readback := w.readback } },
    chan := { badReader := s.chan.badReader.map fun r => (r.1, r.2.1, 0),
              lane := s.chan.lane.map laneKept,
              spare := s.chan.spare.map spareStart },
    grt.grate := s.grt.grate.map fun g => ⟨g.inService, g.failed, none, none, [], none, 0⟩,
    seq.sq := s.seq.sq.map fun q => { serves := q.serves },
    seq.ringMapCopy := s.seq.ringMapCopy,
    srv.serves := s.srv.serves, srv.accOut := s.srv.accOut,
    flu.ch := s.flu.ch.map fun c => { cls := c.cls, serves := c.serves, inService := c.inService },
    drm.withdrawn := s.drm.withdrawn,
    cch := { wayOff := s.cch.wayOff, lineOff := s.cch.lineOff },
    hob := { rowMap := s.hob.rowMap, spareLeft := s.hob.spareLeft, fbSpareLeft := s.hob.fbSpareLeft, withdrawn := s.hob.withdrawn } }

/-- The class 3 cause of a record written after the last record 0001h (R495). -/
def priorCause (ring : List AshRec) : Option Nat :=
  ((ring.takeWhile fun r => r.trigger ≠ 1).find? fun r => r.trigger = 0x60).map fun r => r.detail.headD 0

/-- Conditions 2 and 3 of R8 as a start finds them: each that has stopped holding is recorded. -/
def conditionsStart (s : State) : State :=
  let lost := (if s.sec.lc = .provisioned ∨ s.sec.lc = .deployed ∨ s.sec.lc = .diagnostic then [] else [2]) ++
    (if s.prof.pversion = 0 then [3] else [])
  (lost.filter (· ∉ s.pwr.condLost)).foldl condition8
    { s with pwr.condLost := lost ++ s.pwr.condLost.filter fun c => c ≠ 2 ∧ c ≠ 3 }

/-! ## The index resolved again (R68, R399) -/

/-- The records of an index page, cut by their lengths; the fuel is the page's record count. -/
def cutRecords : Nat → List Byte → List (List Byte)
  | 0, _ => []
  | n + 1, b => b.take (leNat (slice b 2 2)) :: cutRecords n (b.drop (leNat (slice b 2 2)))

/-- The records of an index page (R65); none of what is no page. -/
def pageRecords (page : List Byte) : List (List Byte) :=
  if page.take 4 = [0x4A, 0x58, 0x49, 0x50] then cutRecords (leNat (slice page 4 2)) (page.drop 32) else []

/-- A record of a type that names a version. -/
def recordOf (ty id no : Nat) (r : List Byte) : Bool := decide (leNat (slice r 0 2) = ty ∧ leNat (slice r 16 8) = id ∧ leNat (slice r 24 4) = no)

/-- The write sequence of a record. -/
def recordSeq (r : List Byte) : Nat := leNat (slice r 8 8)

/-- A version record with every extent record that it counts. -/
def recordWhole (recs : List (List Byte)) (id no : Nat) (r : List Byte) : Bool :=
  recordOf 1 id no r && (List.range (leNat (slice r 124 2))).all fun i =>
    recs.any fun e => recordOf 4 id no e && decide (recordSeq e = recordSeq r ∧ leNat (slice e 28 2) = i + 1)

/-- STATE, FLAGS and RETAIN_UNTIL of the record that applies to a version: the one with the highest WSEQ. -/
def recordState (recs : List (List Byte)) (id no : Nat) : Option (Nat × Nat × Nat) :=
  let got := recs.filter fun r => recordOf 1 id no r || recordOf 2 id no r
  (got.find? fun r => got.all fun q => decide (recordSeq q ≤ recordSeq r)).map fun r =>
    if leNat (slice r 0 2) = 1 then (leNat (slice r 29 1), leNat (slice r 31 1), leNat (slice r 48 8))
    else (leNat (slice r 28 1), leNat (slice r 29 1), leNat (slice r 32 8))

/-- A version as the records found give it. -/
def versionResolved (recs : List (List Byte)) (id : Nat) (v : Version) : Version :=
  match recordState recs id v.no with
  | some (st, fl, until_) => { v with state := if st = 2 then .deleted else .live, hold := decide (fl % 2 = 1), retain := until_ }
  | none => v

/-- The index pages that the media hold whole, in home and in ember leaves. -/
def mediaPages (s : State) : List (List Byte) :=
  (s.media.frames.filter fun f => f.whole ∧ (f.leaf.kind = .index ∨ f.leaf.homeKind = .index)).map fun f => payloadOf f.leaf.coded

/-- Index leaves lost for good: the records on the pages that remain, on the media and among `pages`, decide each version; a
version with no version record whole is damaged (R399). -/
def indexLost (s : State) (pages : List (List Byte)) (lost : List StagedLeaf) : State :=
  let built := fun (l : StagedLeaf) => l.place.any fun p => decide (((groupById s (stripeGroup p.1)).elim 0 (·.k)) ≤ wholePieces s p.1)
  if ¬ lost.any fun l => l.kind = .index ∧ ¬ built l then s
  else
    let recs := (mediaPages s ++ pages ++ (lost.filter fun l => l.kind = .index ∧ built l).map (·.payload)).flatMap pageRecords
    let s := { s with obj.objs := s.obj.objs.map fun (o : Obj) => { o with versions := o.versions.map (versionResolved recs o.id) } }
    (s.obj.objs.flatMap fun o => o.versions.map fun v => (o, v)).foldl (fun s p =>
      if recs.any (recordWhole recs p.1.id p.2.no) then s else damageVersion s p.1.key p.2.no p.1.id) s

/-- Every staged leaf lost by a loss of power: data leaves are damage, index leaves are resolved from what remains. -/
def leavesGone (s : State) (pages : List (List Byte)) (lost : List StagedLeaf) : State :=
  indexLost (lost.foldl leafDamage s) pages lost

/-! ## Power-on reset (R520) -/

/-- POWER_ON_RESET: VIN rises past 2.6 V. While a banking sequence runs the bucks from the motor bus it is the end of a dip and no
power-on reset (R568). -/
def powerOn (s : State) (b : Boot) : State :=
  if s.pwr.powered ∧ s.pwr.banking ∧ s.pwr.buckMotor then s else
  let lost := leavesLost s
  let pages := ((s.stg.leaves.filter emberKept ++ s.ember.mram.flatMap (·.leaves)).filter fun l => l.kind = .index).map (·.payload)
  let s := powerKept s
  let s : State := match priorCause s.ash.ring with
    | some c => noteHealth { s with flt.prior := c } (.prior3 c)
    | none => s
  let s := { s with cyz.sideband := if b.sbSel then .i3c else .smbus }
  let s := tamperFound (deriveSecrets (fusesRead s b.straps)) b
  if ¬ b.selfTest then failStop s 4 .hearthstone
  else
    let s := keysLoad (b.badItems.foldl badItem (blkOn s 1))
    let s := fwBoot s
    if ¬ s.flt.fwRunning then s
    else
      let s := profLoad (coresStart s) b
      let s := driverStart { s with pwr.vmotOk := decide ((9 / 2 : Qty) ≤ b.vmot) } b.spindleD4
      leavesGone (startDone (conditionsStart (serviceStart s b)) b 0) pages lost

/-- BUCK_RESTART (R517): 100 ms after the bellows turned the bucks off, with VIN present. -/
def buckRestart (s : State) (b : Boot) : State :=
  match s.pwr.bucksOffAt with
  | some t => if s.pwr.powered then s else powerOn (s.at (t + 100000)) b
  | none => s

/-! ## Core reset (R526 to R528, R582) -/

/-- A pair after a core reset: a masked one stays masked until the next power-up (R488). -/
def pairKept (p : PairIn) : PairIn := if p.masked then p else ⟨false, true, .noError, false⟩

/-- Every island but EMBER is reset; the hob, the staging, the ember and the element states that firmware loads from the
ember are kept. -/
def coreKept (s : State) : State :=
  let s := abandonAll (frameAbortAll s)
  let l := s.host.link
  { s with
    reg := { s.reg with
      blk := Vector.ofFn fun i => if i.val = 1 ∨ i.val = 16 then s.reg.blk[i] else {},
      ck := s.reg.overlay.getD s.reg.profCk, flipCtl := Vector.replicate 4 0, flipPos := Vector.replicate 4 0, hobFlip := 0,
      hobMlo := 0, hobMhi := 0, inj := 0, editEnd := none, reloads := 0, lastCompare := s.time, caps := [] },
    flt := { s.flt with pairs := s.flt.pairs.map pairKept, injEnd := none,
                        lsRun := Vector.replicate 2 false, appRun := 0 },
    ash := { s.ash with dropped := 0, suppressed := 0 },
    pwr := { cycles := s.pwr.cycles, hoursBase := s.pwr.hoursBase, upAt := s.pwr.upAt, vinOk := s.pwr.vinOk, powered := s.pwr.powered,
             vmotOk := s.pwr.vmotOk, vmotLostNow := s.pwr.vmotLostNow, warn := s.pwr.warn, resetType := 1,
             restore := s.pwr.restore, restored := s.pwr.restored, condLost := s.pwr.condLost,
             junctionLo := s.pwr.junctionLo, junctionAt := s.pwr.junctionAt, junctions := s.pwr.junctions },
    cal := {},
    srv := { serves := s.srv.serves, accOut := s.srv.accOut,
             loop := Vector.replicate 4 {} },
    seq := { sq := s.seq.sq.map fun q => { serves := q.serves }, ringMapCopy := s.seq.ringMapCopy },
    chan := { saved := s.chan.saved, badReader := s.chan.badReader.map fun r => (r.1, r.2.1, 0),
              lane := s.chan.lane.map laneKept, spare := s.chan.spare.map spareStart },
    grt := { grate := s.grt.grate.map fun g => ⟨g.inService, g.failed, none, none, [], none, 0⟩ },
    reqs := [],
    wrt := { queue := ((s.wrt.act.toList.flatMap fun w => w.buffer.map (·.1)) ++ s.wrt.queue).filter fun j => j.leaf.kind ≠ .ember,
             act := s.wrt.act.map fun w => { outOfService := w.outOfService, verify := w.verify, readback := w.readback } },
    str := { s.str with rebuilds := [], matrices := [], copy := none, ckpt := none },
    flu := { ch := s.flu.ch.map fun c => { cls := c.cls, serves := c.serves, inService := c.inService } },
    drm := { s.drm with mem := [], l2 := [], gen := s.drm.gen + 1 },
    hob := { s.hob with ce := 0, ue := 0, flipValid := false, flipResult := 0, flipWritten := false, flipRepeat := false,
                        ceLog := ({} : HobS).ceLog, conf := ({} : HobS).conf },
    cch := { s.cch with ceLog := ({} : CchS).ceLog },
    cyz := { s.cyz with replies := [], open_ := [], held := none, tests := [], sent := none },
    sec := { s.sec with session := none, token := none, challenge := none, nonce := none, op := none, opRetry := false, identity := [],
                        ranges := s.sec.ranges.map fun r => { r with slot := none } },
    fw := { s.fw with download := [], downLen := 0, act := none },
    host := { perst := s.host.perst, fundamental := s.host.fundamental, accept := s.host.ceiling, ceiling := s.host.ceiling + 2 ^ 20,
              sanitizeStatus := s.host.sanitizeStatus, errs := s.host.errs, errCount := s.host.errCount,
              cfs := s.flt.class3, link := { l with up := false, rate := 0, width := 0, retrains := 0 } } }

/-- The spindle coasts, and is measured when the firmware runs (R582); after a class 3 fault step 6 of R493 goes on under the
bellows. -/
def coreSpindle (s : State) : State :=
  let p := s.spn
  let new : SpnS := { speed := p.speed, driver := p.driver, floor := p.floor, vmot := p.vmot, vcap := p.vcap, vcapReg := p.vcapReg,
                      vcapOkSince := p.vcapOkSince, capBlock := p.capBlock, lastDraft := s.time }
  if s.flt.class3 then
    { s with spn := { new with state := p.state, bank := p.bank, mode := if p.state = .banked then .off else
        if p.bank = .shorted then .braking else .highZ, driver := .bellows } }
  else startMeasure { s with spn := { new with state := .starting, restOnly := true } }

/-- Kindling after a core reset (R478, R527): the firebrick's contents stand, are derived again, or stay empty. -/
def coreKindle (s : State) (b : Boot) : State :=
  match s.sec.wipe with
  | .none =>
    let s := slotsLoad { s with sec.identity := match s.sec.swk, s.sec.wrappedId with
      | some k, some w => ((kwUnwrap k w).getD []).take 2305
      | _, _ => [] }
    if b.hobCopy ∧ s.fw.next = none then
      match s.fw.running with
      | some img => { s with
          seq.master := ⟨img.micro, img.nano⟩, seq.masterBase := img.base,
          seq.sq := s.seq.sq.map fun q => if q.serves = 6 then q else
            { q with store := ⟨img.micro, img.nano⟩, base := img.base, crc := storeCrc ⟨img.micro, img.nano⟩ } }
      | none => fwBoot s
    else fwBoot s
  | .lifeCycle =>
    let s := keysLoad (deriveSecrets (fusesRead s s.sec.straps))
    let s := measExtend (fwBoot s) 3 (shake256 (profSigned (vget s.cyz.slots s.cyz.slot [])) 64)
    m4Extend s
  | .tamper | .class3 => fwBoot s

/-- A core reset (R526): every command in progress is abandoned, the bellows parks the heads, kindling starts again, dirty data
is written home or banked (R528). -/
def coreReset (s : State) (b : Boot) : State :=
  let again := s.pwr.banking || s.pwr.warn || !s.pwr.vmotOk
  let cause := s.pwr.cause
  let banked := s.pwr.banking
  let s := retractAll s
  let s := tamperFound (coreSpindle (coreKept s)) b
  if ¬ b.selfTest then failStop { s with flt.fwRunning := false } 4 .hearthstone
  else
    let s := coreKindle { s with flt.fwRunning := false, flt.retracted := false } b
    if s.fw.running = none ∨ s.flt.faultPair ∧ ¬ s.flt.class3 then s
    else
      let s := startDone (conditionsStart (serviceStart (coresStart s) b)) b 1
      if s.flt.class3 then (if banked then bankStart s .failStop else s)
      else if again then bankStart s (match cause with
        | some c => c
        | none => if s.pwr.warn then .marginWarn else .vmotLoss)
      else writeHome s

end Sys2Proof.Machine
end

