-- ==== Sys2Proof/Machine/Media.lean ====
section
/-! DEFINITION. Sanitize and Format NVM: how they begin, their stages, and the layout that a format gives the surfaces (R58 to
R63, R110, R237, R366 to R369, R396, R441 to R443, R473). -/
namespace Sys2Proof.Config
open Sys2Proof Sys2Proof.Machine

/-- The places that a format chooses for rings beside the cornerstone rings, in ring order, from N_t and the zones: the first
servo track, and whether the ring is an index ring (R60 gives roles and not places). -/
opaque ringLayout : Nat → List ZoneGeom → List (Nat × Bool)

end Sys2Proof.Config

namespace Sys2Proof.Machine
open Sys2Proof

/-! ## The layout of a surface (R59, R60, R62, R110) -/

/-- The first servo track after a ring and its guard tracks. -/
def ringEnd (zones : List ZoneGeom) (r : Ring) : Nat :=
  r.firstTrack + ringSpan (match zones[r.zone]? with | some z => framesPerTrack z.dz r.strength | none => 1) + 4

/-- A cornerstone ring at a servo track. -/
def cornerRingAt (zones : List ZoneGeom) (track : Nat) : Ring := ⟨.cornerstone, 0, track, zoneOf zones track, 0⟩

/-- The three cornerstone rings of a surface: ring 0 holds copy 0, rings 1 and 2 the others. -/
def cornerRings (nT : Nat) (zones : List ZoneGeom) : List (Nat × Ring) :=
  [(0, cornerRingAt zones 64), (1, cornerRingAt zones (4 * (nT / 8))), (2, cornerRingAt zones (4 * ((nT - 512) / 4)))]

/-- The next ring, where its place keeps R59 and meets no ring before it. -/
def placeRing (nT : Nat) (zones : List ZoneGeom) (rs : List (Nat × Ring)) (c : Nat × Bool) : List (Nat × Ring) :=
  let zi := zoneOf zones c.1
  match zones[zi]? with
  | none => rs
  | some z =>
    let role : RingRole := if rs.length % 32 = 16 then .ember else if c.2 then .index else .data
    let r : Ring := ⟨role, if role = .data then z.strength else min 7 (z.strength + 2), c.1, zi, 0⟩
    let last := match zones[zi + 1]? with | some y => y.firstTrack | none => nT
    if c.1 % 4 ≠ 0 ∨ c.1 < z.firstTrack ∨ last < ringEnd zones r ∨
        rs.any (fun x => decide (x.2.firstTrack < ringEnd zones r ∧ c.1 < ringEnd zones x.2)) then rs
    else rs ++ [(rs.length, r)]

/-- The ring table of a surface, by ring number. -/
def ringTable (nT : Nat) (zones : List ZoneGeom) : List (Nat × Ring) :=
  (Config.ringLayout nT zones).foldl (placeRing nT zones) (cornerRings nT zones)

/-- A ring of the new table as the surface has it: a retired ring that stays where it was stays retired. -/
def ringKept (s : State) (surface : Nat) (r : Nat × Ring) : (Nat × Nat) × Ring :=
  ((surface, r.1), match ringAt s surface r.1 with
    | some o => if o.role = .retired ∧ o.firstTrack = r.2.firstTrack ∧ o.strength = r.2.strength then { r.2 with role := .retired } else r.2
    | none => r.2)

/-! ## Stages (R442) -/

/-- The record changes. -/
def onMop (s : State) (f : MediaProgress → MediaProgress) : State := { s with mop.rec_ := f s.mop.rec_ }

/-- Rings of every role that heads can write, in order of surface and ring. -/
def allRings (s : State) : List (Nat × Nat) := (s.str.rings.filter fun r => headWrites s r.1.1).map (·.1)

/-- Index and ember rings that heads can write: what the format writes first. -/
def formatRings (s : State) : List (Nat × Nat) :=
  (s.str.rings.filter fun r => headWrites s r.1.1 ∧ (r.2.role = .index ∨ r.2.role = .ember)).map (·.1)

/-- Cornerstone copies still to be written. -/
def cornerLeft (s : State) : Nat := s.str.corner.length + ((List.range 32).filter (cornerBusy s)).length

/-- The frames of a ring are gone: it has been written anew. -/
def ringWiped (s : State) (r : Nat × Nat) : State :=
  onRing { s with media.frames := s.media.frames.filter fun f => (f.pos.surface, f.pos.ring) ≠ r } r.1 r.2 fun x => { x with wp := 0 }

/-- Surfaces of the geometry section with a head that can write. -/
def formatSurfaces (s : State) : List Nat := (cornerSurfaces s).filter fun f => s.prof.present.getLsbD f

/-- A zone as the format takes it from the profile: D_z is at most 99.5 % of the bits of 3,864 cells, of which a turn at 7,200 rpm
passes 235,929,600 a second (R43). -/
def zoneFit (z : ZoneGeom) : ZoneGeom := { z with dz := min z.dz (995 * 3864 * 1000 * z.rate / 235929600) }

/-- The format begins: geometry, profiles, ring tables; no group is left. -/
def formatStart (s : State) : State :=
  let p := s.prof
  let nT := min p.nT (2 ^ 24)               -- R41
  let zones := p.geom.map zoneFit
  let table := ringTable nT zones
  let rings := ((List.range 32).filter fun f => p.present.getLsbD f).flatMap fun f => table.map (ringKept s f)
  let same := fun (pos : Pos) => match ringAt s pos.surface pos.ring, (rings.find? fun r => r.1 = (pos.surface, pos.ring)) with
    | some o, some n => o.firstTrack == n.2.firstTrack && o.strength == n.2.strength
    | _, _ => false
  let (w, s) := nextWseq s
  let s := { s with
    str.rings := rings, str.groups := [], str.newGroups := [], str.corner := [],
    str.idxK := bitsOf s.reg.ck.cfgStripe 12 8, str.idxM := bitsOf s.reg.ck.cfgStripe 3 0,
    str.defects := s.str.defects.filter fun d => same d.pos,
    media := ⟨s.media.frames.filter fun f => same f.pos, p.present, nT, bitsOf s.reg.ck.cfgStripe 28 24,
      bitsOf s.reg.ck.cfgStripe 19 16, w, s.hours, zones⟩ }
  onMop s fun r => { r with state := 3, ringsDone := 0, ringsTotal := (formatRings s).length + 3 * (formatSurfaces s).length }

/-- The overwrite begins, at its first pass. -/
def overwriteStart (s : State) : State :=
  onMop s fun r => { r with state := 2, pass := 1, ringsDone := 0, ringsTotal := (allRings s).length }

/-- The stage after the crypto erase, or the first one. -/
def afterErase (s : State) : State := if s.mop.rec_.passes ≠ 0 then overwriteStart s else formatStart s

/-- A range takes a new key; its old one is overwritten (R473). -/
def rangeRekey (s : State) (r : Nat) : State :=
  let (s, k) := drbgTake s 64
  { s with sec.ranges := s.sec.ranges.modify r fun x =>
      let x := { x with wrappedKey := s.sec.swk.map fun w => wrapBytes w k }
      { x with slot := if s.sec.refusing then none else slotKey s x } }

/-- Ranges that hold a key. -/
def keyedRanges (s : State) : List Nat := (List.range 65).filter fun r => r ≠ 0 ∧ (s.sec.ranges.getD r default).wrappedKey.isSome

/-- Every range key replaced. -/
def rekeyAll (s : State) : State := (keyedRanges s).foldl rangeRekey s

/-- The status code SSTAT of log page 81h: 1 done, 2 in progress, 3 failed, with the passes completed. -/
def sstat (s : State) (code : Nat) : State :=
  if s.mop.sanitize then { s with host.sanitizeStatus := code + 8 * (if s.mop.rec_.state = 2 then s.mop.rec_.pass - 1 else s.mop.rec_.pass) } else s

/-- The operation ends. -/
def mopEnd (s : State) (state code : Nat) : State := sstat (onMop s fun r => { r with state := state }) code

/-! ## The beginning (R396, R443) -/

/-- The retention of a version that refuses the operation. -/
def retainedCount (s : State) (clock : Nat) : Nat :=
  ((s.obj.objs.flatMap (·.versions)).filter fun v => v.state = .live ∧ retained v clock).length

/-- Audits and exports are cancelled, and requests of theirs that are open reply 08h. -/
def cancelAudits (s : State) : State :=
  { s with
    cyz.audit := none, cyz.exp := none,
    cyz.replies := s.cyz.replies.map fun r =>
      if ¬ r.final ∧ (r.group = 4 ∨ r.group = 5) then { r with status := 8, reason := 0, body := [], final := true, delivered := false } else r }

/-- Everything that names content which the operation removes ends. -/
def contentEnds (s : State) : State :=
  let s := frameAbortAll (cancelAudits s)
  let s := s.reqs.foldl (fun s r => abandonReq s r.id) s
  let s := (List.range 256).foldl endSession s
  let s := cacheFlush { s with cch.lockNext := [], cch.lines := s.cch.lines.map fun l => { l with locked := false } }
  { s with
    obj.objs := [], obj.streams := [], obj.damage := [], obj.damagedLeaves := [], zns.damage := [],
    zns.zones := s.zns.zones.map fun z => { (default : Zone) with resets := z.resets + bit (decide (z.state ≠ .empty)) },
    stg.leaves := [], stg.slots := [], stg.slotsCopy := [], stg.parity := [], ember.mram := [], ember.copies := [],
    wrt.queue := [], wrt.act := s.wrt.act.map fun w => { w with buffer := [], frame := none, verify := [], readback := [] },
    reqs := [], pwr.restore := false, pwr.restored := true,
    str := { s.str with groups := [], newGroups := [], relocPending := [], copy := none, ckpt := none, ckptAt := [], retiring := [], corner := [], stuck := [],
                        rebuilds := [], scrubDone := [], reflowShort := false } }

/-- Commands accepted after the operation's, and still waiting, meet it: 1Dh or 82h. -/
def refuseLater (s : State) (n : Nat) : State :=
  { s with host.ctxs := s.host.ctxs.map fun x =>
      if isIo x.2 ∧ n < x.2.accept ∧ x.2.phase = .accepted then
        (x.1, { x.2 with phase := .done ⟨0, if s.mop.sanitize then 0x1D else 0x82, 0, if isObject x.2 then x.2.accept % 2 ^ 32 else 0, []⟩ })
      else x }

/-- The operation begins its first stage, and its command completes. -/
def mediaBegin (s : State) (c : Nat) (x : Ctx) (op passes : Nat) (erase sanitize : Bool) (pattern : Word) : State :=
  let s := contentEnds s
  let s := { s with mop := ⟨⟨op, 1, 0, passes, 0, 0, s.hours, pattern⟩, erase, sanitize⟩ }
  let s := sstat (if erase then s else afterErase s) 2
  succeed (refuseLater s x.accept) c 0

/-- I/O commands accepted before the operation's that are not complete. -/
def ioBefore (s : State) (n : Nat) : Bool :=
  s.host.ctxs.any fun y => isIo y.2 && decide (y.2.accept < n) && (match y.2.phase with | .done _ => false | _ => true)

/-- SANITIZE: crypto erase, or overwrite in 1 to 16 passes; both end with a format. -/
def sanitize (s : State) (c : Fin 4096) : State :=
  onTurn s c (isAdmin 0x84) fun x =>
    let e := x.entry
    let act := dwBits e.dw10 2 0
    let p := dwBits e.dw10 7 4
    if (act ≠ 3 ∧ act ≠ 4) ∨ dwBits e.dw10 8 8 = 1 then invalidField s c
    else if formatting s then finish s c 0 0x82 0
    else if ioBefore s x.accept then s
    else
      let n := retainedCount s x.clock
      if n ≠ 0 ∧ s.sec.lc ≠ .decommissioned then refuse7 s c 0xF0 n
      else if act = 4 then mediaBegin s c x 1 0 true true 0
      else mediaBegin s c x 2 (if p = 0 then 16 else p) false true e.dw11

/-- FORMAT_NVM: the whole drive; SES 010b adds a crypto erase. -/
def formatNvm (s : State) (c : Fin 4096) : State :=
  onTurn s c (isAdmin 0x80) fun x =>
    let e := x.entry
    let ses := dwBits e.dw10 11 9
    if e.nsid ≠ 0xFFFFFFFF ∨ 2 < ses then invalidField s c
    else if formatting s then finish s c 0 0x82 0
    else if ioBefore s x.accept then s
    else
      let n := retainedCount s x.clock
      if n ≠ 0 ∧ s.sec.lc ≠ .decommissioned then refuse7 s c 0xF0 n
      else mediaBegin s c x (if ses = 2 then 4 else 3) 0 (decide (ses = 2)) false 0

/-! ## Progress (R442, R443) -/

/-- The overwrite has completed a ring. -/
def overwriteRing (s : State) : State :=
  let r := s.mop.rec_
  let s := match (allRings s)[r.ringsDone]? with | some x => ringWiped s x | none => s
  if r.ringsDone + 1 < r.ringsTotal then onMop s fun r => { r with ringsDone := r.ringsDone + 1 }
  else if r.pass < r.passes then sstat (onMop s fun r => { r with pass := r.pass + 1, ringsDone := 0 }) 2
  else formatStart s

/-- The index and ember rings are written: an index group is formed, and the cornerstone copies follow. -/
def cornersStart (s : State) : State := cornerRewrite (formGroup s .index none).1 (formatSurfaces s)

/-- The format has completed a ring, or cornerstone copies since the last time. -/
def formatRing (s : State) : State :=
  let r := s.mop.rec_
  let rs := formatRings s
  if rs.length ≤ r.ringsDone then
    let done := r.ringsTotal - cornerLeft s
    let s := onMop s fun r => { r with ringsDone := max r.ringsDone done }
    if cornerLeft s = 0 then mopEnd s 4 1 else s
  else
    let s := match rs[r.ringsDone]? with | some x => ringWiped s x | none => s
    let s := onMop s fun r => { r with ringsDone := r.ringsDone + 1 }
    if r.ringsDone + 1 = rs.length then cornersStart s else s

/-- MEDIA_OPERATION_PROGRESS: the present stage completes a ring or a step. `ok`: false when a ring cannot be written on any
head. -/
def mediaProgress (s : State) (ok : Bool) : State :=
  if s.pwr.banking ∨ s.flt.class3 then s
  else match s.mop.rec_.state with
    | 1 => if s.sec.drbgStopped then s else sstat (afterErase (rekeyAll s)) 2
    | 2 => if ok ∧ s.mop.rec_.ringsTotal ≠ 0 then overwriteRing s else mopEnd s 5 3
    | 3 => if ok ∧ (formatSurfaces s) ≠ [] ∧ (formatRings s) ≠ [] then formatRing s else mopEnd s 5 3
    | _ => s

end Sys2Proof.Machine
end

