-- ==== Sys2Proof/Machine/Power.lean ====
section
/-! DEFINITION. Margins, the banking sequence from its trials to its end, the restore, and the other events of power and
hearthstone (R464, R480 to R483, R511, R515 to R521, R569). -/
namespace Sys2Proof.Machine
open Sys2Proof

/-! ## Margins (R481, R511, R515, R517) -/

/-- The trial in progress, or passed, ends: the bucks return to the motor bus, the next trial follows 10 ms later. -/
def trialEnd (s : State) : State :=
  if s.pwr.trialAt.isSome ∨ s.pwr.trialPassed then
    { s with pwr.buckMotor := true, pwr.trialAt := none, pwr.trialPassed := false, pwr.trialNext := s.time + 10000 }
  else s

/-- MARGIN_WARN: a canary of an island (coded as WARN_ISL) warns. -/
def marginWarn (s : State) (isl : Fin 10) : State :=
  if ¬ s.pwr.powered then s
  else
    let s := { s with pwr.warn := true, pwr.warnIsl := BitVec.ofNat 4 isl, sec.opRetry := s.sec.opRetry || s.sec.op.isSome }
    let s := trialEnd s
    if s.flt.class3 then s else bankStart s .marginWarn

/-- MARGIN_WARN_CLEAR: every canary has agreed for 1 µs. -/
def marginWarnClear (s : State) : State :=
  if s.pwr.warn then { s with time := s.time + 1, pwr.warn := false, sec.opSince := s.time + 1 } else s

/-- MARGIN_LOST: a second-level canary of an island disagrees. It is tamper in the HOST or HEARTH island while hearthstone
runs an operation (R480, R583); a core reset follows. -/
def marginLost (s : State) (isl : Fin 10) (b : Boot) : State :=
  if ¬ s.pwr.powered then s
  else
    let s := ashRecord s 4 255 (.island isl) [isl]
    let s := if isl.val ≤ 1 ∧ s.sec.op.isSome ∧ ¬ s.sec.opRetry then tamperResponse s 2 else s
    coreReset s b

/-! ## VMOT (R208, R210, R517) -/

/-- VMOT_LOSS: the bus watch reports VMOT below 4.5 V; D4 regenerates. -/
def vmotLoss (s : State) : State :=
  if ¬ s.pwr.powered then s
  else
    let s := { s with
      pwr.vmotOk := false, spn.mode := if s.spn.mode = .closedLoop ∧ spnTurning s.spn.state then .regenerating else s.spn.mode }
    if s.flt.class3 then s else bankStart s .vmotLoss

/-- VMOT_RETURN: 5.0 V or more for 100 ms. -/
def vmotReturn (s : State) : State :=
  if ¬ s.pwr.powered ∨ s.pwr.vmotOk then s
  else { s with
    pwr.vmotOk := true, pwr.vmotLostNow := false, spn.mode := if s.spn.mode = .regenerating then .closedLoop else s.spn.mode }

/-! ## VIN trials (R517) -/

/-- The sequence runs trials: not after a fail-stop, and not once it ends by the third row with VIN not back. -/
def trialsRun (s : State) : Bool :=
  s.pwr.banking && decide (s.pwr.cause ≠ some .failStop) && !(s.pwr.notBack && decide (dirtyCount s = 0)) && !s.pwr.ending

/-- VIN_TRIAL: every 10 ms the buck input moves back to VIN. -/
def vinTrial (s : State) : State :=
  if ¬ trialsRun s ∨ s.pwr.trialAt.isSome ∨ s.pwr.trialPassed then s
  else
    let s := s.at s.pwr.trialNext
    { s with pwr.buckMotor := false, pwr.trialAt := some s.time }

/-- VIN_TRIAL_PASS: 10 ms on VIN without a warning. -/
def vinTrialPass (s : State) : State :=
  match s.pwr.trialAt with
  | some t => if s.pwr.warn then s else { s.at (t + 10000) with pwr.trialAt := none, pwr.trialPassed := true, pwr.passedOnce := true }
  | none => s

/-- Ember writes not yet begun are given up. -/
def emberStop (s : State) : State :=
  { s with
    wrt.queue := s.wrt.queue.filter fun j => j.leaf.kind ≠ .ember,
    wrt.act := s.wrt.act.map fun w => { w with buffer := w.buffer.filter fun j => j.1.leaf.kind ≠ .ember } }

/-- VIN_NOT_BACK: no trial has passed 500 ms from step 1. -/
def vinNotBack (s : State) : State :=
  if s.pwr.banking ∧ s.pwr.cause ≠ some .failStop ∧ ¬ s.pwr.passedOnce ∧ ¬ s.pwr.notBack then
    emberStop { s.at (s.pwr.startAt + 500000) with pwr.notBack := true }
  else s

/-! ## The end of a sequence (Table 18.2, R519) -/

/-- The user data rate of an actuator that holds an ember ring, at the speed of the sequence's start, in bits per second. -/
def emberRate (s : State) (a : Nat) : Qty :=
  match s.str.rings.find? fun r => r.2.role = .ember ∧ actOf r.1.1 = a ∧ headWrites s r.1.1 with
  | some r => match s.prof.geom[r.2.zone]? with
    | some z => (z.rate : Qty) * 1000000 * s.pwr.vStart / 7200 * 262144 / frameBits r.2.strength
    | none => 0
  | none => 0

/-- The hold-up ratio, after at least 1 MiB written to the ember rings with VMOT lost. -/
def holdupRatio (s : State) : State :=
  let rate := ((List.range 4).map (emberRate s)).foldl (· + ·) 0
  let bytes : Qty := 2 * (s.pwr.dirtyAtStart * 32768 : Nat)
  if s.pwr.vmotOk ∨ s.pwr.ringBytes < 1048576 ∨ rate = 0 then s
  else
    let need := (bitsOf s.reg.ck.pwrCfg 15 0 : Qty) * (bytes * 8 / rate)
    if need = 0 then s
    else
      let r := (kinetic s.prof s.pwr.vStart - kinetic s.prof s.spn.speed) / need
      let f := min 0xFFF (r * 256).floor.toNat
      let s := { s with pwr.ratioValid := true, pwr.ratio := BitVec.ofNat 12 f }
      if 13 / 10 < r then ashRecord s 0x44 255 .none [4, f] else s

/-- What every end of a sequence takes back up: calibrations abandoned, a table switch cancelled, and a patch that a Banking
trap cut, which is abandoned (R327, R331, R518). -/
def bankOver (s : State) : State :=
  let s := { s with
    pwr.banking := false, pwr.endedAt := s.time, pwr.cause := none, pwr.trialAt := none, pwr.ending := false,
    cal.running := s.pwr.calRedo, pwr.calRedo := 0, seq.switchReq := s.pwr.switchRedo, pwr.switchRedo := false }
  let s := if s.seq.switchReq then seqHolds s else s
  if s.seq.patchCut then patchAbandon s else s

/-- Row 1: recovered. -/
def bankRecovered (s : State) : State :=
  let s := noteHealth (bankOver (emberStop s)) .dip
  { s with pwr.wrHeld := false, pwr.buckMotor := false, pwr.outcome := 1, pwr.dips := satInc s.pwr.dips, pwr.trialPassed := false }

/-- The heads unload, and the spindle follows once they are parked. -/
def bankUnload (s : State) (why : Nat) : State :=
  let s := unloadAll s why
  if s.spn.state = .banked ∨ s.spn.bank = .decel ∨ s.spn.bank = .shorted then s
  else bankProgress { s with spn.bank := .unloading, spn.bankTimer := none }

/-- Row 2: VMOT lost, VIN kept. The drive stays in service, banked. -/
def bankVmotLost (s : State) : State :=
  bankUnload { bankOver s with
    pwr.wrHeld := false, pwr.buckMotor := false, pwr.outcome := 2, pwr.vmotLostNow := true, pwr.trialPassed := false } 2

/-- The logic stops; operating hours are kept. -/
def logicOff (s : State) : State := { s with pwr.hoursBase := s.hours, pwr.powered := false }

/-- Row 3: the heads are parked and the spindle is at rest, or coasts with VMOT lost: the bellows turns the bucks off. -/
def bucksOff (s : State) : State :=
  if allUnloaded s ∧ (s.spn.state = .banked ∨ (¬ s.pwr.vmotOk ∧ s.spn.mode = .highZ)) then
    logicOff { bankOver s with pwr.bucksOffAt := some s.time }
  else bankProgress s

/-- A fail-stop's sequence has every leaf durable: steps 5 and 6 of R493, unless a second class 3 fault has begun them. -/
def failStopEnd (s : State) : State :=
  let begun := s.flt.bankLimitDone
  let s := { bankOver s with flt.bankLimitDone := true }
  if begun then s else
  let s := (List.range 4).foldl (fun s a => if (engineOf s a).isNone then retractAct s a else s) s
  bankUnload s 1

/-- BANKING_SEQUENCE_END: the first row of Table 18.2 that holds. `vinLost`: VIN is lost. -/
def bankingSequenceEnd (s : State) (vinLost : Bool) : State :=
  let p := s.pwr
  let dirty := dirtyCount s
  if ¬ p.banking then s
  else if p.ending then bucksOff s
  else if p.cause = some .failStop then (if dirty = 0 then failStopEnd s else s)
  else if p.trialPassed ∧ p.vmotOk then bankRecovered (holdupRatio s)
  else if p.trialPassed ∧ dirty = 0 then bankVmotLost (holdupRatio s)
  else if p.notBack ∧ dirty = 0 then bucksOff (bankUnload { holdupRatio s with pwr.ending := true, pwr.trialAt := none } 2)
  else if vinLost ∧ ¬ p.vmotOk then
    if p.dest = .mram ∧ dirty = 0 then unloadAll { bankOver s with pwr.vmotLostNow := true } 2
    else if (s.spn.speed < 3600 ∧ (anyLoaded s ∨ (dirty ≠ 0 ∧ p.dest = .rings))) ∨ (p.startAt + 500000 ≤ s.time ∧ dirty ≠ 0) then
      logicOff (bankOver (retractAll (holdupRatio s)))
    else s
  else s

/-! ## The restore (R521) -/

/-- The restore's task. -/
def restoreTask : ReqId := 8186

/-- A leaf of an MRAM group read: its own words, or, where they are lost and no other member nor the parity is, the parity of
the rest (R15). `lost`: the members that cannot be read,
as the group and the member's place in it; the place after the last member is the parity's. -/
def mramRead (g : MramGroup) (lost : List (Nat × Nat)) (uid : Nat) : Option (List Byte) :=
  match g.leaves.zipIdx.find? fun x => x.1.uid = uid with
  | none => none
  | some (l, i) =>
    if (g.id, i) ∉ lost then some l.payload
    else if ((List.range (g.leaves.length + 1)).filter fun j => (g.id, j) ∈ lost) = [i] then
      some ((((g.leaves.eraseIdx i).foldl (fun p x => xorBytes p (padTo 32768 x.payload)) g.parity)).take l.payload.length)
    else none

/-- A kept leaf with its bytes again: from an ember leaf that was read, or from its MRAM group. -/
def restored (s : State) (got : List (Pos × Leaf)) (lost : List (Nat × Nat)) (l : StagedLeaf) : Option StagedLeaf :=
  match got.find? fun g => g.1 ∈ l.emberCopies with
  | some g => some { l with payload := (payloadOf g.2.coded).take l.validLen }
  | none => ((s.ember.mram.find? fun g => l.mramGroup = some g.id).bind fun g => mramRead g lost l.uid).map fun b => { l with payload := b }

/-- A restored leaf that nothing names any more: bytes that were never acknowledged. -/
def restoreNamed (s : State) (l : StagedLeaf) : Bool :=
  l.kind ≠ .data || l.place.isSome ||
    s.obj.slots.any (fun sl => sl.sess.any fun x => x.leaves.any fun r => r.uid = l.uid) ||
    s.zns.zones.any fun z => z.leaves.any fun r => r.uid = l.uid

/-- Step 3: the index is resolved, held commands run; home leaves are written. -/
def restoreIndex (s : State) (got : List (Pos × Leaf)) (mlost : List (Nat × Nat)) : State :=
  let back := s.ember.copies.map fun l => (l, restored s got mlost l)
  let leaves := (back.filterMap (·.2)).filter (restoreNamed s)
  let lost := back.filterMap fun b => if b.2.isNone then some b.1 else none
  let taken := leaves.foldl (fun g l => slotTake g l.uid l.payload) s.stg
  let s := { s with stg := { taken with leaves := leaves ++ s.stg.leaves }, ember.copies := [], pwr.restored := true }
  let s := leavesGone s ((s.stg.leaves.filter fun l => l.kind = .index).map (·.payload)) lost
  let s := (List.range 256).foldl (fun s n => match (s.obj.slots[n]?).bind (·.sess) with
    | some x => trimSession s n x
    | none => s) s
  forceLeaves s (leaves.map (·.uid))

/-- EMBER_RESTORE: the ember leaves are read once the spindle turns; the restore ends when their home leaves are verified.
`lost`: the MRAM leaves that cannot be read. -/
def emberRestore (s : State) (lost : List (Nat × Nat)) : State :=
  if ¬ s.pwr.restore ∨ s.flt.class3 then s
  else if s.pwr.restored then
    if s.stg.leaves.any emberKept then s else { mramPrune s with pwr.restore := false }
  else
    let want := (s.ember.copies.flatMap fun l => l.emberCopies.map fun p => (p, l.place)).dedup
    match reqBy s restoreTask with
    | some r =>
      if reqSettled r then
        restoreIndex { s with reqs := s.reqs.filter fun x => x.id ≠ restoreTask }
          (r.leaves.filterMap fun l => l.data.map fun d => (l.pos, d)) lost
      else s
    | none =>
      if want = [] then restoreIndex s [] lost
      else if spnTurning s.spn.state then fetchUnstriped s restoreTask .restore .ember want else s

/-! ## Hearthstone's events (R464, R480 to R483) -/

/-- SVN_FUSE_BLOW: the running image's SVN is blown after 1 h of operation. -/
def svnFuseBlow (s : State) : State :=
  match s.fw.running with
  | some i => if s.sec.svnFuses < i.svn ∧ s.fw.runningSince + 16 ≤ s.hours ∧ ¬ s.flt.class3 then { s with sec.svnFuses := i.svn } else s
  | none => s

/-- TAMPER_EDGE: an edge held low for 2 µs. One that arrives in a reset is latched by the EMBER island (R560). -/
def tamperEdge (s : State) (inReset : Bool) : State :=
  if inReset then { s with sec.tamperEdge := true } else if s.pwr.powered then tamperResponse s 1 else s

/-- HEARTHSTONE_OP_RETRY: the margins have been clean for 10 ms. -/
def hearthstoneOpRetry (s : State) : State :=
  if s.sec.opRetry ∧ ¬ s.pwr.warn ∧ ¬ s.pwr.banking then { s.at (s.sec.opSince + 10000) with sec.opRetry := false } else s

/-- ENTROPY_TEST_FAIL: the DRBG stops and the start-up test runs again; a second failure within 1 h is class 3. -/
def entropyTestFail (s : State) (startOk : Bool) : State :=
  let recent := s.sec.entropyFails.filter fun t => s.time < t + 3600000000
  let s := { s with sec.entropyFails := s.time :: recent, sec.drbgStopped := true }
  if ¬ recent.isEmpty ∨ ¬ startOk then failStop s 4 .hearthstone
  else if s.sec.drbg.isSome then drbgStart s else s

/-! ## Junctions (R8, R569) -/

/-- JUNCTION_SENSE: the hearth die and the bellows, in °C, every 10 ms. DESIGN CHOICE (log entry 117): the lower limit is grade I's
-40 °C (Table 21.5), as the spec does not say which grade this device is. -/
def junctionSense (s : State) (hearth bellows : Int) : State :=
  if ¬ s.pwr.powered then s
  else
    let s := s.at (s.pwr.junctionAt + 10000)
    let ok := decide (-40 ≤ hearth ∧ hearth ≤ 110 ∧ -40 ≤ bellows ∧ bellows ≤ 125)
    let was := s.pwr.junctionLo
    let s := { s with pwr.junctionAt := s.time, pwr.junctions := [hearth, bellows], pwr.junctionLo := ok }
    if ok = was then s else condition8 s 1

end Sys2Proof.Machine
end

