-- ==== Sys2Proof/Machine/Registers.lean ====
section
/-! DEFINITION. Register writes: decoding, the key, enable bits, consistency checks, the configuration CRC, and the registers
whose write starts something (R132, R277, R295, R297, R438, R439, R498, R506, R533 to R545). -/
namespace Sys2Proof.Machine
open Sys2Proof

/-! ## What exists (R534, R536, Table 19.1) -/

/-- A decoded offset names a register of a block. -/
def regExists (b o : Nat) : Bool :=
  decide (b < 20) &&
  (decide (0xFF0 ≤ o) || match b with
    | 0 => decide (o ≤ 8) | 1 => decide (o ≤ 4)
    | 2 => decide (o ∈ [0, 0x10, 0x20, 0x24, 0x28] ∨ (0x200 ≤ o ∧ o ≤ 0x2FC) ∨ (0x400 ≤ o ∧ o ≤ 0x4BC))
    | 3 => decide (o ≤ 4 ∨ (0x200 ≤ o ∧ o ≤ 0x2FC))
    | 4 => decide (o ∈ [4, 8, 0x10] ∨ (0x100 ≤ o ∧ o < 0xB00 ∧ o % 64 ≤ 0x34))
    | 5 => decide (o ∈ [0, 4, 0x10, 0x14])
    | 6 | 7 | 8 | 9 => decide (o ∈ [0x100, 0x108, 0x10C, 0x140, 0x144, 0x150, 0x180, 0x190, 0x194, 0x198, 0x300, 0x304] ∨
        (0x200 ≤ o ∧ o ≤ 0x2FC))
    | 10 | 15 => decide (o = 0)
    | 11 => decide ((o < 0x500 ∧ o % 256 ≤ 0xC) ∨ o = 0xF00 ∨ o = 0xF04)
    | 12 => decide ((o < 0xC00 ∧ o % 512 ∈ [0, 4, 8, 0x10, 0x14, 0x18, 0x1C]) ∨ o = 0xC00)
    | 13 => decide (o ∈ [0, 4, 0x10, 0x14, 0x18, 0x20, 0x24, 0x40] ∨ (0x80 ≤ o ∧ o ≤ 0xBC))
    | 14 | 17 => decide (o ≤ 8)
    | 16 => decide (o ∈ [0, 4, 0x10])
    | 18 => decide (o ∈ [0x100, 0x104, 0x108, 0x10C, 0x110, 0x114, 0x118, 0x120, 0x124, 0x128])
    | 19 => decide (o ≤ 0xC)
    | _ => false)

/-! ## CK registers (R544) -/

/-- A CK register given a word. -/
def ckPut (c : CkRegs) (b o : Nat) (w : Word) : CkRegs :=
  match b with
  | 2 => { c with hobCfg := w }
  | 3 => { c with cchCfg := w }
  | 5 => { c with grtCfg := w }
  | 6 | 7 | 8 | 9 => { c with syncCfg := vset c.syncCfg (b - 6) w }
  | 11 => { c with seqCfg := w }
  | 12 => if o % 512 = 0x10 then { c with ontrk := vset c.ontrk (o / 512) w } else { c with srvCfg := vset c.srvCfg (o / 512) w }
  | 13 => if o = 0 then { c with spnCfg0 := w } else if o = 4 then { c with spnCfg1 := w }
      else { c with curve := vset c.curve ((o - 0x80) / 4) w }
  | 14 => { c with pwrCfg := w }
  | 18 => if o = 0x100 then { c with cfgStripe := w } else if o = 0x104 then { c with cfgSpare := w } else { c with cfgZns := w }
  | _ => c

/-! ## Blocks (R537 to R543) -/

/-- A block's common registers. -/
def blkCtl (s : State) (b : Nat) : BlkCtl := vget s.reg.blk b {}
/-- They change. -/
def onBlk (s : State) (b : Nat) (f : BlkCtl → BlkCtl) : State := { s with reg.blk := vmod s.reg.blk b f }

/-- What a check found. -/
def chkSet (s : State) (b reason ofs : Nat) : State :=
  onBlk s b fun c => { c with chkReason := BitVec.ofNat 8 reason, chkOfs := BitVec.ofNat 12 ofs }

/-- The key is gone. -/
def keySpend (s : State) (b : Nat) : State := onBlk s b fun c => { c with armed := false }

/-- KEYLOCK written: C3A5h arms the key, any other value consumes it. -/
def keyWrite (s : State) (b : Nat) (w : Word) : State := onBlk s b fun c => { c with armed := decide (bitsOf w 15 0 = 0xC3A5) }

/-- EN set (R538). In HRT and STN it is read-only. -/
def enSet (s : State) (b : Nat) : State :=
  if b ≤ 1 then s
  else match blockCheck (checkIn s) b with
    | none => zonesExtend (chkSet (onBlk s b fun c => { c with en := true }) b 0 0xFFC)
    | some (o, r) => chkSet s b r o

/-- Another enabled block depends on a block. -/
def neededBy (s : State) (b : Nat) : Bool := (List.range 20).any fun d => (blkCtl s d).en && (depends d).contains b

/-- EN cleared (R540), judged by the key, the life-cycle state and the blocks that depend on it. -/
def enClear (s : State) (b : Nat) (armed : Bool) : State :=
  if b ≤ 1 ∨ ¬ (blkCtl s b).en then s
  else if ¬ armed then onBlk s b fun c => { c with keyMiss := true }
  else if s.sec.lc ≠ .factoryTest ∧ s.sec.lc ≠ .diagnostic then chkSet s b 6 0xFF0
  else if neededBy s b then chkSet s b 5 0xFF0
  else
    let s := onBlk s b fun c => { c with en := false, chkReason := 0, chkOfs := 0xFFC }
    if s.sec.lc = .diagnostic ∧ 6 ∉ s.pwr.condLost then condition8 { s with pwr.condLost := 6 :: s.pwr.condLost } 6 else s

/-! ## Writes that start something -/

/-- A CK field's new word: checked in an enabled block, stored, and the edit window opened (R439, R539). -/
def ckWrite (s : State) (b o : Nat) (w : Word) : State :=
  let new := ckPut s.reg.ck b o (w &&& ckMask b o)
  let store := fun (s : State) => zonesExtend { s with reg.ck := new, reg.editEnd := some (s.time + 10000000) }
  if ¬ (blkCtl s b).en then store s
  else match blockCheck { checkIn s with ck := new } b with
    | none => store (chkSet s b 0 0xFFC)
    | some (ofs, r) => chkSet s b r ofs

/-- ACTn_FLIP_CTL written (R132); ARM clears VALID of ACTn_FLIP_RES (R140). With MODE 10b or 11b and no ember ring on the head in
use there is no codeword to flip, and the range check refuses (DESIGN CHOICE, log entry 127). -/
def actFlipWrite (s : State) (n : Nat) (w : Word) : State :=
  let b := 6 + n
  let fields := w &&& 0x0CFFF000
  let put := fun (arm : Bool) (s : State) => { s with
    reg.flipCtl := vset s.reg.flipCtl n (if arm then fields ||| 0x80000000 else fields) }
  if ¬ w.getLsbD 31 then put false s
  else
    let mode := bitsOf w 27 26
    let span := bitsOf w 23 12
    let top := if mode = 1 then 263168 else match scratchRing s n with | some r => codeBits r.2.strength | none => 0
    if ¬ (blkCtl s b).en then chkSet (put false s) b 8 0x190
    else if mode = 0 ∨ span = 0 then chkSet (put false s) b 1 0x190
    else if top < flipPos s n + span then chkSet (put false s) b 4 0x190
    else chkSet { put true s with grt.flipRes := vmod s.grt.flipRes n fun x => x &&& 0x7FFFFFFF } b 0 0xFFC

/-- HOB_FLIP_CTL written (R277). -/
def hobFlipWrite (s : State) (w : Word) : State :=
  let fields := w &&& 0x00FF07FF
  if ¬ w.getLsbD 31 then { s with reg.hobFlip := fields }
  else
    let n := ((List.range 8).filter fun i => w.getLsbD (16 + i)).length + popCount (hobFlipMask s)
    if n = 0 then chkSet { s with reg.hobFlip := fields } 2 1 0x020
    else if 2 < n then chkSet { s with reg.hobFlip := fields } 2 0xA 0x020
    else chkSet { s with reg.hobFlip := fields ||| 0x80000000, hob.flipValid := false, hob.flipWritten := false } 2 0 0xFFC

/-- The TARGET of a KIND exists (R506). -/
def injTarget (w : Word) : Bool :=
  let t := bitsOf w 15 0
  match bitsOf w 30 28 with
  | 1 | 2 => decide (t < 384)
  | 3 | 4 => decide (t < 10)
  | 5 => decide (t < 2)
  | _ => false

/-- One error pair as the collector sees it, held in a state. -/
def pairHeld (t : Nat) (tv cv : Bool) : List PairSample := if h : t < 384 then [⟨⟨t, h⟩, tv, cv, tv, cv⟩] else []

/-- The fault that GO injects (R498). -/
def inject (s : State) (w : Word) (b : Boot) : State :=
  let t := bitsOf w 15 0
  let d := bitsOf w 23 16
  let s := ashRecord { s with flt.injEnd := if d = 0 then none else some (s.time + d) } 0x70 255 .none [w.toNat]
  match bitsOf w 30 28 with
  | 1 => errorPairReport s (pairHeld t true false)
  | 2 => errorPairReport s (pairHeld t true true)
  | 3 => marginWarn s (Fin.ofNat 10 t)
  | 4 => marginLost s (Fin.ofNat 10 t) b
  | 5 => if t < 2 then lockstepFault s t 1 else s
  | _ => s

/-- FLT_INJ_CTL written: only FACTORY_TEST admits it, judged first (R498); every field is WK (R543). -/
def injWrite (s : State) (armed : Bool) (w : Word) (b : Boot) : State :=
  let w := w &&& 0xF0FFFFFF
  if s.sec.lc ≠ .factoryTest then chkSet s 16 6 0x010
  else if w = s.reg.inj then s
  else if ¬ armed then onBlk s 16 fun c => { c with keyMiss := true }
  else if (blkCtl s 16).en ∧ ¬ injTarget w then chkSet s 16 0xA 0x010
  else
    let go := w.getLsbD 31 && !s.reg.inj.getLsbD 31
    let s := { s with reg.inj := if injTarget w then w else w &&& 0x7FFFFFFF }
    let s := if (blkCtl s 16).en then chkSet s 16 0 0xFFC else s
    if go ∧ injTarget w then inject s w b else s

/-- FAULT_INJECT_END: the DURATION is over; GO clears, and what was held returns. -/
def faultInjectEnd (s : State) : State :=
  match s.flt.injEnd with
  | none => s
  | some t =>
    let w := s.reg.inj
    let n := bitsOf w 15 0
    let s := { s.at t with flt.injEnd := none, reg.inj := w &&& 0x7FFFFFFF }
    match bitsOf w 30 28 with
    | 1 | 2 => errorPairReport s (pairHeld n false true)
    | 3 => marginWarnClear s
    | _ => s

/-- A flue channel's PAUSE, with the key (R297, R543). -/
def pauseWrite (s : State) (n : Nat) (armed p : Bool) (e : WriteEnv) : State :=
  if p = (fluAt s n).pause then s
  else if ¬ armed then onBlk s 4 fun c => { c with keyMiss := true }
  else pauseSet s n p e.left e.host

/-- SHD_VALID set (R295): the command whose data the list moves goes with it. -/
def shdWrite (s : State) (n : Nat) (e : WriteEnv) : State :=
  let was := (fluAt s n).shdValid
  let s := shdLoad s n
  if was ∨ (fluAt s n).reason ≠ 0 then s
  else match e.ctx with
    | some c => onFlu s n fun x => { x with ctx := some c.val }
    | none => s

/-- A register of a flue channel written. -/
def fluWrite (s : State) (n o : Nat) (armed : Bool) (w : Word) (e : WriteEnv) : State :=
  match o with
  | 0x00 =>
    let s := pauseWrite s n armed (w.getLsbD 31) e
    if w.getLsbD 30 then shdWrite s n e else s
  | 0x04 => onFlu s n fun c => { c with overrun := c.overrun && !w.getLsbD 29, descBad := c.descBad && !w.getLsbD 28 }
  | 0x34 => if (fluAt s n).shdValid then onFlu s n fun c => { c with overrun := true } else onFlu s n fun c => { c with shdDesc := w }
  | _ => s

/-! ## One write (R535, R536, R539, R543) -/

/-- A decoded offset of a block written; `armed`: the key was armed before it. -/
def regPut (s : State) (b o : Nat) (armed : Bool) (w : Word) (e : WriteEnv) : State :=
  if o = 0xFF0 then (if w.getLsbD 0 then enSet s b else enClear s b armed)
  else if o = 0xFF4 then (if w.getLsbD 31 then onBlk s b fun c => { c with keyMiss := false } else s)
  else if o = 0xFF8 then keyWrite s b w
  else if o = 0xFFC then s
  else if ckMask b o ≠ 0 then ckWrite s b o w
  else match b with
    | 2 => if o = 0x020 then hobFlipWrite s w else if o = 0x024 then { s with reg.hobMlo := w }
        else if o = 0x028 then { s with reg.hobMhi := w } else s
    | 4 => if 0x100 ≤ o then fluWrite s ((o - 0x100) / 64) (o % 64) armed w e else s
    | 6 | 7 | 8 | 9 => if o = 0x190 then actFlipWrite s (b - 6) w
        else if o = 0x194 then { s with reg.flipPos := vset s.reg.flipPos (b - 6) (w &&& 0x000FFFFF) } else s
    | 16 => if o = 0x010 then injWrite s armed w e.boot else s
    | _ => s

/-- The window a write comes through is there (R533, R342). -/
def portOpen (s : State) (p : Port) : Bool :=
  match p with
  | .bar2 => s.host.fundamental = .factoryTest || s.host.fundamental = .diagnostic
  | .hearth => true

/-- One 32-bit write to an offset of a block. Any write that reaches a register consumes the block's key (log entry 34). -/
def regWrite (s : State) (p : Port) (b o : Nat) (w : Word) (e : WriteEnv) : State :=
  let i := regDecode b o
  if ¬ portOpen s p ∨ ¬ regExists b i then s
  else regPut (keySpend s b) b i (blkCtl s b).armed w e

/-- Consecutive words written; the offsets run on within the block's 64 KiB, and into the next block (R534, R535). -/
def regWrites (p : Port) (e : WriteEnv) : State → Nat → List Word → State
  | s, _, [] => s
  | s, a, w :: ws => regWrites p e (regWrite s p (a / 65536) (a % 65536) w e) (a + 4) ws

/-- REGISTER_WRITE: words from an offset of a block; with fewer than four byte enables it is ignored. -/
def registerWrite (s : State) (p : Port) (b : Fin 256) (o : Fin 16384) (be : BitVec 4) (ws : List Word) (e : WriteEnv) : State :=
  if be = 15 then regWrites p e s (b.val * 65536 + o.val * 4) ws else s

/-! ## The rows with a behaviour of their own -/

/-- What a write without further context brings. -/
def noEnv : WriteEnv := ⟨0, [], none, default⟩

/-- EN_SET. -/
def enSetCmd (s : State) (p : Port) (b : Fin 20) : State := regWrite s p b 0xFF0 1 noEnv

/-- EN_CLEAR. -/
def enClearCmd (s : State) (p : Port) (b : Fin 20) : State := regWrite s p b 0xFF0 0 noEnv

/-- KEYLOCK_WRITE. -/
def keylockWrite (s : State) (p : Port) (b : Fin 20) (w : Word) : State := regWrite s p b 0xFF8 w noEnv

/-- SHD_VALID_WRITE: PAUSE as it stands, so that no key is asked for. -/
def shdValidWrite (s : State) (p : Port) (n : Fin 40) (c : Option (Fin 4096)) : State :=
  regWrite s p 4 (0x100 + 64 * n) (packFields [(31, 1, bit (fluAt s n).pause), (30, 1, 1)]) { noEnv with ctx := c }

/-- PAUSE_WRITE. -/
def pauseWriteCmd (s : State) (p : Port) (n : Fin 40) (on : Bool) (left : Nat) (host : List Byte) : State :=
  regWrite s p 4 (0x100 + 64 * n) (packFields [(31, 1, bit on)]) { noEnv with left := left, host := host }

/-- FLT_INJ_GO: KIND, DURATION and TARGET with GO. -/
def fltInjGo (s : State) (p : Port) (kind : Fin 8) (duration : Fin 256) (target : Fin 65536) (b : Boot) : State :=
  regWrite s p 16 0x010 (packFields [(31, 1, 1), (28, 3, kind), (16, 8, duration), (0, 16, target)]) { noEnv with boot := b }

/-- ACT_FLIP_ARM: MODE and SPAN with ARM. -/
def actFlipArm (s : State) (p : Port) (n : Fin 4) (mode : Fin 4) (span : Fin 4096) : State :=
  regWrite s p (6 + n) 0x190 (packFields [(31, 1, 1), (26, 2, mode), (12, 12, span)]) noEnv

/-- HOB_FLIP_ARM: CHECK_MASK and WORD with ARM. -/
def hobFlipArm (s : State) (p : Port) (check : BitVec 8) (word : Fin 2048) : State :=
  regWrite s p 2 0x020 (packFields [(31, 1, 1), (16, 8, check.toNat), (0, 11, word)]) noEnv

/-! ## Reads that capture -/

/-- A read through a window. -/
def regReadVia (s : State) (p : Port) (b o : Nat) : State := if portOpen s p then regReadTo s b o else s

/-- The blocks with a correctable-error log: HOB, CCH, ACT0 to ACT3. -/
def ceBlock (k : Fin 6) : Nat := [2, 3, 6, 7, 8, 9].getD k 2

/-- CE_LOG_WORD0_READ. -/
def ceLogWord0Read (s : State) (p : Port) (k : Fin 6) (i : Fin 16) : State := regReadVia s p (ceBlock k) (0x200 + 16 * i)

/-- DMP_STAT_READ. -/
def dmpStatRead (s : State) (p : Port) (n : Fin 6) : State := regReadVia s p 12 (512 * n)

/-! ## The configuration CRC's comparison (R439) -/

/-- EDIT_WINDOW_EXPIRE. -/
def editWindowExpire (s : State) : State :=
  match s.reg.editEnd with
  | some t => { s.at t with reg.editEnd := none }
  | none => s

/-- CONFIG_CRC_COMPARE: every 1 ms outside an edit window. `live`: the CRC found where the registers no longer hold what was
written to them; `again`: the CRC found after the reload, likewise. -/
def configCrcCompare (s : State) (live again : Option Word) : State :=
  if ¬ s.pwr.powered ∨ s.reg.editEnd.isSome then s
  else
    let s := s.at (s.reg.lastCompare + 1000)
    let s := { s with reg.lastCompare := s.time }
    let found := live.getD (ckCrc s.reg.ck)
    if found = s.reg.crcRef then s
    else
      let ck := s.reg.overlay.getD s.reg.profCk
      let s := fault2 s .configStore 0x10 [found.toNat, s.reg.crcRef.toNat]
      let s := { s with reg.ck := ck, reg.reloads := satAdd 0xFF s.reg.reloads 1 }
      if again.getD (ckCrc ck) = s.reg.crcRef then s else failStop s 3 .configStore

end Sys2Proof.Machine
end

