-- ==== Sys2Proof/Machine/Cyzon.lean ====
section
/-! DEFINITION. Cyzon packets, tags and authorization, and the operations on identity, health, profiles, registers and the
configuration (R103, R131, R426 to R441). -/
namespace Sys2Proof.Config
open Sys2Proof Sys2Proof.Machine

/-! Cyzon parameters whose places within a body are not stated: none where the body spells none. -/

/-- IRATE_MEASURE: surface and zone. -/
opaque cyzHeadZone : List Byte → Option (Nat × Nat)
/-- CHECKER_TEST: actuator, ACTn_FLIP_CTL, ACTn_FLIP_POS. -/
opaque cyzTest : List Byte → Option (Fin 4 × Word × Word)
/-- REG_READ: block, offset, count. -/
opaque cyzRegRead : List Byte → Option (Nat × Nat × Nat)
/-- REG_WRITE: block, offset, value, KEYED. -/
opaque cyzRegWrite : List Byte → Option (Nat × Nat × Word × Bool)
/-- The IDENTIFY reply: serial, life-cycle code, BASE, PATCH, profile version, receipt format version. -/
opaque cyzIdentity : List Byte → Nat → Nat → Nat → Nat → Nat → List Byte

end Sys2Proof.Config

namespace Sys2Proof.Machine
open Sys2Proof

/-! ## Packets and replies (R426 to R430) -/

/-- A request: its path, the context of its Cyzon Send on the NVMe path, TAG, GROUP and OP. -/
structure CyzIn where
  mctp : Bool
  ctx : Option Nat
  tag : Nat
  group : Nat
  op : Nat

/-- VERSION, LENGTH and CRC are right and the body fits the path. -/
def pktOk (mctp : Bool) (pkt : List Byte) : Bool :=
  decide (16 ≤ pkt.length ∧ pkt.getD 0 0 = 1 ∧ leNat (slice pkt 8 4) = pkt.length - 16 ∧
    pkt.length - 16 ≤ (if mctp then 4080 else 65520) ∧
    leNat (slice pkt 12 4) = (crc32c (pkt.take 12 ++ zeroBytes 4 ++ pkt.drop 16)).toNat)

/-- Table 15.3: GROUP, OP, exclusive, authorized. -/
def cyzOps : List (Nat × Nat × Bool × Bool) :=
  [(0, 0, false, false), (0, 1, false, false), (1, 0, false, false), (1, 1, false, false), (1, 2, false, false),
   (2, 0, true, false), (2, 1, true, true), (2, 2, true, true), (2, 3, false, false), (2, 4, false, true), (3, 0, false, false),
   (4, 0, true, false), (4, 1, false, false), (4, 2, false, false), (4, 3, false, false), (4, 4, false, false), (4, 5, false, true),
   (5, 0, true, false), (5, 1, false, false), (5, 2, false, false), (6, 0, false, false)]

/-- A reply packet (Table 15.1). -/
def replyPacket (r : CyzonReply) : List Byte :=
  let head := [1, BitVec.ofNat 8 r.group, BitVec.ofNat 8 r.op, 1] ++ leBytes 2 r.tag ++ leBytes 1 r.status ++ leBytes 1 r.reason ++
    leBytes 4 r.body.length
  head ++ leBytes 4 (crc32c (head ++ zeroBytes 4 ++ r.body)).toNat ++ r.body

/-- DW0 of a Cyzon Send. -/
def cyzDw0 (q : CyzIn) (status reason : Nat) : Nat := status + 256 * reason + 65536 * q.tag

/-- A request answered without opening its tag: a bad packet, an unknown operation, a busy path, a tag in use. -/
def cyzRefuse (s : State) (q : CyzIn) (status : Nat) : State :=
  match q.ctx with
  | some c => succeed s c (cyzDw0 q status 0)
  | none => { s with cyz.sent := some ⟨true, q.tag, q.group, q.op, status, 0, [], true, true⟩ }

/-- Replies of other tags. -/
def otherReplies (s : State) (mctp : Bool) (tag : Nat) : List CyzonReply :=
  s.cyz.replies.filter fun r => ¬ (r.mctp = mctp ∧ r.tag = tag)

/-- A request answered. On the NVMe path the reply is held and its tag open until Cyzon Receive; on MCTP it goes out at once,
and only one that is not final leaves its tag open. -/
def cyzReply (s : State) (q : CyzIn) (status reason : Nat) (body : List Byte) (final : Bool) : State :=
  let reason := if status = 2 ∨ status = 9 then reason else 0
  let r : CyzonReply := ⟨q.mctp, q.tag, q.group, q.op, status, reason, body, final, q.mctp⟩
  let rest := otherReplies s q.mctp q.tag
  let open' := s.cyz.open_.filter (· ≠ (q.mctp, q.tag))
  match q.ctx with
  | some c => succeed { s with cyz.replies := r :: rest, cyz.open_ := (q.mctp, q.tag) :: open' } c (cyzDw0 q status reason)
  | none => { s with
      cyz.sent := some r, cyz.replies := if final then rest else r :: rest,
      cyz.open_ := if final then open' else (q.mctp, q.tag) :: open' }

/-- A request answered: the state, and that it has been. -/
def answer (s : State) (q : CyzIn) (status reason : Nat) (body : List Byte := []) (final : Bool := true) : State × Bool :=
  (cyzReply s q status reason body final, true)

/-- The reply of an operation in progress changes. -/
def cyzUpdate (s : State) (mctp : Bool) (tag status reason : Nat) (body : List Byte) (final : Bool) : State :=
  { s with cyz.replies := s.cyz.replies.map fun r =>
      if r.mctp = mctp ∧ r.tag = tag ∧ ¬ r.final then
        { r with status := status, reason := reason, body := body, final := final, delivered := false } else r }

/-- A final reply has been delivered: its tag is closed. -/
def cyzClose (s : State) (mctp : Bool) (tag : Nat) : State :=
  { s with cyz.replies := otherReplies s mctp tag, cyz.open_ := s.cyz.open_.filter (· ≠ (mctp, tag)) }

/-- The reply held for a tag. -/
def heldReply (s : State) (mctp : Bool) (tag : Nat) : Option CyzonReply := s.cyz.replies.find? fun r => r.mctp = mctp ∧ r.tag = tag

/-! ## Authorization (R432) -/

/-- The counter and the parameters of a packet whose authorization block is accepted. -/
def authOk (s : State) (pkt : List Byte) : Option (Nat × List Byte) :=
  let b := pkt.drop 16
  let seq := leNat (slice b 0 8)
  let n := leNat (slice b 8 2)
  let o := 16 + (n + 7) / 8 * 8
  let params := b.drop o
  match s.sec.integrator with
  | some k =>
    if n = 0 ∨ 1280 < n ∨ b.length < o ∨ seq ≤ s.sec.authSeq then none
    else if Config.falconVerify k (shake256 (pkt.take 12 ++ b.take 8 ++ params) 64) (slice b 16 n) then some (seq, params) else none
  | none => none

/-! ## One request -/

/-- An exclusive operation runs: an audit, or a profile activation that is held. -/
def exclusiveRuns (s : State) : Bool := s.cyz.audit.isSome || s.cyz.held.isSome

/-- A packet meant for one operation: the checks of Table 15.2, then the operation on its parameters. `go` answers the state and
whether the request has been answered; one that waits is asked again. -/
def cyzGo (s : State) (ctx : Option Nat) (pkt : List Byte) (g o : Nat) (go : State → CyzIn → List Byte → State × Bool) : State :=
  let q : CyzIn := ⟨ctx.isNone, ctx, leNat (slice pkt 4 2), leNat (slice pkt 1 1), leNat (slice pkt 2 1)⟩
  if ¬ pktOk q.mctp pkt then cyzRefuse s q 3
  else match cyzOps.find? fun x => x.1 = q.group ∧ x.2.1 = q.op with
    | none => cyzRefuse s q 4
    | some (_, _, excl, auth) =>
      if q.group ≠ g ∨ q.op ≠ o then s
      else if (q.mctp, q.tag) ∈ s.cyz.open_ then cyzRefuse s q 0xA
      else if 16 ≤ (s.cyz.open_.filter fun t => t.1 = q.mctp).length ∨ excl ∧ exclusiveRuns s then cyzRefuse s q 5
      else if ¬ (pkt.getD 3 0).getLsbD 1 then (if auth then cyzReply s q 6 0 [] true else (go s q (pkt.drop 16)).1)
      else match authOk s pkt with
        | none => cyzReply s q 6 0 [] true
        | some (seq, params) =>
          let r := go { s with sec.authSeq := seq } q params
          if r.2 then r.1 else { r.1 with sec.authSeq := s.sec.authSeq }

/-- A request on either path; on the NVMe path in the context of its Cyzon Send. -/
def cyzonRun (s : State) (p : CyzonPath) (pkt : List Byte) (g o : Nat) (go : State → CyzIn → List Byte → State × Bool) : State :=
  match p with
  | .mctp => cyzGo s none pkt g o go
  | .nvme c => onTurn s c (isAdmin 0xC0) fun x =>
      let n := x.entry.dw10.toNat
      cyzGo s (some c) (padTo n (pkt.take n)) g o go

/-- An operation that needs parameters: a body that spells none is a bad packet (its LENGTH is wrong). -/
def withParams {α : Type} (s : State) (q : CyzIn) (x : Option α) (f : α → State × Bool) : State × Bool :=
  match x with
  | some a => f a
  | none => answer s q 3 0

/-- CYZON_RECEIVE: the latest reply for the TAG; a final one closes its tag. -/
def cyzonReceive (s : State) (c : Fin 4096) : State :=
  onTurn s c (isAdmin 0xC1) fun x =>
    let n := x.entry.dw10.toNat
    let tag := dwBits x.entry.dw11 15 0
    match heldReply s false tag with
    | some r =>
      let b := replyPacket r
      if n < b.length then invalidField s c
      else succeed (if r.final then cyzClose s false tag else s) c 0 b
    | none =>
      let b := replyPacket ⟨false, tag, 0, 0, 7, 0, [], true, true⟩
      if n < b.length then invalidField s c else succeed s c 0 b

/-- RESULT: the latest reply for the tag in body bytes 0 and 1; a final one closes its tag. -/
def cyzResult (s : State) (p : CyzonPath) (pkt : List Byte) : State :=
  cyzonRun s p pkt 0 0 fun s q b =>
    if b.length < 2 then answer s q 3 0
    else
      let tag := leNat (slice b 0 2)
      match heldReply s q.mctp tag with
      | some r => answer (if r.final then cyzClose s q.mctp tag else s) q r.status r.reason r.body
      | none => answer s q 7 0

/-- IDENTIFY. -/
def cyzIdentify (s : State) (p : CyzonPath) (pkt : List Byte) : State :=
  cyzonRun s p pkt 0 1 fun s q _ =>
    answer s q 0 0 (Config.cyzIdentity s.sec.serial (lcCode s.sec.lc) s.seq.masterBase.toNat s.seq.masterPatch.toNat s.prof.pversion 1)

/-! ## Health (R433, Table 15.4) -/

/-- The 80 bytes of the health reply. -/
def healthBody (s : State) : List Byte :=
  let reg := fun (b o : Nat) => leBytes 4 (regPeek s b o).toNat
  leBytes 1 (lcCode s.sec.lc) ++ leBytes 1 (bit s.cal.ok) ++ leBytes 1 s.flt.worst.toNat ++
    leBytes 1 (if s.flt.prior = 0 then 0 else 1 + 2 * (s.flt.prior % 8)) ++
    reg 13 0x040 ++ reg 13 0x010 ++ reg 13 0x014 ++ reg 13 0x018 ++ reg 18 0x110 ++ reg 18 0x114 ++
    ((List.range 4).flatMap fun n => reg (6 + n) 0x140 ++ reg (6 + n) 0x144) ++
    leBytes 4 s.hours ++ leBytes 4 s.pwr.cycles ++ leBytes 4 (damageCount s) ++ reg 5 0x004 ++ zeroBytes 4

/-- HEALTH. -/
def cyzHealth (s : State) (p : CyzonPath) (pkt : List Byte) : State :=
  cyzonRun s p pkt 1 0 fun s q _ => answer s q 0 0 (healthBody s)

/-- IRATE_MEASURE: made from the capture of the head and zone, once it is whole and meets the conditions of R103. -/
def irateMeasure (s : State) (p : CyzonPath) (pkt : List Byte) : State :=
  cyzonRun s p pkt 1 1 fun s q b =>
    withParams s q (Config.cyzHeadZone b) fun (surface, zone) =>
      let a := actOf surface
      match if (chanAt s a).loaded = some (surface, zone) then irateTake s a else none with
      | none => (s, false)
      | some s => answer s q 0 0 (leBytes 4 (irate0 s a).toNat ++ leBytes 4 (irate1 s a).toNat)

/-- CHECKER_TEST: the test is armed; its reply is final once it has run. -/
def checkerTest (s : State) (p : CyzonPath) (pkt : List Byte) : State :=
  cyzonRun s p pkt 1 2 fun s q b =>
    withParams s q (Config.cyzTest b) fun (n, ctl, pos) =>
      let t := actFlipWrite { s with reg.flipPos := vset s.reg.flipPos n (pos &&& 0x000FFFFF) } n (ctl ||| 0x80000000)
      if (vget t.reg.flipCtl n 0).getLsbD 31 then
        answer { t with cyz.tests := t.cyz.tests ++ [(n.val, q.mctp, q.tag)] } q 1 0 [] false
      else answer t q 2 (blkCtl t (6 + n)).chkReason.toNat

/-- CHECKER_TEST_RUN, with the reply to the request that armed it. -/
def checkerRun (s : State) (a : Fin 4) (soft : Option (List Soft)) (dead : Bool) (grate : Fin 14) : State :=
  let armed := (vget s.reg.flipCtl a 0).getLsbD 31
  let s := checkerTestRun s a soft dead grate
  if armed ∧ ¬ (vget s.reg.flipCtl a 0).getLsbD 31 then
    let s := (s.cyz.tests.filter fun t => t.1 = a.val).foldl
      (fun s t => cyzUpdate s t.2.1 t.2.2 0 0 (leBytes 4 (vget s.grt.flipRes a 0).toNat) true) s
    { s with cyz.tests := s.cyz.tests.filter fun t => t.1 ≠ a.val }
  else s

/-! ## Profiles (R435 to R437) -/

/-- PROFILE_LOAD: an offset, 4 reserved bytes and a chunk. -/
def profileLoad (s : State) (p : CyzonPath) (pkt : List Byte) : State :=
  cyzonRun s p pkt 2 0 fun s q b =>
    if b.length < 8 then answer s q 3 0
    else if 2 ^ 20 < leNat (slice b 0 4) + (b.length - 8) then answer s q 2 4
    else answer { s with cyz.stage := memWrite s.cyz.stage (leNat (slice b 0 4)) (b.drop 8) } q 0 0

/-- The staged file, as long as its header and its signature block make it. -/
def stagedFile (s : State) : List Byte :=
  let m := s.cyz.stage
  let o := leNat (memRead m 20 4)
  memRead m 0 (min (2 ^ 20) (o + 8 + leNat (memRead m o 2)))

/-- What the check of R436 finds: reason and reply body; reason 0 accepts the staged file. -/
def profileVerdict (s : State) : Nat × List Byte :=
  let f := stagedFile s
  if ¬ profHeadOk f ∨ ¬ profSigOk s f ∨ profVersion f ≤ profVersion (vget s.cyz.slots s.cyz.slot []) then (9, [])
  else match profOf f with
    | none => (9, [])
    | some (pr, ck) =>
      match checkAll { checkIn s with ck := ck, prof := pr } with
      | some (b, o, r) => (r, leBytes 1 b ++ zeroBytes 1 ++ leBytes 2 o ++ leBytes 4 (Config.profOffset b o r))
      | none => (0, [])

/-- The staged profile is checked, and written to the inactive slot, which the slot pointer then names. -/
def profileSwitch (s : State) : State × Nat × List Byte :=
  let v := profileVerdict s
  if v.1 = 0 then
    let f := stagedFile s
    (ashRecord { s with cyz.slots := vset s.cyz.slots (1 - s.cyz.slot) f, cyz.slot := 1 - s.cyz.slot } 0x11 255 .none [profVersion f], v)
  else (s, v)

/-- A banking sequence or a firmware activation holds an activation. -/
def activateHeld (s : State) : Bool := s.pwr.banking || s.fw.act.isSome

/-- PROFILE_ACTIVATE. -/
def profileActivate (s : State) (p : CyzonPath) (pkt : List Byte) : State :=
  cyzonRun s p pkt 2 1 fun s q _ =>
    if activateHeld s then
      answer { s with cyz.held := some ⟨if q.mctp then .mctp else .nvme (q.ctx.getD 0), q.tag⟩ } q 1 0 [] false
    else match profileSwitch s with
      | (s, r, body) => answer s q (if r = 0 then 0 else 2) r body

/-- PROFILE_ACTIVATE_RESUME: an activation that was held proceeds. -/
def profileActivateResume (s : State) : State :=
  match s.cyz.held with
  | some h =>
    if activateHeld s then s
    else match profileSwitch { s with cyz.held := none } with
      | (s, r, body) => cyzUpdate s (decide (h.path = .mctp)) h.tag (if r = 0 then 0 else 2) r body true
  | none => s

/-! ## Registers and the commit (R438 to R440) -/

/-- COMMIT: EXPECT equals the present CRC; the overlay and the reference are stored and the edit window closes. -/
def cyzCommit (s : State) (p : CyzonPath) (pkt : List Byte) : State :=
  cyzonRun s p pkt 2 2 fun s q b =>
    if b.length < 4 then answer s q 3 0
    else if BitVec.ofNat 32 (leNat (slice b 0 4)) ≠ ckCrc s.reg.ck then answer s q 2 7
    else
      answer (m4Extend { s with
        reg.overlay := if s.reg.ck = s.reg.profCk then none else some s.reg.ck,
        reg.crcRef := ckCrc s.reg.ck, reg.editEnd := none }) q 0 0

/-- Consecutive words read; the captures that the reads make stay. -/
def regWords : Nat → State → Nat → Nat → State × List Byte
  | 0, s, _, _ => (s, [])
  | n + 1, s, b, o =>
    let r := regRead s b o
    let t := regWords n r.1 b (o + 4)
    (t.1, leBytes 4 r.2.toNat ++ t.2)

/-- REG_READ: 1 to 256 words of one block. -/
def cyzRegRead (s : State) (p : CyzonPath) (pkt : List Byte) : State :=
  cyzonRun s p pkt 2 3 fun s q b =>
    withParams s q (Config.cyzRegRead b) fun (blk, o, n) =>
      if n = 0 then answer s q 2 1
      else if 256 < n then answer s q 2 4
      else if o % 4 ≠ 0 then answer s q 2 3
      else match regWords n s blk o with
        | (s, words) => answer s q 0 0 words

/-- One register written, keyed or not, with the reason code of the check that the write has run; FFh where it ran none. -/
def regWriteReason (s : State) (b o : Nat) (w : Word) (keyed : Bool) : State × Nat :=
  let old := (blkCtl s b).chkReason
  let s := if keyed then regWrite s .hearth b 0xFF8 0xC3A5 noEnv else s
  let s := regWrite (onBlk s b fun c => { c with chkReason := 0xFF }) .hearth b o w noEnv
  let r := (blkCtl s b).chkReason
  if r = 0xFF then (onBlk s b fun c => { c with chkReason := old }, 0xFF) else (s, r.toNat)

/-- REG_WRITE: in PROVISIONED, DEPLOYED and DIAGNOSTIC. -/
def cyzRegWrite (s : State) (p : CyzonPath) (pkt : List Byte) : State :=
  cyzonRun s p pkt 2 4 fun s q b =>
    withParams s q (Config.cyzRegWrite b) fun (blk, o, w, keyed) =>
      if s.sec.lc ≠ .provisioned ∧ s.sec.lc ≠ .deployed ∧ s.sec.lc ≠ .diagnostic then answer s q 2 6
      else if o % 4 ≠ 0 then answer s q 2 3
      else match regWriteReason s blk o w keyed with
        | (s, r) => if r = 0 ∨ r = 0xFF then answer s q 0 0 else answer s q 2 r

/-- MEDIA_PROGRESS: the record of Table 15.5. -/
def cyzMediaProgress (s : State) (p : CyzonPath) (pkt : List Byte) : State :=
  cyzonRun s p pkt 3 0 fun s q _ =>
    let r := s.mop.rec_
    answer s q 0 0 (leBytes 1 r.op ++ leBytes 1 r.state ++ leBytes 1 r.pass ++ leBytes 1 r.passes ++ leBytes 4 r.ringsDone ++
      leBytes 4 r.ringsTotal ++ leBytes 4 r.startHours ++ leBytes 4 r.pattern.toNat ++ zeroBytes 4)

end Sys2Proof.Machine
end

