-- ==== Sys2Proof/Machine/Fixity.lean ====
section
/-! DEFINITION. Fixity audits, scrub passes, pins, holds cleared through Cyzon, the export container and the log reader (R130,
R284, R431, R432, R444 to R453, R503). -/
namespace Sys2Proof.Config
open Sys2Proof Sys2Proof.Machine

/-! Cyzon parameters and replies whose places are not stated. -/

/-- AUDIT_START: scope, and KEEP. -/
opaque cyzAudit : List Byte → Option (Scope × Bool)
/-- AUDIT_SUMMARY: true with an AUDIT_ID, false with a KIND. -/
opaque cyzSummary : List Byte → Option (Bool × Nat)
/-- HOLD_CLEAR names every version of the key. -/
opaque cyzHoldAll : List Byte → Bool
/-- EXPORT_OPEN: a scope, or RESUME with an EXPORT_ID. -/
opaque cyzExport : List Byte → Option (Sum Scope Nat)
/-- LOG_READ: true for the health log; the first sequence number and a count. -/
opaque cyzLog : List Byte → Option (Bool × Nat × Nat)
/-- The body of AUDIT_START's reply: versions checked so far, AUDIT_ID. -/
opaque cyzAuditReply : Nat → Nat → List Byte
/-- The body of EXPORT_OPEN's reply: EXPORT_ID. -/
opaque cyzExportReply : Nat → List Byte
/-- SCOPE_ARG of a zone range. -/
opaque zoneRangeArg : Nat → Nat → List Byte

end Sys2Proof.Config

namespace Sys2Proof.Machine
open Sys2Proof

/-! ## A place in the acceptance order (R431) -/

/-- The next acceptance number, when every command accepted before it has taken its effect. -/
def takePlace (s : State) : Option (Nat × State) :=
  let n := s.host.accept
  if orderClear s n ∧ s.pwr.restored then
    some (n, { s with
      host.accept := n + 1, host.ceiling := if s.host.ceiling ≤ n + 1 then s.host.ceiling + 2 ^ 20 else s.host.ceiling })
  else none

/-- An operation that takes its place first; it waits until it can. -/
def atPlace (s : State) (f : Nat → State → State × Bool) : State × Bool :=
  match takePlace s with
  | some (n, t) => f n t
  | none => (s, false)

/-- Key and VERSION of a body that names a key. -/
def keyBody (b : List Byte) : Option (List Byte × Nat) :=
  let n := (b.getD 0 0).toNat
  if b.length < 8 + n ∨ n = 0 then none else some (slice b 8 n, leNat (slice b 4 4))

/-! ## Pins (R284, R450) -/

/-- Versions in the pin list. -/
def pins (s : State) : Nat := ((s.obj.objs.flatMap (·.versions)).filter (·.pinned)).length

/-- PIN. -/
def pinVersion (s : State) (p : CyzonPath) (pkt : List Byte) : State :=
  cyzonRun s p pkt 4 3 fun s q b =>
    withParams s q (keyBody b) fun (key, no) => atPlace s fun _ s =>
      match resolve s key no true with
      | .error _ => answer s q 2 1
      | .ok (o, v) =>
        if v.pinned then answer s q 0 0
        else if 64 ≤ pins s then answer s q 2 4
        else answer ((versionPlaces s v).foldl (fun s p => cacheLock s p.1 p.2)
          (onVersion s o.key v.no fun v => { v with pinned := true })) q 0 0

/-- UNPIN. -/
def unpinVersion (s : State) (p : CyzonPath) (pkt : List Byte) : State :=
  cyzonRun s p pkt 4 4 fun s q b =>
    withParams s q (keyBody b) fun (key, no) => atPlace s fun _ s =>
      match resolve s key no false with
      | .error _ => answer s q 2 1
      | .ok (o, v) =>
        if v.pinned then
          answer ((versionPlaces s v).foldl (fun s p => cacheUnlock s p.1 p.2)
            (onVersion s o.key v.no fun v => { v with pinned := false })) q 0 0
        else answer s q 0 0

/-- The versions that a HOLD_CLEAR names: all the live ones of a key, or one. -/
def holdNamed (s : State) (key : List Byte) (no : Nat) (all : Bool) : Option (Obj × List Version) :=
  if all then (objBy s key).map fun o => (o, o.versions.filter fun v => v.state = .live)
  else match resolve s key no true with
    | .ok (o, v) => some (o, [v])
    | .error _ => none

/-- A HOLD_CLEAR in its place: state records as Hold writes them; RETAIN_UNTIL stays. -/
def holdCleared (s : State) (q : CyzIn) (key : List Byte) (no : Nat) (all : Bool) : State × Bool :=
  atPlace s fun n s => match holdNamed s key no all with
    | none => answer s q 2 1
    | some (o, vs) =>
      answer ((vs.filter (·.hold)).foldl (fun s v =>
        stateWrite (onVersion s o.key v.no fun v => { v with hold := false }) o { v with hold := false } (n + 1)) s) q 0 0

/-- HOLD_CLEAR: its records wait for the dirty limit. -/
def holdClear (s : State) (p : CyzonPath) (pkt : List Byte) : State :=
  cyzonRun s p pkt 4 5 fun s q b =>
    withParams s q (keyBody b) fun (key, no) =>
      let t := holdCleared s q key no (Config.cyzHoldAll b)
      if admits s t.1 then t else (if s.pwr.wrHeld then s else writeHome s, false)

/-! ## What an audit or an export covers (R444) -/

/-- The live versions of keys. -/
def verItems (s : State) (p : List Byte → Bool) : List Item :=
  (s.obj.objs.filter fun o => p o.key).flatMap fun o => (o.versions.filter fun v => v.state = .live).map fun v => ⟨o.key, o.id, v.no, none⟩

/-- Zones that have a zone record, as versions. -/
def zoneItems (s : State) (first last : Nat) : List Item :=
  ((List.range s.zns.zones.length).filter fun z => first ≤ z ∧ z ≤ last ∧ (zoneBy s z).recordWseq ≠ 0).map
    fun z => ⟨zoneKey z, 2 ^ 63 + z, (zoneBy s z).resets + 1, some z⟩

/-- Ascending key and version order. -/
def itemLe (a b : Item) : Bool := keyLt a.key b.key || (a.key == b.key && decide (a.version ≤ b.version))

/-- The versions of a scope that are live now. -/
def scopeItems (s : State) (sc : Scope) : List Item :=
  sortBy itemLe (match sc with
   | .all => verItems s (fun _ => true) ++ zoneItems s 0 s.zns.zones.length
   | .keyPrefix p => verItems s fun k => k.take p.length == p
   | .one key no => match resolve s key no true with
     | .ok (o, v) => [⟨key, o.id, v.no, none⟩]
     | .error _ => []
   | .zones a b => zoneItems s a b)

/-- SCOPE. -/
def scopeCode : Scope → Nat
  | .all => 0 | .keyPrefix _ => 1 | .one _ _ => 2 | .zones _ _ => 3

/-- SCOPE_ARG, 256 bytes. -/
def scopeArg : Scope → List Byte
  | .all => zeroBytes 256
  | .keyPrefix p => padTo 256 (p.take 256)
  | .one key _ => padTo 256 (key.take 256)
  | .zones a b => padTo 256 ((Config.zoneRangeArg a b).take 256)

/-- The version that an item names; a zone's is what its newest record says (R417). None where the zone has been reset. -/
def itemVersion (s : State) (i : Item) : Option Version :=
  match i.zone with
  | none => versionById s i.objectId i.version
  | some z =>
    let x := zoneBy s z
    if x.recordWseq = 0 ∨ x.resets + 1 ≠ i.version then none
    else some
      { no := i.version, state := .live, lrange := 0, hold := false, retain := 0, hours := x.recHours, length := x.recLen,
        digest := shake256 (x.absorbed.take x.recLen) 64,
        extents := refExtents s (x.leaves.take ((x.recLen + 32767) / 32768)), wseq := x.recordWseq, damaged := !x.damaged.isEmpty, pinned := false }

/-- Its plaintext cannot be formed: a range of it is read-locked. -/
def itemLocked (s : State) (i : Item) (v : Version) : Bool :=
  match i.zone with
  | none => readLocked s v.lrange
  | some z => lbasLocked s readLocked (z * zoneLbas) ((z + 1) * zoneLbas)

/-! ## Checking a version from the media (R412, R444) -/

/-- Where the check of a version stands. -/
inductive CheckStep where
  | waiting
  | again                              -- the digest has failed: the version is rebuilt and checked once more
  | passed (rebuilt : Bool) (bytes : List Byte)
  | failed
  | unreadable

/-- The groups of a version's leaves. -/
def touches (ps : List (Nat × Nat)) (stripe : Nat) : Bool := ps.any fun p => stripeGroup p.1 = stripeGroup stripe

/-- A version checked: cached lines of its groups go, its leaves are read from the media, its digest compared. -/
def itemCheck (s : State) (task : ReqId) (recheck : Bool) (v : Version) : State × CheckStep :=
  let ps := versionPlaces s v
  let s := if (reqBy s task).isNone ∧ ¬ recheck then cacheRange s (touches ps) else s
  let rebuilt := (reqBy s task).any fun r => r.leaves.any fun l => l.step = 4
  match (if recheck then fetchRebuilt s task .audit ps else fetchLeaves s task .audit 0 true ps) with
  | (s, none) => (s, .waiting)
  | (s, some got) =>
    let w := partsWith (versionParts s v 0 v.length) got
    match firstMissing w, allBytes s w with
    | none, some b =>
      if shake256 b 64 = v.digest then (s, .passed (rebuilt || recheck) b)
      else if recheck then (s, .failed)
      else ((fetchRebuilt s task .audit ps).1, .again)
    | _, _ => (s, .unreadable)

/-! ## Audits (R444 to R449) -/

/-- The internal tasks of an audit and of an export. -/
def auditTask : ReqId := 8188
def exportTask : ReqId := 8187

/-- The 88 bytes of an entry. -/
def auditEntry (i : Item) (v : Version) (res : Nat) : List Byte :=
  leBytes 8 i.objectId ++ leBytes 4 i.version ++ leBytes 1 res ++ zeroBytes 3 ++ leBytes 8 v.length ++ padTo 64 v.digest

/-- A version is checked: its entry enters the hash, the counts and the kept entries. -/
def entryDone (a : Audit) (i : Item) (v : Version) (res : Nat) : Audit :=
  let e := auditEntry i v res
  { a with
    todo := a.todo.tail, checked := a.checked + 1, counts := a.counts.modify (min 3 res) (· + 1), hashed := a.hashed ++ e,
    kept := if a.keep then a.kept ++ [(i, e)] else a.kept, rebuilt := false, recheck := false }

/-- A version that fails is damaged (R449). -/
def damageItem (s : State) (i : Item) : State :=
  match i.zone with
  | none => damageVersion s i.key i.version i.objectId
  | some z => damageZone s z (List.range (zoneBy s z).leaves.length)

/-- The next version checked, or its check brought on. -/
def auditStep (s : State) (task : ReqId) (a : Audit) : State × Audit :=
  match a.todo with
  | [] => (s, a)
  | i :: rest => match itemVersion s i with
    | none => (s, { a with todo := rest })
    | some v =>
      if v.state = .deleted ∧ task = scrubTask then (s, { a with todo := rest })
      else if v.damaged then (s, entryDone a i v 4)
      else if itemLocked s i v then (s, entryDone a i v 3)
      else match itemCheck s task a.recheck v with
        | (s, .waiting) => (s, a)
        | (s, .again) => (s, { a with recheck := true })
        | (s, .passed r _) => (s, entryDone a i v (bit r))
        | (s, _) => (damageItem s i, entryDone a i v 2)

/-- Bytes 0 to 459 of a summary (Table 15.6). -/
def summaryBody (s : State) (a : Audit) (kind : Nat) : List Byte :=
  [0x4A, 0x56, 0x58, 0x41, 0x55, 0x44, 0x49, 0x54] ++ leBytes 2 1 ++ leBytes 1 kind ++ leBytes 1 (scopeCode a.scope) ++ zeroBytes 4 ++
    s.sec.serial ++ leBytes 8 a.id ++ leBytes 8 a.snapWseq ++ leBytes 4 a.startHours ++ leBytes 4 s.hours ++ leBytes 4 s.pwr.cycles ++
    zeroBytes 4 ++ leBytes 8 a.checked ++ a.counts.flatMap (leBytes 8 ·) ++ shake256 a.hashed 64 ++ scopeArg a.scope ++
    leBytes 2 1 ++ leBytes 2 0x500 ++ shake256 s.sec.identityPub 32

/-- The last summary of a KIND. -/
def summaryPut (s : State) (x : Summary) : State :=
  { s with cyz.summaries := x :: s.cyz.summaries.filter fun y => y.kind ≠ x.kind }

/-- A body signed; each signature takes a fresh salt. -/
def signedBody (s : State) (b : List Byte) : State × List Byte :=
  ({ s with freeCtr := s.freeCtr + 1 }, b ++ falconSig s (shake256 b 64))

/-- A summary made and signed, then `f`; unsigned while hearthstone refuses. -/
def summarySign (s : State) (a : Audit) (kind : Nat) (f : State → State) : State :=
  if ¬ maySign s then f (summaryPut s ⟨kind, a.id, summaryBody s a kind, false⟩)
  else signStep s none fun s =>
    let (s, b) := signedBody s (summaryBody s a kind)
    f (summaryPut s ⟨kind, a.id, b, true⟩)

/-- A new audit over a scope. -/
def newAudit (s : State) (id : Nat) (mctp : Bool) (tag : Nat) (sc : Scope) (keep : Bool) : Audit :=
  ⟨id, mctp, tag, sc, keep, s.str.wseq - 1, s.hours, scopeItems s sc, 0, [0, 0, 0, 0], [], [], false, false⟩

/-- AUDIT_START. -/
def auditStart (s : State) (p : CyzonPath) (pkt : List Byte) : State :=
  cyzonRun s p pkt 4 0 fun s q b =>
    withParams s q (Config.cyzAudit b) fun (sc, keep) => atPlace s fun n s =>
      answer { s with cyz.audit := some (newAudit s n q.mctp q.tag sc keep), cyz.ended := [] } q 1 0 (Config.cyzAuditReply 0 n) false

/-- The audit ends: its request has its final reply. -/
def auditEnd (s : State) (a : Audit) : State :=
  cyzUpdate { s with cyz.audit := none, cyz.ended := a.kept.map (·.2) } a.mctp a.tag 0 0 (Config.cyzAuditReply a.checked a.id) true

/-- AUDIT_VERSION_CHECK: one version, or, once every version has its entry, the summary. -/
def auditVersionCheck (s : State) : State :=
  match s.cyz.audit with
  | none => s
  | some a =>
    if ¬ s.pwr.restored ∨ s.flt.class3 ∨ a.keep ∧ 1024 ≤ a.kept.length then s
    else if a.todo.isEmpty then summarySign s a 1 fun s => auditEnd s a
    else
      let (s, a) := auditStep s auditTask a
      cyzUpdate { s with cyz.audit := some a } a.mctp a.tag 1 0 (Config.cyzAuditReply a.checked a.id) false

/-- Body bytes that a path takes. -/
def pathRoom (q : CyzIn) : Nat := if q.mctp then 4080 else 65520

/-- AUDIT_ENTRIES: as many kept entries as the path takes, which are removed. -/
def auditEntries (s : State) (p : CyzonPath) (pkt : List Byte) : State :=
  cyzonRun s p pkt 4 1 fun s q _ =>
    let n := pathRoom q / 88
    match s.cyz.audit with
    | some a => answer { s with cyz.audit := some { a with kept := a.kept.drop n } } q 0 0 ((a.kept.take n).flatMap (·.2))
    | none => answer { s with cyz.ended := s.cyz.ended.drop n } q 0 0 (s.cyz.ended.take n).flatten

/-- AUDIT_SUMMARY: by AUDIT_ID or by KIND; one still unsigned is signed first. -/
def auditSummary (s : State) (p : CyzonPath) (pkt : List Byte) : State :=
  cyzonRun s p pkt 4 2 fun s q b =>
    withParams s q (Config.cyzSummary b) fun (byId, n) =>
      if ¬ maySign s then answer s q 9 0x20
      else match s.cyz.summaries.find? fun x => if byId then x.kind = 1 ∧ x.auditId = n else x.kind = n with
        | none => answer s q 2 1
        | some x =>
          if x.signed then answer s q 0 0 x.bytes
          else (signStep s none fun s =>
            let (s, b) := signedBody s x.bytes
            summaryPut s { x with bytes := b, signed := true }, false)

/-! ## Scrub passes (R103, R130, R285, R446) -/

/-- The leaves a scrub reads in a group: every piece of its written stripes on heads that are read, the logged ones first. -/
def scrubPlaces (s : State) (g : Group) : List (Nat × Nat) :=
  let log := s.grt.ceLog.toList.flatten.filter (·.valid)
  let all := ((List.range (g.next / g.k)).filter fun n => ¬ deadSlot s g n).flatMap fun n => (List.range (g.k + g.m)).filterMap fun i =>
    (piecePos g n i).bind fun p =>
      if headState s p.surface = .inService ∨ headState s p.surface = .readOnly then
        some (log.any fun e => e.surface = p.surface ∧ e.ring = p.ring ∧ e.slot = p.slot, stripeNo g.id n, i) else none
  ((all.filter (·.1)) ++ all.filter fun x => !x.1).map (·.2)

/-- Leaves of a group that the log shows close to failing are relocation candidates. -/
def scrubCandidates (s : State) (g : Group) : State :=
  (s.grt.ceLog.toList.flatten.filter fun e =>
    e.valid ∧ (2 ≤ e.hits ∨ 2 ≤ e.step) ∧ (e.surface, e.ring) ∈ g.members).foldl (fun s e =>
      if slotDefect s ⟨e.surface, e.ring, e.slot⟩ ∨ s.str.relocPending.any (fun r => r.1 = stripeNo g.id e.slot) then s
      else relocateSlot s ⟨e.surface, e.ring, e.slot⟩) s

/-- One group read. -/
def scrubGroup (s : State) (g : Group) : State :=
  let s := if (reqBy s scrubTask).isNone then cacheRange s fun st => stripeGroup st = g.id else s
  match fetchLeaves s scrubTask .scrub 1 true (scrubPlaces s g) with
  | (s, none) => s
  | (s, some _) => scrubCandidates { s with str.scrubDone := s.str.scrubDone ++ [g.id] } g

/-- The information rate of the head and zone that an actuator reads measured, once in a pass (R103). -/
def scrubRate (s : State) (a : Nat) : State :=
  match (chanAt s a).loaded, irateTake s a with
  | some fz, some t => if fz ∈ s.str.scrubRated then s else { t with str.scrubRated := fz :: s.str.scrubRated }
  | _, _ => s

/-- The rates that the reads of the pass so far allow. -/
def scrubRates (s : State) : State := (List.range 4).foldl scrubRate s

/-- The pass is over. -/
def scrubEnd (s : State) : State :=
  { s with cyz.scrub := none, str.scrubDone := [], str.scrubRated := [], str.scrubFrom := s.str.scrubFrom + scrubInterval s }

/-- SCRUB_PASS: a due pass reads its groups one after another, then checks every version; its summary is signed. -/
def scrubPass (s : State) : State :=
  if s.pwr.banking ∨ s.flt.class3 ∨ ¬ s.pwr.restored ∨ s.hours < s.str.scrubFrom then s
  else match scrubLeft s, s.cyz.scrub with
    | g :: _, none => scrubGroup (scrubRates { s with cyz.scrub := some (newAudit s 0 false 0 .all false) }) g
    | g :: _, some _ => scrubGroup (scrubRates s) g
    | [], some a =>
      if a.todo.isEmpty then summarySign s a 2 scrubEnd
      else let (s, a) := auditStep s scrubTask a; { s with cyz.scrub := some a }
    | [], none => s

/-! ## The export container (R451 to R453) -/

/-- A record appended: its bytes and the container after it. -/
def exportRecord (m : ExportMark) (ty : Nat) (fields : List Byte) : List Byte × ExportMark :=
  let n := 48 + (fields.length + 7) / 8 * 8
  let r := leBytes 2 ty ++ zeroBytes 2 ++ leBytes 4 n ++ leBytes 8 m.seqNo ++ m.chain ++ padTo (n - 48) fields
  (r, { m with seqNo := m.seqNo + 1, chain := shake256 r 32, absorbed := m.absorbed ++ r })

/-- Records appended in order. -/
def exportRecords (m : ExportMark) (rs : List (Nat × List Byte)) : List Byte × ExportMark :=
  rs.foldl (fun a r => let (b, m) := exportRecord a.2 r.1 r.2; (a.1 ++ b, m)) ([], m)

/-- Record fields of the header. -/
def headerFields (s : State) (x : Export) : List Byte :=
  [0x4A, 0x56, 0x58, 0x45, 0x58, 0x50, 0x52, 0x54] ++ leBytes 2 1 ++ leBytes 1 (scopeCode x.scope) ++ zeroBytes 5 ++ s.sec.serial ++
    leBytes 8 x.id ++ leBytes 8 x.snapWseq ++ leBytes 4 s.hours ++ leBytes 4 s.pwr.cycles ++ leBytes 4 s.sec.certs.length ++
    zeroBytes 4 ++ scopeArg x.scope ++ s.sec.certs

/-- Record fields of a version. -/
def versionFields (i : Item) (v : Version) : List Byte :=
  leBytes 8 i.objectId ++ leBytes 4 i.version ++ leBytes 1 i.key.length ++ leBytes 1 (bit v.hold + 2 * bit i.zone.isSome) ++
    zeroBytes 2 ++ leBytes 8 v.length ++ leBytes 8 v.retain ++ leBytes 8 v.hours ++ padTo 64 v.digest ++ i.key

/-- Data records of a plaintext, one per leaf; the fuel is their number. -/
def dataRecords (i : Item) : Nat → Nat → List Byte → List (Nat × List Byte)
  | 0, _, _ => []
  | n + 1, off, b =>
    let d := b.take 32768
    (3, leBytes 8 i.objectId ++ leBytes 4 i.version ++ leBytes 4 d.length ++ leBytes 8 off ++ d) ::
      dataRecords i n (off + 32768) (b.drop 32768)

/-- Record fields of a notice. -/
def noticeFields (i : Item) (reason : Nat) : List Byte := leBytes 8 i.objectId ++ leBytes 4 i.version ++ leBytes 1 reason ++ zeroBytes 3

/-- The records to be returned next, and where they lead. -/
def exportSet (s : State) (x : Export) (r : List Byte × ExportMark) : State :=
  { s with cyz.exp := some { x with left := r.1, next := some r.2, recheck := false, got := none } }

/-- A version that ends with a Notice. -/
def exportNotice (s : State) (x : Export) (i : Item) (v : Version) (reason : Nat) : State :=
  let r := exportRecords x.mark [(2, versionFields i v), (5, noticeFields i reason)]
  exportSet s x (r.1, { r.2 with noticed := r.2.noticed + 1 })

/-- A version that has passed: its Data records and its receipt. -/
def exportVersion (s : State) (x : Export) (i : Item) (v : Version) (b : List Byte) : State :=
  let (s, rc) := receipt s 2 i.key i.objectId v
  let r := exportRecords x.mark ((2, versionFields i v) :: dataRecords i ((b.length + 32767) / 32768) 0 b ++
    [(4, leBytes 8 i.objectId ++ leBytes 4 i.version ++ leBytes 4 rc.length ++ rc)])
  exportSet s x (r.1, { r.2 with exported := r.2.exported + 1, plain := r.2.plain + b.length })

/-- The End record. -/
def exportFinish (s : State) (x : Export) : State :=
  let m := x.mark
  let f := leBytes 8 m.exported ++ leBytes 8 m.noticed ++ leBytes 8 m.plain ++ leBytes 2 1 ++ leBytes 2 0x500 ++ shake256 s.sec.identityPub 32
  let head := leBytes 2 0xFF ++ zeroBytes 2 ++ leBytes 4 1456 ++ leBytes 8 m.seqNo ++ m.chain
  let d := shake256 (m.absorbed ++ head ++ f) 64
  let sig := falconSig s d
  exportSet { s with freeCtr := s.freeCtr + 1 } { x with stage := 2 } (exportRecord m 0xFF (f ++ d ++ zeroBytes 4 ++ sig))

/-- The next records of the container made, or brought on: a version is read and checked, its receipt signed. -/
def exportFill (s : State) (x : Export) : State :=
  match x.stage, x.todo with
  | 0, _ => exportSet s x (exportRecord x.mark 1 (headerFields s x))
  | 1, [] => signStep s none fun s => exportFinish s x
  | 1, i :: rest => match itemVersion s i with
    | none => { s with cyz.exp := some { x with todo := rest } }
    | some v =>
      if v.damaged then exportNotice s x i v 3
      else if itemLocked s i v then exportNotice s x i v 4
      else match x.got with
        | some b => signStep s none fun s => exportVersion s x i v b
        | none => match itemCheck s exportTask x.recheck v with
          | (s, .waiting) => s
          | (s, .again) => { s with cyz.exp := some { x with recheck := true } }
          | (s, .passed _ b) => { s with cyz.exp := some { x with got := some b } }
          | (s, .failed) => exportNotice s x i v 1
          | (s, .unreadable) => exportNotice s x i v 2
  | _, _ => s

/-- Container bytes taken; once a record group has been returned whole the ember records the position after it. -/
def exportTake (x : Export) (n : Nat) : Export × List Byte :=
  let left := x.left.drop n
  let x' := if left.isEmpty then
      { x with left := [], mark := x.next.getD x.mark, next := none, todo := if x.stage = 1 then x.todo.tail else x.todo,
               stage := if x.stage = 1 then 1 else x.stage + 1 }
    else { x with left := left }
  (x', x.left.take n)

/-- EXPORT_OPEN. -/
def exportOpen (s : State) (p : CyzonPath) (pkt : List Byte) : State :=
  cyzonRun s p pkt 5 0 fun s q b =>
    withParams s q (Config.cyzExport b) fun what =>
      if ¬ maySign s then answer s q 9 0x20
      else match what, s.cyz.exp with
        | .inr id, some x =>
          if x.id = id then atPlace s fun _ s =>
            answer { s with cyz.exp := some { x with left := [], next := none, recheck := false, got := none, stage := if x.stage = 2 then 1 else x.stage } }
              q 0 0 (Config.cyzExportReply id)
          else answer s q 2 1
        | .inr _, none => answer s q 2 1
        | .inl _, some _ => answer s q 5 0
        | .inl sc, none => atPlace s fun n s =>
          answer { s with
            cyz.exp := some ⟨n, sc, s.str.wseq - 1, scopeItems s sc, ⟨0, zeroBytes 32, [], 0, 0, 0⟩, [], none, 0, false, none⟩ }
            q 0 0 (Config.cyzExportReply n)

/-- EXPORT_READ: the next container bytes; at the end of the container, none. -/
def exportRead (s : State) (p : CyzonPath) (pkt : List Byte) : State :=
  cyzonRun s p pkt 5 1 fun s q _ =>
    match s.cyz.exp with
    | none => answer s q 2 1
    | some x =>
      if x.left.isEmpty ∧ x.stage < 2 ∧ ¬ maySign s then answer s q 9 0x20
      else
        let s := if x.left.isEmpty then exportFill s x else s
        match s.cyz.exp with
        | some y =>
          if y.left.isEmpty ∧ y.stage < 3 then (s, false)
          else
            let (y, b) := if y.left.isEmpty then (y, []) else exportTake y (pathRoom q - 16)
            answer { s with cyz.exp := some y } q 0 0 b
        | none => (s, false)

/-- EXPORT_CLOSE: the export's state is discarded, and a request of it that is open replies 08h. -/
def exportClose (s : State) (p : CyzonPath) (pkt : List Byte) : State :=
  cyzonRun s p pkt 5 2 fun s q _ =>
    let s := { s with
      cyz.exp := none,
      cyz.replies := s.cyz.replies.map fun r =>
        if ¬ r.final ∧ r.group = 5 then { r with status := 8, reason := 0, body := [], final := true, delivered := false } else r }
    answer s q 0 0

/-! ## LOG_READ (R503) -/

/-- LOG_READ: records of the ash log from a sequence number on, oldest first, or entries of the health log by their place. -/
def logRead (s : State) (p : CyzonPath) (pkt : List Byte) : State :=
  cyzonRun s p pkt 6 0 fun s q b =>
    withParams s q (Config.cyzLog b) fun (health, first, n) =>
      if health then
        answer s q 0 0 ((((s.ash.health.reverse.drop first).take n).flatMap Config.healthEntry).take (pathRoom q))
      else
        let rs := s.ash.ring.reverse.filter fun r => first ≤ r.seq
        answer s q 0 0 ((rs.take (min n (pathRoom q / 256))).flatMap ashBytes)

end Sys2Proof.Machine
end

