-- ==== Sys2Proof/Machine/Security.lean ====
section
/-! DEFINITION. Attestation, the locking ranges' Opal methods and the life cycle (chapter 16), as Security Send and Security
Receive bring them. -/
namespace Sys2Proof.Machine
open Sys2Proof

/-! ## Security Send and Security Receive -/

/-- Security protocol and ComID of a Security Send or Receive. -/
def secp (e : SqEntry) : Nat := dwBits e.dw10 31 24
def comId (e : SqEntry) : Nat := dwBits e.dw10 23 8

/-- Security protocol F0h with a ComID. -/
def isF0 (id : Nat) (e : SqEntry) : Bool := decide (secp e = 0xF0 ∧ comId e = id)
/-- The Opal security protocol, 01h (log entry 35). -/
def isOpal (e : SqEntry) : Bool := decide (secp e = 1)

/-- Protocols and ComIDs that Security Send, and Security Receive, serve. -/
def sendServed (e : SqEntry) : Bool := isOpal e || [2, 3, 4].any fun i => isF0 i e
def recvServed (e : SqEntry) : Bool := isOpal e || [1, 4, 5].any fun i => isF0 i e

/-- A Security Send of one service runs; one that names no service ends with 02h. -/
def onSend (s : State) (c : Nat) (is : SqEntry → Bool) (f : Ctx → State) : State :=
  onTurn s c (isAdmin 0x81) fun x => if is x.entry then f x else if sendServed x.entry then s else invalidField s c

/-- A Security Receive of one service runs; one that names no service ends with 02h. -/
def onRecv (s : State) (c : Nat) (is : SqEntry → Bool) (f : Ctx → State) : State :=
  onTurn s c (isAdmin 0x82) fun x => if is x.entry then f x else if recvServed x.entry then s else invalidField s c

/-- A Security Receive returns as much of a reply as the host asked for. -/
def received (s : State) (c : Nat) (x : Ctx) (b : List Byte) : State := succeed s c 0 (b.take x.entry.dw11.toNat)

/-! ## Attestation (R462, R466) -/

/-- ATTESTATION_NONCE. -/
def attestationNonce (s : State) (c : Fin 4096) (data : List Byte) : State :=
  onSend s c (isF0 4) fun _ =>
    if data.length < 32 then invalidField s c else succeed { s with sec.nonce := some (data.take 32) } c 0

/-- Report bytes 0 to 439 (Table 16.5). -/
def reportBody (s : State) (nonce : List Byte) : List Byte :=
  [0x54, 0x4C, 0x53, 0x41, 0x54, 0x54, 0x53, 0x54] ++ leBytes 2 1 ++ leBytes 1 (lcCode s.sec.lc) ++
    leBytes 1 (bit s.sec.eval + 2 * bit s.sec.latched) ++ leBytes 4 s.hours ++ leBytes 4 s.pwr.cycles ++ zeroBytes 4 ++
    padTo 16 s.sec.serial ++ padTo 32 nonce ++ (s.sec.meas.flatMap (padTo 64)) ++ leBytes 4 s.sec.svnFuses ++
    leBytes 4 s.prof.pversion ++ zeroBytes 4 ++ leBytes 2 1 ++ leBytes 2 0x0500 ++ shake256 s.sec.identityPub 32

/-- The report signed; each signature takes a fresh salt. -/
def report (s : State) (nonce : List Byte) : State × List Byte :=
  let b := reportBody s nonce
  ({ s with freeCtr := s.freeCtr + 1, sec.nonce := none }, b ++ falconSig s (shake256 b 64))

/-- ATTESTATION_REPORT_READ: begins the signing, and ends it when the command comes again. -/
def attestationReportRead (s : State) (c : Fin 4096) : State :=
  onRecv s c (isF0 4) fun x =>
    match s.sec.nonce with
    | none => invalidField s c
    | some n =>
      if ¬ maySign s then finish s c 7 0x93 0
      else signStep s (some c) fun s => let (s, b) := report s n; received s c x b

/-- CERTIFICATE_CHAIN_READ: with no certificate installed, a header that counts none. -/
def certificateChainRead (s : State) (c : Fin 4096) : State :=
  onRecv s c (isF0 5) fun x => received s c x (if s.sec.certs.isEmpty then zeroBytes 8 else s.sec.certs)

/-! ## Life cycle (R475 to R479, R484) -/

/-- Hearthstone's DRBG generates. -/
def drbgReady (s : State) : Bool := s.sec.drbg.isSome && !s.sec.drbgStopped

/-- LIFECYCLE_CHALLENGE_READ: it waits while the DRBG is stopped. -/
def lifecycleChallengeRead (s : State) (c : Fin 4096) : State :=
  onRecv s c (isF0 1) fun x =>
    if ¬ drbgReady s then s
    else hsStep s (.drbg c) fun s =>
      let (s, b) := drbgTake s 32
      received { s with sec.challenge := some b } c x b

/-- The state that a code names. -/
def lcOfCode (n : Nat) : Option LifeCycle :=
  [LifeCycle.manufacture, .factoryTest, .provisioned, .deployed, .diagnostic, .decommissioned].find? fun l => lcCode l = n

/-- Who signs a token. -/
inductive TokenSigner where
  | dundowell | integrator
deriving DecidableEq, Repr, Inhabited

/-- The signers of a transition (Table 16.9); none for a transition that is not listed. -/
def tokenSigners (a b : LifeCycle) : Option (List TokenSigner) :=
  match a, b with
  | .manufacture, .provisioned | .manufacture, .decommissioned | .factoryTest, .decommissioned => some [.dundowell]
  | .provisioned, .deployed | .diagnostic, .deployed | .provisioned, .decommissioned | .deployed, .decommissioned
  | .diagnostic, .decommissioned => some [.integrator]
  | .deployed, .diagnostic => some [.dundowell, .integrator]
  | _, _ => none

/-- The condition of a transition (Table 16.9); the firmware runs only once the self-tests have passed. -/
def tokenCondition (s : State) (a b : LifeCycle) : Bool :=
  match a, b with
  | .manufacture, .provisioned => !s.sec.certs.isEmpty
  | .provisioned, .deployed => s.sec.integrator.isSome && decide (s.prof.pversion ≠ 0)
  | .deployed, .diagnostic => decide (s.sec.diagTrips < 8)
  | _, _ => true

/-- A signature over a digest verifies for a signer. -/
def signedBy (s : State) (d sig : List Byte) : TokenSigner → Bool
  | .dundowell => Config.dundowellSigned d sig
  | .integrator => match s.sec.integrator with
    | some k => Config.falconVerify k d sig
    | none => false

/-- The signature blocks from an offset verify, one for each signer in order, and nothing follows them. -/
def blocksOk (s : State) (b d : List Byte) : Nat → List TokenSigner → Bool
  | o, [] => decide (b.length = o)
  | o, w :: ws =>
    let n := leNat (slice b o 2)
    decide (1 ≤ n ∧ n ≤ 1280) && signedBy s d (sigAt b o) w && blocksOk s b d (o + 8 + (n + 7) / 8 * 8) ws

/-- The transition that a token makes; none for a token that is refused. -/
def tokenOf (s : State) (b : List Byte) : Option LifeCycle :=
  if b.take 8 = [0x54, 0x4C, 0x53, 0x4C, 0x43, 0x54, 0x4F, 0x4B] ∧ leNat (slice b 8 2) = 1 ∧
      leNat (slice b 10 1) = lcCode s.sec.lc ∧ slice b 16 16 = padTo 16 s.sec.serial ∧ s.sec.challenge = some (slice b 32 32) then
    (lcOfCode (leNat (slice b 11 1))).filter fun t =>
      tokenCondition s s.sec.lc t && match tokenSigners s.sec.lc t with
        | some ws => blocksOk s b (shake256 (b.take 64) 64) 64 ws
        | none => false
  else none

/-- R484: every wrapped secret is overwritten, and the ZEROIZE fuse blown. -/
def zeroize (s : State) : State :=
  { s with
    sec.wrappedId := none, sec.zeroFuse := true, sec.zeroized := true,
    sec.ranges := s.sec.ranges.map fun r => { r with wrappedKey := none, slot := none },
    sec.cpins := s.sec.cpins.map fun p => { p with salt := zeroBytes 16, hash := zeroBytes 32 } }

/-- Steps 1 and 2 of R477. A wipe by a tamper response or a class 3 fault stays on record. -/
def tokenAccept (s : State) (x : Ctx) (t : LifeCycle) : State :=
  let from_ := lcCode s.sec.lc
  let s := { s with
    sec.fuseLc := t, sec.challenge := none, sec.diagTrips := s.sec.diagTrips + bit (decide (t = .diagnostic)),
    sec.token := some (x.accept, false) }
  let s := if t = .decommissioned then zeroize s else s
  let s := wipeFirebrick s (if s.sec.wipe = .tamper ∨ s.sec.wipe = .class3 then s.sec.wipe else .lifeCycle)
  writeHome (ashRecord s 0x12 255 .hearthstone [from_, lcCode t])

/-- LIFECYCLE_TOKEN: a token accepted takes steps 1 to 3 of R477; the command that comes again completes the Security Send once
no leaf is dirty, and, once its completion is posted, resets the device. -/
def lifecycleToken (s : State) (c : Fin 4096) (data : List Byte) (boot : Boot) : State :=
  match s.sec.token with
  | some (a, true) => if s.host.ctxs.any fun y => y.2.accept = a then s else coreReset s boot
  | some (a, false) =>
    if dirtyCount s ≠ 0 then writeHome s
    else match s.host.ctxs.find? fun y => y.2.accept = a with
      | some y => succeed { s with sec.token := some (a, true) } y.1 0
      | none => { s with sec.token := some (a, true) }
  | none =>
    onSend s c (isF0 2) fun x =>
      match tokenOf s data with
      | none => invalidField s c
      | some t => onCtx (tokenAccept s x t) c fun y => { y with phase := .outstanding }

/-- INTEGRATOR_KEY_ENROL: a 1,793-byte public key, with a signature by the enrolled key where one is needed. -/
def integratorKeyEnrol (s : State) (c : Fin 4096) (key : List Byte) (sig : Option (List Byte)) : State :=
  onSend s c (isF0 3) fun _ =>
    let ok : Bool := match s.sec.integrator, sig with
      | none, none => decide (s.sec.lc = .provisioned)
      | some k, some g => decide (s.sec.lc = .provisioned ∨ s.sec.lc = .deployed) && Config.falconVerify k (shake256 key 64) g
      | _, _ => false
    if key.length ≠ 1793 ∨ ¬ ok then invalidField s c
    else succeed { s with sec.integrator := some key, sec.authSeq := 0 } c 0

/-! ## Opal sessions and credentials (R472) -/

/-- An Opal method answers: the Security Send completes, and a Security Receive brings the reply. -/
def opalAnswer (s : State) (c : Nat) (r : OpalReply) : State := succeed { s with sec.reply := r } c 0

/-- Some range is locked. -/
def anyLocked (s : State) : Bool :=
  s.sec.ranges.any fun r => (r.readLockEnabled && r.readLocked) || (r.writeLockEnabled && r.writeLocked)

/-- LEVEL0_DISCOVERY: with ComID 0001h the discovery data, with another ComID the reply of the last method. -/
def level0Discovery (s : State) (c : Fin 4096) : State :=
  onRecv s c isOpal fun x =>
    received s c x (if comId x.entry = 1 then Config.opalDiscovery s.sec.lockingActive (anyLocked s) else Config.opalReply s.sec.reply)

/-- PROPERTIES: the exchange changes nothing. -/
def properties (s : State) (c : Fin 4096) : State := onSend s c isOpal fun _ => opalAnswer s c .properties

/-- The security provider of an authority. -/
def spOf : Authority → Option OpalSp
  | .anybody => none
  | .sid | .psid | .adminSpAdmin1 => some .admin
  | .lockAdmin _ | .user _ => some .locking

/-- The verifier of an authority: SID and PSID have one from manufacture. -/
def cpinOf (s : State) (a : Authority) : Option CPin :=
  match s.sec.cpins.find? fun p => p.authority = a with
  | some p => some p
  | none => match a with
    | .sid => some ⟨.sid, [], shake256 (Config.factoryPin false) 32, 0⟩
    | .psid => some ⟨.psid, [], shake256 (Config.factoryPin true) 32, 0⟩
    | _ => none

/-- A verifier kept. -/
def cpinPut (s : State) (p : CPin) : State :=
  { s with sec.cpins := s.sec.cpins.filter (fun q => q.authority ≠ p.authority) ++ [p] }

/-- What comes of a PIN. -/
inductive PinResult where
  | right | wrong | lockedOut
deriving DecidableEq, Repr, Inhabited

/-- A PIN tried: TryLimit 5 failures lock the authority until the next power cycle. A zeroized verifier takes no PIN. -/
def pinTry (s : State) (a : Authority) (pin : List Byte) : State × PinResult :=
  match cpinOf s a with
  | none => (s, .wrong)
  | some p =>
    if 5 ≤ p.tries then (s, .lockedOut)
    else if ¬ s.sec.zeroFuse ∧ shake256 (p.salt ++ pin) 32 = p.hash then (cpinPut s { p with tries := 0 }, .right)
    else (cpinPut s { p with tries := p.tries + 1 }, .wrong)

/-- START_SESSION: one session at a time; an authority given with it must prove itself. -/
def startSession (s : State) (c : Fin 4096) (sp : OpalSp) (write : Bool) (auth : Option (Authority × List Byte)) : State :=
  onSend s c isOpal fun _ =>
    if s.sec.session.isSome then opalAnswer s c .noSessionsAvailable
    else if sp = .locking ∧ ¬ s.sec.lockingActive then opalAnswer s c .invalidParameter
    else match auth with
      | none => opalAnswer { s with sec.session := some ⟨sp, write, []⟩ } c (.success [])
      | some (a, pin) =>
        if a ≠ .anybody ∧ spOf a ≠ some sp then opalAnswer s c .invalidParameter
        else if a = .anybody then opalAnswer { s with sec.session := some ⟨sp, write, []⟩ } c (.success [])
        else match pinTry s a pin with
          | (s, .right) => opalAnswer { s with sec.session := some ⟨sp, write, [a]⟩ } c (.success [])
          | (s, .wrong) => opalAnswer s c .notAuthorized
          | (s, .lockedOut) => opalAnswer s c .authorityLockedOut

/-- END_SESSION. -/
def endOpalSession (s : State) (c : Fin 4096) : State :=
  onSend s c isOpal fun _ => opalAnswer { s with sec.session := none } c (.success [])

/-- A method in the open session; without one it is not authorized. -/
def inSession (s : State) (c : Nat) (f : OpalSession → State) : State :=
  onSend s c isOpal fun _ => match s.sec.session with
    | some x => f x
    | none => opalAnswer s c .notAuthorized

/-- AUTHENTICATE: returns whether the authority proved itself. -/
def authenticate (s : State) (c : Fin 4096) (a : Authority) (pin : List Byte) : State :=
  inSession s c fun x =>
    if a = .anybody then opalAnswer s c (.success [[1]])
    else if spOf a ≠ some x.sp then opalAnswer s c .invalidParameter
    else match pinTry s a pin with
      | (s, .right) => opalAnswer { s with sec.session := some { x with authed := x.authed ++ [a] } } c (.success [[1]])
      | (s, .wrong) => opalAnswer s c (.success [[0]])
      | (s, .lockedOut) => opalAnswer s c .authorityLockedOut

/-- The session has an administrator of the Locking SP, or the SID. -/
def lockAdmin (x : OpalSession) : Bool := x.sp = .locking && x.authed.any fun a => match a with | .lockAdmin _ => true | _ => false
def hasSid (x : OpalSession) : Bool := x.sp = .admin && decide (Authority.sid ∈ x.authed)

/-! ## Tables: Get, Next and Set (R470 to R472, R474) -/

/-- A truth value as a cell holds it. -/
def boolCell (b : Bool) : List Byte := [if b then 1 else 0]

/-- The tables of the subset of R472 beside those of the ranges and the PINs, by the upper half of a table's UID: the tables that
the Opal SSC names, less DataStore, the MBR and what Single User Mode adds (log entry 99). -/
def opalTables : List Nat := [0x1, 0x2, 0x3, 0x6, 0x7, 0x8, 0x9, 0xB, 0x201, 0x204, 0x205, 0x801, 0x802, 0x803, 0x805, 0x806]

/-- A cell's value; a PIN is not readable, and a table outside the subset has no cells. -/
def cellGet (s : State) (k : OpalCell) : Option (List Byte) :=
  let row := fun (r : Nat) (f : RangeRow → List Byte) => (s.sec.ranges[r]?).map f
  match k with
  | .rangeStart r => row r fun x => leBytes 8 x.start
  | .rangeLength r => row r fun x => leBytes 8 x.length
  | .readLockEnabled r => row r fun x => boolCell x.readLockEnabled
  | .writeLockEnabled r => row r fun x => boolCell x.writeLockEnabled
  | .readLocked r => row r fun x => boolCell x.readLocked
  | .writeLocked r => row r fun x => boolCell x.writeLocked
  | .lockOnReset r => row r fun x => if x.lockOnReset then [0] else []
  | .rangeUser r n => some (boolCell (decide ((r, n) ∈ s.sec.rangeUsers)))
  | .cpin _ => none
  | .mbrEnable => some [0]
  | .other t r k => if t ∈ opalTables then some (Config.opalCell t r k) else none

/-- OPAL_GET. -/
def opalGet (s : State) (c : Fin 4096) (cells : List OpalCell) : State :=
  inSession s c fun _ =>
    match cells.mapM (cellGet s) with
    | some vs => opalAnswer s c (.success vs)
    | none => opalAnswer s c .notAuthorized

/-- The table of locking ranges: the Global Range and Range1 to Range64. -/
def rangeRows : List (List Byte) := (List.range 65).map (leBytes 2)

/-- OPAL_NEXT: rows of the range table (none) or of another one of the subset, from a row on. -/
def opalNext (s : State) (c : Fin 4096) (table : Option Nat) (from_ count : Nat) : State :=
  inSession s c fun _ =>
    if table.all (· ∈ opalTables) then
      opalAnswer s c (.success (((table.elim rangeRows Config.opalRows).drop from_).take count))
    else opalAnswer s c .notAuthorized

/-- A method may change a cell. -/
def mayWriteCell (s : State) (x : OpalSession) (k : OpalCell) : Bool :=
  let user := fun (r : Nat) => x.sp = .locking && x.authed.any fun a => match a with
    | .user n => decide ((r, n) ∈ s.sec.rangeUsers)
    | _ => false
  x.write && match k with
    | .readLocked r | .writeLocked r => lockAdmin x || user r
    | .rangeStart _ | .rangeLength _ | .readLockEnabled _ | .writeLockEnabled _ | .lockOnReset _ | .rangeUser _ _ | .mbrEnable => lockAdmin x
    | .cpin .psid | .cpin .anybody => false
    | .cpin a => decide (a ∈ x.authed) || (if spOf a = some .admin then hasSid x else lockAdmin x)
    | .other _ _ _ => lockAdmin x || hasSid x

/-- A truth value written to a cell. -/
def cellBool (v : List Byte) : Option Bool := if v = [0] then some false else if v = [1] then some true else none

/-- One range row changed by a Set, or the failure. Global Range bounds and lock enables do not change; in DIAGNOSTIC nothing is
unlocked (Table 16.8). -/
def rowSet (s : State) (rows : List RangeRow) (r : Nat) (globalOk : Bool) (unlocks : Bool) (f : RangeRow → RangeRow) : Except OpalReply (List RangeRow) :=
  if 64 < r ∨ (r = 0 ∧ ¬ globalOk) then .error .invalidParameter
  else if unlocks ∧ s.sec.lc = .diagnostic then .error .fail
  else .ok (rows.modify r f)

/-- One cell set, on the state that a Set builds. -/
def cellSet (s : State) (k : OpalCell) (v : List Byte) : Except OpalReply State :=
  let rows := fun (r : Nat) (g : Bool) (u : Bool) (f : RangeRow → RangeRow) =>
    (rowSet s s.sec.ranges r g u f).map fun rs => { s with sec.ranges := rs }
  let flag := fun (r : Nat) (g : Bool) (f : Bool → RangeRow → RangeRow) => match cellBool v with
    | some b => rows r g (!b) (f b)
    | none => .error .invalidParameter
  match k with
  | .rangeStart r => rows r false false fun x => { x with start := leNat v }
  | .rangeLength r => rows r false false fun x => { x with length := leNat v }
  | .readLockEnabled r => flag r false fun b x => { x with readLockEnabled := b }
  | .writeLockEnabled r => flag r false fun b x => { x with writeLockEnabled := b }
  | .readLocked r => flag r true fun b x => { x with readLocked := b }
  | .writeLocked r => flag r true fun b x => { x with writeLocked := b }
  | .lockOnReset r => if v = [] ∨ v = [0] then rows r true false fun x => { x with lockOnReset := decide (v = [0]) } else .error .invalidParameter
  | .rangeUser r n => match cellBool v with
    | some b =>
      let rest := s.sec.rangeUsers.filter (· ≠ (r, n))
      if 64 < r ∨ n = 0 ∨ 64 < n then .error .invalidParameter
      else .ok { s with sec.rangeUsers := if b then rest ++ [(r, n)] else rest }
    | none => .error .invalidParameter
  | .cpin a =>
    if ¬ drbgReady s ∨ s.sec.zeroFuse then .error .fail
    else
      let (s, salt) := drbgTake s 16
      .ok (cpinPut s ⟨a, salt, shake256 (salt ++ v) 32, 0⟩)
  | .mbrEnable => .error .fail
  | .other _ _ _ => .error .invalidParameter

/-- Every cell of a Set, in order. -/
def cellsSet : List (OpalCell × List Byte) → State → Except OpalReply State
  | [], s => .ok s
  | (k, v) :: r, s => (cellSet s k v).bind (cellsSet r)

/-- Zones that a row's bounds touch. -/
def rowZones (r : RangeRow) : List Nat := if r.length = 0 then [] else zonesOf r.start r.length

/-- Some version, or open session, names a range. -/
def rangeNamed (s : State) (r : Nat) : Bool :=
  (s.obj.objs.any fun o => o.versions.any fun v => v.lrange = r) || s.obj.slots.any fun sl => sl.sess.any fun y => y.lrange = r

/-- The bounds of row r after a Set keep R470. -/
def boundsOk (s : State) (old : List RangeRow) (r : Nat) : Bool :=
  let a := old.getD r default
  let b := s.sec.ranges.getD r default
  if a.start = b.start ∧ a.length = b.length then true
  else
    decide (b.start % 8 = 0 ∧ b.length % 8 = 0 ∧ (b.length ≠ 0 → b.start + b.length ≤ znsSize s)) &&
    ((rowZones a ++ rowZones b).all fun z => (zoneBy s z).state = .empty) &&
    (decide (b.length = 0) || !rangeNamed s r) &&
    (List.range 65).all fun q => let y := s.sec.ranges.getD q default
      decide (q = r ∨ y.length = 0 ∨ b.length = 0 ∨ y.start + y.length ≤ b.start ∨ b.start + b.length ≤ y.start)

/-- The range that a cell belongs to. -/
def lockCell : OpalCell → Bool
  | .readLockEnabled _ | .writeLockEnabled _ | .readLocked _ | .writeLocked _ => true
  | _ => false

/-- A Set's effect, whole or not at all; a change of locks reloads the key slots (R474). -/
def setGo (s : State) (c : Nat) (sets : List (OpalCell × List Byte)) : State :=
  match cellsSet sets s with
  | .error e => opalAnswer s c e
  | .ok t =>
    if (List.range 65).all (boundsOk t s.sec.ranges) then
      opalAnswer (if sets.any fun k => lockCell k.1 then slotsLoad t else t) c (.success [])
    else opalAnswer s c .invalidParameter

/-- OPAL_SET: a change of locks may unwrap a key. -/
def opalSet (s : State) (c : Fin 4096) (sets : List (OpalCell × List Byte)) : State :=
  inSession s c fun x =>
    if sets.any fun k => ¬ mayWriteCell s x k.1 then opalAnswer s c .notAuthorized
    else if sets.any (fun k => lockCell k.1) ∧ ¬ s.sec.refusing ∧ s.sec.swk.isSome then
      hsStep s (.rangeUnwrap c) fun s => setGo s c sets
    else setGo s c sets

/-! ## Keys: GenKey, Revert, RevertSP, Activate and Random (R472, R473) -/

/-- Hearthstone can make and wrap keys. -/
def mayKey (s : State) : Bool := !s.sec.refusing && s.sec.swk.isSome && drbgReady s

/-- Live versions with an LRANGE. -/
def rangeVersions (s : State) (r : Nat) : List (Obj × Version) :=
  s.obj.objs.flatMap fun o => (o.versions.filter fun v => v.state = .live ∧ v.lrange = r).map fun v => (o, v)

/-- Zones with content that a range covers. -/
def rangeZones (s : State) (r : Nat) : List Nat :=
  (rowZones (s.sec.ranges.getD r default)).filter fun z => (zoneBy s z).state ≠ .empty

/-- A range's key replaced: its versions are deleted and its zones reset with it. -/
def rangeErase (accept : Nat) (s : State) (r : Nat) : State :=
  let s' := rangeRekey s r
  let s' := (rangeVersions s r).foldl (fun s v => deleteVersion s v.1 v.2 accept) s'
  (rangeZones s r).foldl (fun s z => zoneEmptied s z accept) s'

/-- Ranges replaced in one step, with `f` on what follows. While a version of theirs is retained the method fails; it waits for
reads in progress of their zones, and for room for its records. -/
def rangesErase (s : State) (c : Nat) (rs : List Nat) (f : State → State) : State :=
  match ctxBy s c with
  | none => s
  | some x =>
    if s.sec.lc ≠ .decommissioned ∧ rs.any (fun r => (rangeVersions s r).any fun v => retained v.2 x.clock) then opalAnswer s c .fail
    else if ¬ mayKey s then opalAnswer s c .fail
    else if rs.any fun r => (rangeZones s r).any fun z => (zoneGroups s z).any (groupRead s) then s
    else hsStep s (.drbg c) fun t =>
      let u := opalAnswer (f (rs.foldl (rangeErase (x.accept + 1)) t)) c (.success [])
      if admits s u then u else if s.pwr.wrHeld then s else writeHome s

/-- GEN_KEY. -/
def genKey (s : State) (c : Fin 4096) (r : Fin 65) : State :=
  inSession s c fun x =>
    if ¬ x.write ∨ ¬ lockAdmin x then opalAnswer s c .notAuthorized
    else if r = 0 ∨ r.val ∉ keyedRanges s then opalAnswer s c .invalidParameter
    else rangesErase s c [r] id

/-- OPAL_RANDOM: up to 32 bytes. -/
def opalRandom (s : State) (c : Fin 4096) (n : Nat) : State :=
  inSession s c fun _ =>
    if 32 < n then opalAnswer s c .invalidParameter
    else if ¬ drbgReady s then opalAnswer s c .fail
    else hsStep s (.drbg c) fun s => let (s, b) := drbgTake s n; opalAnswer s c (.success [b])

/-- OPAL_ACTIVATE: the Locking SP becomes active with SID's PIN for Admin1, and every range without a key takes one. -/
def opalActivate (s : State) (c : Fin 4096) : State :=
  inSession s c fun x =>
    if ¬ x.write ∨ ¬ hasSid x then opalAnswer s c .notAuthorized
    else if s.sec.lockingActive then opalAnswer s c (.success [])
    else if ¬ mayKey s then opalAnswer s c .fail
    else hsStep s (.drbg c) fun s =>
      let s := (((List.range 65).filter fun r => r ≠ 0 ∧ r ∉ keyedRanges s)).foldl rangeRekey s
      let s := match cpinOf s .sid with | some p => cpinPut s { p with authority := .lockAdmin 1, tries := 0 } | none => s
      opalAnswer { s with sec.lockingActive := true } c (.success [])

/-- The Locking SP as manufactured: range rows unlocked and without bounds, its verifiers gone. -/
def lockingReset (s : State) : State :=
  slotsLoad { s with
    sec.lockingActive := false, sec.session := none, sec.rangeUsers := [],
    sec.ranges := s.sec.ranges.map fun r => { r with
      start := 0, length := 0, readLockEnabled := false, writeLockEnabled := false, readLocked := false, writeLocked := false,
      lockOnReset := true },
    sec.cpins := s.sec.cpins.filter fun p => spOf p.authority ≠ some .locking }

/-- REVERT: of the Admin SP by SID or PSID; the SID returns to its PIN from manufacture. -/
def revert (s : State) (c : Fin 4096) : State :=
  inSession s c fun x =>
    if ¬ x.write ∨ x.sp ≠ .admin ∨ (Authority.sid ∉ x.authed ∧ Authority.psid ∉ x.authed) then opalAnswer s c .notAuthorized
    else rangesErase s c (keyedRanges s) fun s =>
      lockingReset { s with sec.cpins := s.sec.cpins.filter fun p => p.authority = .psid }

/-- REVERT_SP: of the Locking SP by one of its administrators. -/
def revertSp (s : State) (c : Fin 4096) : State :=
  inSession s c fun x =>
    if ¬ x.write ∨ ¬ lockAdmin x then opalAnswer s c .notAuthorized
    else rangesErase s c (keyedRanges s) lockingReset

end Sys2Proof.Machine
end

