-- ==== Sys2Proof/Machine/Exec.lean ====
section
/-! DEFINITION. The meaning of each command: one definition for each row of the table. No event of this spec stops the block:
each answers a next state. -/
namespace Sys2Proof.Machine
open Sys2Proof

/-- SQ_DOORBELL_WRITE (R350). -/
def execSqDoorbellWrite (q : Fin 65) (value : Fin 65536) (s : State) : Host.Outcome State Fault Refusal := .next (sqDoorbellWrite s q value)

/-- CQ_DOORBELL_WRITE (R350). -/
def execCqDoorbellWrite (q : Fin 65) (value : Fin 65536) (s : State) : Host.Outcome State Fault Refusal := .next (cqDoorbellWrite s q value)

/-- COMMAND_ACCEPT (R352). -/
def execCommandAccept (q : Fin 65) (e : SqEntry) (s : State) : Host.Outcome State Fault Refusal := .next (commandAccept s q e)

/-- COMPLETION_POST (R351). -/
def execCompletionPost (c : Fin 4096) (s : State) : Host.Outcome State Fault Refusal := .next (completionPost s c)

/-- CC_EN_SET (R345). -/
def execCcEnSet (asqSize acqSize : Fin 4096) (ams : Fin 2) (mps : Fin 5) (s : State) : Host.Outcome State Fault Refusal := .next (ccEnSet s asqSize acqSize ams mps)

/-- CC_EN_CLEAR (R364). -/
def execCcEnClear (s : State) : Host.Outcome State Fault Refusal := .next (ccEnClear s)

/-- CC_SHN_SHUTDOWN (R365). -/
def execCcShnShutdown (abrupt : Bool) (s : State) : Host.Outcome State Fault Refusal := .next (ccShnShutdown s abrupt)

/-- FUNCTION_LEVEL_RESET (R364). -/
def execFunctionLevelReset (s : State) : Host.Outcome State Fault Refusal := .next (functionLevelReset s)

/-- HOT_RESET_LINK_DOWN (R364). -/
def execHotResetLinkDown (s : State) : Host.Outcome State Fault Refusal := .next (hotResetLinkDown s)

/-- PERST_ASSERT (R364). -/
def execPerstAssert (s : State) : Host.Outcome State Fault Refusal := .next (perstAssert s)

/-- DELETE_IO_SQ (R367). -/
def execDeleteIoSq (c : Fin 4096) (cids : List (BitVec 16)) (s : State) : Host.Outcome State Fault Refusal := .next (deleteIoSq s c cids)

/-- CREATE_IO_SQ (R347). -/
def execCreateIoSq (c : Fin 4096) (s : State) : Host.Outcome State Fault Refusal := .next (createIoSq s c)

/-- DELETE_IO_CQ (R359). -/
def execDeleteIoCq (c : Fin 4096) (s : State) : Host.Outcome State Fault Refusal := .next (deleteIoCq s c)

/-- CREATE_IO_CQ (R347). -/
def execCreateIoCq (c : Fin 4096) (s : State) : Host.Outcome State Fault Refusal := .next (createIoCq s c)

/-- GET_LOG_PAGE (R359). -/
def execGetLogPage (c : Fin 4096) (s : State) : Host.Outcome State Fault Refusal := .next (getLogPage s c)

/-- IDENTIFY (R359). -/
def execIdentify (c : Fin 4096) (s : State) : Host.Outcome State Fault Refusal := .next (identify s c)

/-- ABORT (R360). -/
def execAbort (c : Fin 4096) (s : State) : Host.Outcome State Fault Refusal := .next (abortCmd s c)

/-- SET_FEATURES (R359). -/
def execSetFeatures (c : Fin 4096) (s : State) : Host.Outcome State Fault Refusal := .next (setFeatures s c)

/-- GET_FEATURES (R359). -/
def execGetFeatures (c : Fin 4096) (s : State) : Host.Outcome State Fault Refusal := .next (getFeatures s c)

/-- ASYNCHRONOUS_EVENT_REQUEST (R359). -/
def execAsynchronousEventRequest (c : Fin 4096) (s : State) : Host.Outcome State Fault Refusal := .next (asyncEventRequest s c)

/-- FIRMWARE_IMAGE_DOWNLOAD (R359). -/
def execFirmwareImageDownload (c : Fin 4096) (data : List Byte) (s : State) : Host.Outcome State Fault Refusal := .next (firmwareImageDownload s c data)

/-- FIRMWARE_COMMIT (R370). -/
def execFirmwareCommit (c : Fin 4096) (s : State) : Host.Outcome State Fault Refusal := .next (firmwareCommit s c)

/-- FIRMWARE_ACTIVATION_RESUME (R371). -/
def execFirmwareActivationResume (s : State) : Host.Outcome State Fault Refusal := .next (firmwareActivationResume s)

/-- FIRMWARE_ACTIVATION_COMPLETE (R370). -/
def execFirmwareActivationComplete (s : State) : Host.Outcome State Fault Refusal := .next (firmwareActivationComplete s)

/-- FORMAT_NVM (R369). -/
def execFormatNvm (c : Fin 4096) (s : State) : Host.Outcome State Fault Refusal := .next (formatNvm s c)

/-- SANITIZE (R368). -/
def execSanitize (c : Fin 4096) (s : State) : Host.Outcome State Fault Refusal := .next (sanitize s c)

/-- MEDIA_OPERATION_PROGRESS (R442). -/
def execMediaOperationProgress (ok : Bool) (s : State) : Host.Outcome State Fault Refusal := .next (mediaProgress s ok)

/-- CYZON_RECEIVE (R428). -/
def execCyzonReceive (c : Fin 4096) (s : State) : Host.Outcome State Fault Refusal := .next (cyzonReceive s c)

/-- ATTESTATION_NONCE (R466). -/
def execAttestationNonce (c : Fin 4096) (data : List Byte) (s : State) : Host.Outcome State Fault Refusal := .next (attestationNonce s c data)

/-- ATTESTATION_REPORT_READ (R466). -/
def execAttestationReportRead (c : Fin 4096) (s : State) : Host.Outcome State Fault Refusal := .next (attestationReportRead s c)

/-- CERTIFICATE_CHAIN_READ (R466). -/
def execCertificateChainRead (c : Fin 4096) (s : State) : Host.Outcome State Fault Refusal := .next (certificateChainRead s c)

/-- LIFECYCLE_CHALLENGE_READ (R477). -/
def execLifecycleChallengeRead (c : Fin 4096) (s : State) : Host.Outcome State Fault Refusal := .next (lifecycleChallengeRead s c)

/-- LIFECYCLE_TOKEN (R477). -/
def execLifecycleToken (c : Fin 4096) (data : List Byte) (boot : Boot) (s : State) : Host.Outcome State Fault Refusal := .next (lifecycleToken s c data boot)

/-- INTEGRATOR_KEY_ENROL (R479). -/
def execIntegratorKeyEnrol (c : Fin 4096) (key : List Byte) (sig : Option (List Byte)) (s : State) : Host.Outcome State Fault Refusal := .next (integratorKeyEnrol s c key sig)

/-- LEVEL0_DISCOVERY (R472). -/
def execLevel0Discovery (c : Fin 4096) (s : State) : Host.Outcome State Fault Refusal := .next (level0Discovery s c)

/-- PROPERTIES (R472). -/
def execProperties (c : Fin 4096) (s : State) : Host.Outcome State Fault Refusal := .next (properties s c)

/-- START_SESSION (R472). -/
def execStartSession (c : Fin 4096) (sp : OpalSp) (write : Bool) (auth : Option (Authority × List Byte)) (s : State) : Host.Outcome State Fault Refusal := .next (startSession s c sp write auth)

/-- END_SESSION (R472). -/
def execEndSession (c : Fin 4096) (s : State) : Host.Outcome State Fault Refusal := .next (endOpalSession s c)

/-- AUTHENTICATE (R472). -/
def execAuthenticate (c : Fin 4096) (a : Authority) (pin : List Byte) (s : State) : Host.Outcome State Fault Refusal := .next (authenticate s c a pin)

/-- OPAL_GET (R472). -/
def execOpalGet (c : Fin 4096) (cells : List OpalCell) (s : State) : Host.Outcome State Fault Refusal := .next (opalGet s c cells)

/-- OPAL_SET (R470). -/
def execOpalSet (c : Fin 4096) (sets : List (OpalCell × List Byte)) (s : State) : Host.Outcome State Fault Refusal := .next (opalSet s c sets)

/-- OPAL_NEXT (R472). -/
def execOpalNext (c : Fin 4096) (table : Option Nat) (from_ count : Nat) (s : State) : Host.Outcome State Fault Refusal := .next (opalNext s c table from_ count)

/-- GEN_KEY (R473). -/
def execGenKey (c : Fin 4096) (r : Fin 65) (s : State) : Host.Outcome State Fault Refusal := .next (genKey s c r)

/-- OPAL_RANDOM (R472). -/
def execOpalRandom (c : Fin 4096) (n : Nat) (s : State) : Host.Outcome State Fault Refusal := .next (opalRandom s c n)

/-- OPAL_ACTIVATE (R472). -/
def execOpalActivate (c : Fin 4096) (s : State) : Host.Outcome State Fault Refusal := .next (opalActivate s c)

/-- REVERT (R473). -/
def execRevert (c : Fin 4096) (s : State) : Host.Outcome State Fault Refusal := .next (revert s c)

/-- REVERT_SP (R473). -/
def execRevertSp (c : Fin 4096) (s : State) : Host.Outcome State Fault Refusal := .next (revertSp s c)

/-- PUT_OPEN (R386). -/
def execPutOpen (c : Fin 4096) (s : State) : Host.Outcome State Fault Refusal := .next (putOpen s c)

/-- PUT_DATA (R388). -/
def execPutData (c : Fin 4096) (data : List Byte) (s : State) : Host.Outcome State Fault Refusal := .next (putData s c data)

/-- PUT_COMMIT (R393). -/
def execPutCommit (c : Fin 4096) (expected : List Byte) (s : State) : Host.Outcome State Fault Refusal := .next (putCommit s c expected)

/-- PUT_ABORT (R394). -/
def execPutAbort (c : Fin 4096) (s : State) : Host.Outcome State Fault Refusal := .next (putAbort s c)

/-- GET (R400). -/
def execGet (c : Fin 4096) (s : State) : Host.Outcome State Fault Refusal := .next (get s c)

/-- STAT (R405). -/
def execStat (c : Fin 4096) (s : State) : Host.Outcome State Fault Refusal := .next (stat s c)

/-- LIST (R406). -/
def execList (c : Fin 4096) (s : State) : Host.Outcome State Fault Refusal := .next (list s c)

/-- COPY (R407). -/
def execCopy (c : Fin 4096) (s : State) : Host.Outcome State Fault Refusal := .next (copy s c)

/-- DELETE (R410). -/
def execDelete (c : Fin 4096) (s : State) : Host.Outcome State Fault Refusal := .next (delete s c)

/-- HOLD (R411). -/
def execHold (c : Fin 4096) (s : State) : Host.Outcome State Fault Refusal := .next (hold s c)

/-- SYNC (R398). -/
def execSync (c : Fin 4096) (s : State) : Host.Outcome State Fault Refusal := .next (sync s c)

/-- RECEIPT (R412). -/
def execReceipt (c : Fin 4096) (s : State) : Host.Outcome State Fault Refusal := .next (receiptCmd s c)

/-- FLUSH (R363). -/
def execFlush (c : Fin 4096) (s : State) : Host.Outcome State Fault Refusal := .next (flush s c)

/-- ZONE_WRITE (R420). -/
def execZoneWrite (c : Fin 4096) (data : List Byte) (s : State) : Host.Outcome State Fault Refusal := .next (zoneWrite s c data)

/-- ZONE_READ (R421). -/
def execZoneRead (c : Fin 4096) (s : State) : Host.Outcome State Fault Refusal := .next (zoneRead s c)

/-- ZONE_APPEND (R420). -/
def execZoneAppend (c : Fin 4096) (data : List Byte) (s : State) : Host.Outcome State Fault Refusal := .next (zoneAppend s c data)

/-- ZONE_OPEN (R422). -/
def execZoneOpen (c : Fin 4096) (s : State) : Host.Outcome State Fault Refusal := .next (zoneOpen s c)

/-- ZONE_CLOSE (R422). -/
def execZoneClose (c : Fin 4096) (s : State) : Host.Outcome State Fault Refusal := .next (zoneClose s c)

/-- ZONE_FINISH (R423). -/
def execZoneFinish (c : Fin 4096) (s : State) : Host.Outcome State Fault Refusal := .next (zoneFinish s c)

/-- ZONE_RESET (R424). -/
def execZoneReset (c : Fin 4096) (s : State) : Host.Outcome State Fault Refusal := .next (zoneReset s c)

/-- REPORT_ZONES (R419). -/
def execReportZones (c : Fin 4096) (s : State) : Host.Outcome State Fault Refusal := .next (reportZones s c)

/-- RESULT (R427). -/
def execResult (p : CyzonPath) (pkt : List Byte) (s : State) : Host.Outcome State Fault Refusal := .next (cyzResult s p pkt)

/-- IDENTIFY_CYZON (R432). -/
def execIdentifyCyzon (p : CyzonPath) (pkt : List Byte) (s : State) : Host.Outcome State Fault Refusal := .next (cyzIdentify s p pkt)

/-- HEALTH (R433). -/
def execHealth (p : CyzonPath) (pkt : List Byte) (s : State) : Host.Outcome State Fault Refusal := .next (cyzHealth s p pkt)

/-- IRATE_MEASURE (R103). -/
def execIrateMeasure (p : CyzonPath) (pkt : List Byte) (s : State) : Host.Outcome State Fault Refusal := .next (irateMeasure s p pkt)

/-- CHECKER_TEST (R131). -/
def execCheckerTest (p : CyzonPath) (pkt : List Byte) (s : State) : Host.Outcome State Fault Refusal := .next (checkerTest s p pkt)

/-- PROFILE_LOAD (R435). -/
def execProfileLoad (p : CyzonPath) (pkt : List Byte) (s : State) : Host.Outcome State Fault Refusal := .next (profileLoad s p pkt)

/-- PROFILE_ACTIVATE (R436). -/
def execProfileActivate (p : CyzonPath) (pkt : List Byte) (s : State) : Host.Outcome State Fault Refusal := .next (profileActivate s p pkt)

/-- PROFILE_ACTIVATE_RESUME (R437). -/
def execProfileActivateResume (s : State) : Host.Outcome State Fault Refusal := .next (profileActivateResume s)

/-- COMMIT (R440). -/
def execCommit (p : CyzonPath) (pkt : List Byte) (s : State) : Host.Outcome State Fault Refusal := .next (cyzCommit s p pkt)

/-- REG_READ (R438). -/
def execRegRead (p : CyzonPath) (pkt : List Byte) (s : State) : Host.Outcome State Fault Refusal := .next (cyzRegRead s p pkt)

/-- REG_WRITE (R438). -/
def execRegWrite (p : CyzonPath) (pkt : List Byte) (s : State) : Host.Outcome State Fault Refusal := .next (cyzRegWrite s p pkt)

/-- MEDIA_PROGRESS (R441). -/
def execMediaProgress (p : CyzonPath) (pkt : List Byte) (s : State) : Host.Outcome State Fault Refusal := .next (cyzMediaProgress s p pkt)

/-- AUDIT_START (R444). -/
def execAuditStart (p : CyzonPath) (pkt : List Byte) (s : State) : Host.Outcome State Fault Refusal := .next (auditStart s p pkt)

/-- AUDIT_VERSION_CHECK (R445). -/
def execAuditVersionCheck (s : State) : Host.Outcome State Fault Refusal := .next (auditVersionCheck s)

/-- AUDIT_ENTRIES (R445). -/
def execAuditEntries (p : CyzonPath) (pkt : List Byte) (s : State) : Host.Outcome State Fault Refusal := .next (auditEntries s p pkt)

/-- AUDIT_SUMMARY (R446). -/
def execAuditSummary (p : CyzonPath) (pkt : List Byte) (s : State) : Host.Outcome State Fault Refusal := .next (auditSummary s p pkt)

/-- PIN (R450). -/
def execPin (p : CyzonPath) (pkt : List Byte) (s : State) : Host.Outcome State Fault Refusal := .next (pinVersion s p pkt)

/-- UNPIN (R450). -/
def execUnpin (p : CyzonPath) (pkt : List Byte) (s : State) : Host.Outcome State Fault Refusal := .next (unpinVersion s p pkt)

/-- HOLD_CLEAR (R432). -/
def execHoldClear (p : CyzonPath) (pkt : List Byte) (s : State) : Host.Outcome State Fault Refusal := .next (holdClear s p pkt)

/-- EXPORT_OPEN (R451). -/
def execExportOpen (p : CyzonPath) (pkt : List Byte) (s : State) : Host.Outcome State Fault Refusal := .next (exportOpen s p pkt)

/-- EXPORT_READ (R452). -/
def execExportRead (p : CyzonPath) (pkt : List Byte) (s : State) : Host.Outcome State Fault Refusal := .next (exportRead s p pkt)

/-- EXPORT_CLOSE (R451). -/
def execExportClose (p : CyzonPath) (pkt : List Byte) (s : State) : Host.Outcome State Fault Refusal := .next (exportClose s p pkt)

/-- LOG_READ (R503). -/
def execLogRead (p : CyzonPath) (pkt : List Byte) (s : State) : Host.Outcome State Fault Refusal := .next (logRead s p pkt)

/-- EN_SET (R538). -/
def execEnSet (p : Port) (b : Fin 20) (s : State) : Host.Outcome State Fault Refusal := .next (enSetCmd s p b)

/-- EN_CLEAR (R540). -/
def execEnClear (p : Port) (b : Fin 20) (s : State) : Host.Outcome State Fault Refusal := .next (enClearCmd s p b)

/-- KEYLOCK_WRITE (R543). -/
def execKeylockWrite (p : Port) (b : Fin 20) (w : Word) (s : State) : Host.Outcome State Fault Refusal := .next (keylockWrite s p b w)

/-- REGISTER_WRITE (R539). -/
def execRegisterWrite (p : Port) (b : Fin 256) (o : Fin 16384) (be : BitVec 4) (ws : List Word) (e : WriteEnv) (s : State) : Host.Outcome State Fault Refusal := .next (registerWrite s p b o be ws e)

/-- SHD_VALID_WRITE (R295). -/
def execShdValidWrite (p : Port) (n : Fin 40) (c : Option (Fin 4096)) (s : State) : Host.Outcome State Fault Refusal := .next (shdValidWrite s p n c)

/-- PAUSE_WRITE (R297). -/
def execPauseWrite (p : Port) (n : Fin 40) (on : Bool) (left : Nat) (host : List Byte) (s : State) : Host.Outcome State Fault Refusal := .next (pauseWriteCmd s p n on left host)

/-- FLT_INJ_GO (R506). -/
def execFltInjGo (p : Port) (kind : Fin 8) (duration : Fin 256) (target : Fin 65536) (b : Boot) (s : State) : Host.Outcome State Fault Refusal := .next (fltInjGo s p kind duration target b)

/-- FAULT_INJECT_END (R506). -/
def execFaultInjectEnd (s : State) : Host.Outcome State Fault Refusal := .next (faultInjectEnd s)

/-- ACT_FLIP_ARM (R132). -/
def execActFlipArm (p : Port) (n mode : Fin 4) (span : Fin 4096) (s : State) : Host.Outcome State Fault Refusal := .next (actFlipArm s p n mode span)

/-- CHECKER_TEST_RUN (R131). -/
def execCheckerTestRun (act : Fin 4) (soft : Option (List Soft)) (dead : Bool) (grate : Fin 14) (s : State) : Host.Outcome State Fault Refusal := .next (checkerRun s act soft dead grate)

/-- HOB_FLIP_ARM (R277). -/
def execHobFlipArm (p : Port) (check : BitVec 8) (word : Fin 2048) (s : State) : Host.Outcome State Fault Refusal := .next (hobFlipArm s p check word)

/-- HOB_FLIP_WORD_WRITE (R276). -/
def execHobFlipWordWrite (data : DWord) (s : State) : Host.Outcome State Fault Refusal := .next (hobFlipWordWrite s data)

/-- HOB_FLIP_WORD_READ (R276). -/
def execHobFlipWordRead (dead : Bool) (s : State) : Host.Outcome State Fault Refusal := .next (hobFlipWordRead s dead)

/-- IRATE1_READ (R108). -/
def execIrate1Read (act : Fin 4) (s : State) : Host.Outcome State Fault Refusal := .next (irate1Read s act)

/-- CE_LOG_WORD0_READ (R141). -/
def execCeLogWord0Read (p : Port) (k : Fin 6) (entry : Fin 16) (s : State) : Host.Outcome State Fault Refusal := .next (ceLogWord0Read s p k entry)

/-- DMP_STAT_READ (R185). -/
def execDmpStatRead (p : Port) (n : Fin 6) (s : State) : Host.Outcome State Fault Refusal := .next (dmpStatRead s p n)

/-- EDIT_WINDOW_EXPIRE (R439). -/
def execEditWindowExpire (s : State) : Host.Outcome State Fault Refusal := .next (editWindowExpire s)

/-- CONFIG_CRC_COMPARE (R439). -/
def execConfigCrcCompare (live again : Option Word) (s : State) : Host.Outcome State Fault Refusal := .next (configCrcCompare s live again)

/-- DRAFT_UPDATE (R33). -/
def execDraftUpdate (s : State) : Host.Outcome State Fault Refusal := .next (draftUpdate s)

/-- BANKING_TIMER_EXPIRE (R202). -/
def execBankingTimerExpire (s : State) : Host.Outcome State Fault Refusal := .next (bankingTimerExpire s)

/-- START_MEASURE_DONE (R212). -/
def execStartMeasureDone (m : EmfSeen) (rises : List Qty) (s : State) : Host.Outcome State Fault Refusal := .next (startMeasureDone s m rises)

/-- ROTOR_ALIGN_DONE (R214). -/
def execRotorAlignDone (s : State) : Host.Outcome State Fault Refusal := .next (rotorAlignDone s)

/-- OBSERVER_HANDOVER (R215). -/
def execObserverHandover (s : State) : Host.Outcome State Fault Refusal := .next (observerHandover s)

/-- REST_DECLARED (R212). -/
def execRestDeclared (rises : List Qty) (s : State) : Host.Outcome State Fault Refusal := .next (restDeclared s rises)

/-- CURRENT_LOOP_CYCLE (R191). -/
def execCurrentLoopCycle (smp : CurSample) (vm : Qty) (s : State) : Host.Outcome State Fault Refusal := .next (currentLoopCycle s smp vm)

/-- SPEED_LOOP_CYCLE (R196). -/
def execSpeedLoopCycle (s : State) : Host.Outcome State Fault Refusal := .next (speedLoopCycle s)

/-- RECATCH_COMPLETE (R221). -/
def execRecatchComplete (s : State) : Host.Outcome State Fault Refusal := .next (recatchComplete s)

/-- SPEED_SETTLED (R199). -/
def execSpeedSettled (s : State) : Host.Outcome State Fault Refusal := .next (speedSettled s)

/-- SPEED_TARGET_APPLY (R198). -/
def execSpeedTargetApply (s : State) : Host.Outcome State Fault Refusal := .next (speedTargetApply s)

/-- TARGET_CHANGE_ACK (R147). -/
def execTargetChangeAck (act : Fin 4) (s : State) : Host.Outcome State Fault Refusal := .next (targetChangeAck s act)

/-- VCAP_UPDATE (R209). -/
def execVcapUpdate (vm : Qty) (s : State) : Host.Outcome State Fault Refusal := .next (vcapUpdate s vm)

/-- VCAP_RECOVER_START (R211). -/
def execVcapRecoverStart (s : State) : Host.Outcome State Fault Refusal := .next (vcapRecoverStart s)

/-- COPPER_LOSS_MEASURE (R226). -/
def execCopperLossMeasure (s : State) : Host.Outcome State Fault Refusal := .next (copperLossMeasure s)

/-- COG_TABLE_SWITCH (R220). -/
def execCogTableSwitch (s : State) : Host.Outcome State Fault Refusal := .next (cogTableSwitch s)

/-- SERVO_SAMPLE (R163). -/
def execServoSample (act : Fin 4) (w : WedgeSample) (s : State) : Host.Outcome State Fault Refusal := .next (servoSample s act w)

/-- ACTUATOR_OUTPUT_UPDATE (R168). -/
def execActuatorOutputUpdate (act : Fin 4) (bridge : Bool) (s : State) : Host.Outcome State Fault Refusal := .next (actuatorOutputUpdate s act bridge)

/-- LOST_SERVO (R180). -/
def execLostServo (act : Fin 4) (s : State) : Host.Outcome State Fault Refusal := .next (lostServo s act)

/-- LOST_SERVO_TIMEOUT (R180). -/
def execLostServoTimeout (act : Fin 4) (s : State) : Host.Outcome State Fault Refusal := .next (lostServoTimeout s act)

/-- DAMPER_MIRROR_CHECK (R183). -/
def execDamperMirrorCheck (engine : Fin 6) (c1 c2 : Int) (s : State) : Host.Outcome State Fault Refusal := .next (damperMirrorCheck s engine c1 c2)

/-- ACCELEROMETER_SAMPLE (R176). -/
def execAccelerometerSample (a0 a1 : AccReading) (s : State) : Host.Outcome State Fault Refusal := .next (accelerometerSample s a0 a1)

/-- SHOCK_CLEAR (R178). -/
def execShockClear (s : State) : Host.Outcome State Fault Refusal := .next (shockClear s)

/-- SEEK_REQUEST (R173). -/
def execSeekRequest (act : Fin 4) (p : Pos) (write : Bool) (s : State) : Host.Outcome State Fault Refusal := .next (seekRequest s act p write)

/-- HEAD_SWITCH (R155). -/
def execHeadSwitch (act : Fin 4) (zone : Nat) (diodes : Qty × Qty) (ok : Bool) (s : State) : Host.Outcome State Fault Refusal := .next (headSwitch s act zone diodes ok)

/-- HEAD_LOAD (R181). -/
def execHeadLoad (act : Fin 4) (s : State) : Host.Outcome State Fault Refusal := .next (headLoad s act)

/-- HEAD_UNLOAD (R181). -/
def execHeadUnload (act : Fin 4) (s : State) : Host.Outcome State Fault Refusal := .next (headUnload s act)

/-- PARK_RELEASE (R181). -/
def execParkRelease (act : Fin 4) (s : State) : Host.Outcome State Fault Refusal := .next (parkRelease s act)

/-- MICROACTUATOR_GAIN_MEASURE (R170). -/
def execMicroactuatorGainMeasure (act : Fin 4) (m1 m2 m3 : List Qty) (s : State) : Host.Outcome State Fault Refusal := .next (microactuatorGainMeasure s act m1 m2 m3)

/-- BIAS_TABLE_SWITCH (R167). -/
def execBiasTableSwitch (act : Fin 4) (s : State) : Host.Outcome State Fault Refusal := .next (biasTableSwitch s act)

/-- SHINGLE_READBACK (R179). -/
def execShingleReadback (act : Fin 4) (soft : List (Option (List Soft))) (s : State) : Host.Outcome State Fault Refusal := .next (shingleReadback s act soft)

/-- ROUTINE_START (R315). -/
def execRoutineStart (sq : Fin 5) (t : RoutineStart) (s : State) : Host.Outcome State Fault Refusal := .next (routineStart s sq t)

/-- NEXT (R316). -/
def execNext (sq : Fin 5) (ce : Bool) (s : State) : Host.Outcome State Fault Refusal := .next (mwNext s sq ce)

/-- WAIT (R319). -/
def execWait (sq : Fin 5) (ce : Bool) (s : State) : Host.Outcome State Fault Refusal := .next (mwWait s sq ce)

/-- WAIT_TIMEOUT (R319). -/
def execWaitTimeout (sq : Fin 5) (s : State) : Host.Outcome State Fault Refusal := .next (waitTimeout s sq)

/-- BRT (R316). -/
def execBrt (sq : Fin 5) (ce : Bool) (s : State) : Host.Outcome State Fault Refusal := .next (mwBrt s sq ce)

/-- BRF (R316). -/
def execBrf (sq : Fin 5) (ce : Bool) (s : State) : Host.Outcome State Fault Refusal := .next (mwBrf s sq ce)

/-- CALL (R317). -/
def execCall (sq : Fin 5) (ce : Bool) (s : State) : Host.Outcome State Fault Refusal := .next (mwCall s sq ce)

/-- RET (R317). -/
def execRet (sq : Fin 5) (ce : Bool) (s : State) : Host.Outcome State Fault Refusal := .next (mwRet s sq ce)

/-- LOOP (R316). -/
def execLoop (sq : Fin 5) (ce : Bool) (s : State) : Host.Outcome State Fault Refusal := .next (mwLoop s sq ce)

/-- END (R315). -/
def execSeqEnd (sq : Fin 5) (ce : Bool) (s : State) : Host.Outcome State Fault Refusal := .next (mwEnd s sq ce)

/-- CONTROL_STORE_RELOAD (R318). -/
def execControlStoreReload (sq : Fin 5) (nano : Bool) (addr : Nat) (s : State) : Host.Outcome State Fault Refusal := .next (controlStoreReload s sq nano addr)

/-- SEQ_WATCHDOG (R332). -/
def execSeqWatchdog (sq : Fin 5) (s : State) : Host.Outcome State Fault Refusal := .next (seqWatchdog s sq)

/-- MICRO_TRAP (R321). -/
def execMicroTrap (sq : Fin 5) (s : State) : Host.Outcome State Fault Refusal := .next (microTrap s sq)

/-- TRAP_RESUME (R322). -/
def execTrapResume (sq : Fin 5) (s : State) : Host.Outcome State Fault Refusal := .next (trapResume s sq)

/-- TABLE_SWITCH_REQUEST (R326). -/
def execTableSwitchRequest (s : State) : Host.Outcome State Fault Refusal := .next (tableSwitchRequest s)

/-- TABLE_SWITCH (R326). -/
def execTableSwitch (s : State) : Host.Outcome State Fault Refusal := .next (tableSwitch s)

/-- MICROCODE_PATCH (R328). -/
def execMicrocodePatch (image : List Byte) (s : State) : Host.Outcome State Fault Refusal := .next (microcodePatch s image)

/-- PATCH_APPLY_SEQUENCER (R329). -/
def execPatchApplySequencer (sq : Fin 5) (s : State) : Host.Outcome State Fault Refusal := .next (patchApply s sq)

/-- READ_WINDOW_OPEN (R89). -/
def execReadWindowOpen (req : Fin 8192) (leaf : Nat) (far : Bool) (s : State) : Host.Outcome State Fault Refusal := .next (readWindowOpen s req leaf far)

/-- FRAME_LOCATE (R94). -/
def execFrameLocate (act : Fin 4) (smp : Samples) (s : State) : Host.Outcome State Fault Refusal := .next (frameLocate s act smp)

/-- BLIND_REREAD (R96). -/
def execBlindReread (act : Fin 4) (smp : Samples) (s : State) : Host.Outcome State Fault Refusal := .next (blindReread s act smp)

/-- CODEWORD_COMPLETE (R32). -/
def execCodewordComplete (act : Fin 4) (smp : Samples) (s : State) : Host.Outcome State Fault Refusal := .next (codewordComplete s act smp)

/-- SLICE_MONITOR_BLOCK (R79). -/
def execSliceMonitorBlock (lane : Fin 10) (means squares : List Qty) (s : State) : Host.Outcome State Fault Refusal := .next (sliceMonitorBlock s lane means squares)

/-- CHANNEL_STATE_RESTORE (R101). -/
def execChannelStateRestore (act : Fin 4) (s : State) : Host.Outcome State Fault Refusal := .next (channelStateRestore s act)

/-- FILTER_RETUNE (R100). -/
def execFilterRetune (act : Fin 4) (s : State) : Host.Outcome State Fault Refusal := .next (filterRetune s act)

/-- LANE_SPARE_SWITCH (R72). -/
def execLaneSpareSwitch (spare : Fin 2) (s : State) : Host.Outcome State Fault Refusal := .next (laneSpareSwitch s spare)

/-- LANE_CALIBRATION (R73). -/
def execLaneCalibration (spare : Fin 2) (m1 m2 m3 : LaneMeas) (s : State) : Host.Outcome State Fault Refusal := .next (laneCalibration s spare m1 m2 m3)

/-- LEAF_ENCODE (R112). -/
def execLeafEncode (act : Fin 4) (flips : List Nat) (s : State) : Host.Outcome State Fault Refusal := .next (leafEncode s act flips)

/-- FRAME_WRITE (R146). -/
def execFrameWrite (act : Fin 4) (rate : Qty) (s : State) : Host.Outcome State Fault Refusal := .next (frameWrite s act rate)

/-- FRAME_WRITE_COMPLETE (R151). -/
def execFrameWriteComplete (act : Fin 4) (s : State) : Host.Outcome State Fault Refusal := .next (frameWriteComplete s act)

/-- VERIFY_READ (R151). -/
def execVerifyRead (act : Fin 4) (index : Nat) (soft : Option (List Soft)) (s : State) : Host.Outcome State Fault Refusal := .next (verifyRead s act index soft)

/-- PA_FAULT_ASSERT (R156). -/
def execPaFaultAssert (act : Fin 4) (flags : BitVec 8) (s : State) : Host.Outcome State Fault Refusal := .next (paFaultAssert s act flags)

/-- PA_WRITE_HOLD_EXPIRE (R156). -/
def execPaWriteHoldExpire (act : Fin 4) (flags : BitVec 8) (s : State) : Host.Outcome State Fault Refusal := .next (paWriteHoldExpire s act flags)

/-- GRATE_TAKE_CODEWORD (R32). -/
def execGrateTakeCodeword (grate : Fin 14) (s : State) : Host.Outcome State Fault Refusal := .next (grateTakeCodeword s grate)

/-- GRATE_DECODE_DONE (R117). -/
def execGrateDecodeDone (grate : Fin 14) (bad : Bool) (s : State) : Host.Outcome State Fault Refusal := .next (grateDecodeDone s grate bad)

/-- COLLECTOR_SERVE (R118). -/
def execCollectorServe (s : State) : Host.Outcome State Fault Refusal := .next (collectorServe s)

/-- GRATE_KAT_DUE (R126). -/
def execGrateKatDue (grate : Fin 14) (pass : Bool) (s : State) : Host.Outcome State Fault Refusal := .next (grateKatDue s grate pass)

/-- SPARE_GRATE_KAT (R126). -/
def execSpareGrateKat (grate : Fin 14) (pass : Bool) (s : State) : Host.Outcome State Fault Refusal := .next (spareGrateKat s grate pass)

/-- SEQUENCER_KAT (R332). -/
def execSequencerKat (sq : Fin 5) (pass : Bool) (s : State) : Host.Outcome State Fault Refusal := .next (sequencerKat s sq pass)

/-- STRIPE_ENGINE_SOLVE (R244). -/
def execStripeEngineSolve (src : Fin 8192) (s : State) : Host.Outcome State Fault Refusal := .next (stripeEngineSolve s src)

/-- COPY_FORWARD (R246). -/
def execCopyForward (why : CopyWhy) (s : State) : Host.Outcome State Fault Refusal := .next (copyForward s why)

/-- SCRUB_PASS (R130). -/
def execScrubPass (s : State) : Host.Outcome State Fault Refusal := .next (scrubPass s)

/-- CACHE_LINE_FILL (R282). -/
def execCacheLineFill (set : Fin 48) (way : Fin 16) (subs : BitVec 8) (s : State) : Host.Outcome State Fault Refusal := .next (cacheLineFill s set way subs)

/-- CACHE_EVICT_COMPLETE (R281). -/
def execCacheEvictComplete (set : Fin 48) (way : Fin 16) (s : State) : Host.Outcome State Fault Refusal := .next (cacheEvictComplete s set way)

/-- HOB_PATROL_SCRUB (R270). -/
def execHobPatrolScrub (array : EccArray) (err : WordErr) (s : State) : Host.Outcome State Fault Refusal := .next (hobPatrolScrub s array err)

/-- FLUE_DESCRIPTOR_DONE (R294). -/
def execFlueDescriptorDone (chan : Fin 40) (host : List Byte) (s : State) : Host.Outcome State Fault Refusal := .next (flueDescriptorDone s chan host)

/-- FLUE_BUS_ERROR (R298). -/
def execFlueBusError (chan : Fin 40) (atDst : Bool) (left : Nat) (host : List Byte) (s : State) : Host.Outcome State Fault Refusal := .next (flueBusError s chan atDst left host)

/-- ERROR_PAIR_REPORT (R487). -/
def execErrorPairReport (ps : List PairSample) (s : State) : Host.Outcome State Fault Refusal := .next (errorPairReport s ps)

/-- LOCKSTEP_WATCHDOG_LATE (R491). -/
def execLockstepWatchdogLate (n : Fin 2) (s : State) : Host.Outcome State Fault Refusal := .next (lockstepWatchdogLate s n)

/-- FAIL_STOP_BANK_LIMIT (R493). -/
def execFailStopBankLimit (s : State) : Host.Outcome State Fault Refusal := .next (failStopBankLimit s)

/-- HEARTBEAT_TOGGLE (R496). -/
def execHeartbeatToggle (s : State) : Host.Outcome State Fault Refusal := .next (heartbeatToggle s)

/-- ASH_RECORD_WRITE (R501). -/
def execAshRecordWrite (s : State) : Host.Outcome State Fault Refusal := .next (ashRecordWrite s)

/-- MARGIN_WARN (R515). -/
def execMarginWarn (isl : Fin 10) (s : State) : Host.Outcome State Fault Refusal := .next (marginWarn s isl)

/-- MARGIN_WARN_CLEAR (R511). -/
def execMarginWarnClear (s : State) : Host.Outcome State Fault Refusal := .next (marginWarnClear s)

/-- MARGIN_LOST (R511). -/
def execMarginLost (isl : Fin 10) (b : Boot) (s : State) : Host.Outcome State Fault Refusal := .next (marginLost s isl b)

/-- VMOT_LOSS (R210). -/
def execVmotLoss (s : State) : Host.Outcome State Fault Refusal := .next (vmotLoss s)

/-- VIN_TRIAL (R517). -/
def execVinTrial (s : State) : Host.Outcome State Fault Refusal := .next (vinTrial s)

/-- VIN_TRIAL_PASS (R517). -/
def execVinTrialPass (s : State) : Host.Outcome State Fault Refusal := .next (vinTrialPass s)

/-- VIN_NOT_BACK (R517). -/
def execVinNotBack (s : State) : Host.Outcome State Fault Refusal := .next (vinNotBack s)

/-- BANKING_SEQUENCE_END (R517). -/
def execBankingSequenceEnd (vinLost : Bool) (s : State) : Host.Outcome State Fault Refusal := .next (bankingSequenceEnd s vinLost)

/-- VMOT_RETURN (R517). -/
def execVmotReturn (s : State) : Host.Outcome State Fault Refusal := .next (vmotReturn s)

/-- POWER_ON_RESET (R520). -/
def execPowerOnReset (b : Boot) (s : State) : Host.Outcome State Fault Refusal := .next (powerOn s b)

/-- EMBER_RESTORE (R521). -/
def execEmberRestore (lost : List (Nat × Nat)) (s : State) : Host.Outcome State Fault Refusal := .next (emberRestore s lost)

/-- SVN_FUSE_BLOW (R464). -/
def execSvnFuseBlow (s : State) : Host.Outcome State Fault Refusal := .next (svnFuseBlow s)

/-- TAMPER_EDGE (R480). -/
def execTamperEdge (inReset : Bool) (s : State) : Host.Outcome State Fault Refusal := .next (tamperEdge s inReset)

/-- HEARTHSTONE_OP_RETRY (R481). -/
def execHearthstoneOpRetry (s : State) : Host.Outcome State Fault Refusal := .next (hearthstoneOpRetry s)

/-- ENTROPY_TEST_FAIL (R483). -/
def execEntropyTestFail (startOk : Bool) (s : State) : Host.Outcome State Fault Refusal := .next (entropyTestFail s startOk)

/-- JUNCTION_SENSE (R569). -/
def execJunctionSense (hearth bellows : Int) (s : State) : Host.Outcome State Fault Refusal := .next (junctionSense s hearth bellows)

/-- PERST_DEASSERT (R577). -/
def execPerstDeassert (s : State) : Host.Outcome State Fault Refusal := .next (perstDeassert s)

/-- LINK_UP (R372). -/
def execLinkUp (rate : Fin 6) (width : Fin 5) (s : State) : Host.Outcome State Fault Refusal := .next (linkUp s rate width)

/-- AGGREGATION_TIME_EXPIRE (R349). -/
def execAggregationTimeExpire (v : Fin 65) (s : State) : Host.Outcome State Fault Refusal := .next (aggregationTimeExpire s v)

/-- BUCK_RESTART (R517). -/
def execBuckRestart (b : Boot) (s : State) : Host.Outcome State Fault Refusal := .next (buckRestart s b)

/-- RAMP_STOP (R181). -/
def execRampStop (act : Fin 4) (s : State) : Host.Outcome State Fault Refusal := .next (rampStop s act)

end Sys2Proof.Machine
end

