-- ==== Sys2Proof/Machine/Dispatch.lean ====
section
/-! DEFINITION. Which meaning each command has. -/
namespace Sys2Proof.Machine
open Sys2Proof

def exec (i : Instr) (s : State) : Host.Outcome State Fault Refusal :=
  match i with
  | .sqDoorbellWrite q value => Sys2Proof.Machine.execSqDoorbellWrite q value s
  | .cqDoorbellWrite q value => Sys2Proof.Machine.execCqDoorbellWrite q value s
  | .commandAccept q e => Sys2Proof.Machine.execCommandAccept q e s
  | .completionPost c => Sys2Proof.Machine.execCompletionPost c s
  | .ccEnSet asqSize acqSize ams mps => Sys2Proof.Machine.execCcEnSet asqSize acqSize ams mps s
  | .ccEnClear => Sys2Proof.Machine.execCcEnClear s
  | .ccShnShutdown abrupt => Sys2Proof.Machine.execCcShnShutdown abrupt s
  | .functionLevelReset => Sys2Proof.Machine.execFunctionLevelReset s
  | .hotResetLinkDown => Sys2Proof.Machine.execHotResetLinkDown s
  | .perstAssert => Sys2Proof.Machine.execPerstAssert s
  | .deleteIoSq c cids => Sys2Proof.Machine.execDeleteIoSq c cids s
  | .createIoSq c => Sys2Proof.Machine.execCreateIoSq c s
  | .deleteIoCq c => Sys2Proof.Machine.execDeleteIoCq c s
  | .createIoCq c => Sys2Proof.Machine.execCreateIoCq c s
  | .getLogPage c => Sys2Proof.Machine.execGetLogPage c s
  | .identify c => Sys2Proof.Machine.execIdentify c s
  | .abort c => Sys2Proof.Machine.execAbort c s
  | .setFeatures c => Sys2Proof.Machine.execSetFeatures c s
  | .getFeatures c => Sys2Proof.Machine.execGetFeatures c s
  | .asynchronousEventRequest c => Sys2Proof.Machine.execAsynchronousEventRequest c s
  | .firmwareImageDownload c data => Sys2Proof.Machine.execFirmwareImageDownload c data s
  | .firmwareCommit c => Sys2Proof.Machine.execFirmwareCommit c s
  | .firmwareActivationResume => Sys2Proof.Machine.execFirmwareActivationResume s
  | .firmwareActivationComplete => Sys2Proof.Machine.execFirmwareActivationComplete s
  | .formatNvm c => Sys2Proof.Machine.execFormatNvm c s
  | .sanitize c => Sys2Proof.Machine.execSanitize c s
  | .mediaOperationProgress ok => Sys2Proof.Machine.execMediaOperationProgress ok s
  | .cyzonReceive c => Sys2Proof.Machine.execCyzonReceive c s
  | .attestationNonce c data => Sys2Proof.Machine.execAttestationNonce c data s
  | .attestationReportRead c => Sys2Proof.Machine.execAttestationReportRead c s
  | .certificateChainRead c => Sys2Proof.Machine.execCertificateChainRead c s
  | .lifecycleChallengeRead c => Sys2Proof.Machine.execLifecycleChallengeRead c s
  | .lifecycleToken c data boot => Sys2Proof.Machine.execLifecycleToken c data boot s
  | .integratorKeyEnrol c key sig => Sys2Proof.Machine.execIntegratorKeyEnrol c key sig s
  | .level0Discovery c => Sys2Proof.Machine.execLevel0Discovery c s
  | .properties c => Sys2Proof.Machine.execProperties c s
  | .startSession c sp write auth => Sys2Proof.Machine.execStartSession c sp write auth s
  | .endSession c => Sys2Proof.Machine.execEndSession c s
  | .authenticate c a pin => Sys2Proof.Machine.execAuthenticate c a pin s
  | .opalGet c cells => Sys2Proof.Machine.execOpalGet c cells s
  | .opalSet c sets => Sys2Proof.Machine.execOpalSet c sets s
  | .opalNext c table from_ count => Sys2Proof.Machine.execOpalNext c table from_ count s
  | .genKey c r => Sys2Proof.Machine.execGenKey c r s
  | .opalRandom c n => Sys2Proof.Machine.execOpalRandom c n s
  | .opalActivate c => Sys2Proof.Machine.execOpalActivate c s
  | .revert c => Sys2Proof.Machine.execRevert c s
  | .revertSp c => Sys2Proof.Machine.execRevertSp c s
  | .putOpen c => Sys2Proof.Machine.execPutOpen c s
  | .putData c data => Sys2Proof.Machine.execPutData c data s
  | .putCommit c expected => Sys2Proof.Machine.execPutCommit c expected s
  | .putAbort c => Sys2Proof.Machine.execPutAbort c s
  | .get c => Sys2Proof.Machine.execGet c s
  | .stat c => Sys2Proof.Machine.execStat c s
  | .list c => Sys2Proof.Machine.execList c s
  | .copy c => Sys2Proof.Machine.execCopy c s
  | .delete c => Sys2Proof.Machine.execDelete c s
  | .hold c => Sys2Proof.Machine.execHold c s
  | .sync c => Sys2Proof.Machine.execSync c s
  | .receipt c => Sys2Proof.Machine.execReceipt c s
  | .flush c => Sys2Proof.Machine.execFlush c s
  | .zoneWrite c data => Sys2Proof.Machine.execZoneWrite c data s
  | .zoneRead c => Sys2Proof.Machine.execZoneRead c s
  | .zoneAppend c data => Sys2Proof.Machine.execZoneAppend c data s
  | .zoneOpen c => Sys2Proof.Machine.execZoneOpen c s
  | .zoneClose c => Sys2Proof.Machine.execZoneClose c s
  | .zoneFinish c => Sys2Proof.Machine.execZoneFinish c s
  | .zoneReset c => Sys2Proof.Machine.execZoneReset c s
  | .reportZones c => Sys2Proof.Machine.execReportZones c s
  | .result p pkt => Sys2Proof.Machine.execResult p pkt s
  | .identifyCyzon p pkt => Sys2Proof.Machine.execIdentifyCyzon p pkt s
  | .health p pkt => Sys2Proof.Machine.execHealth p pkt s
  | .irateMeasure p pkt => Sys2Proof.Machine.execIrateMeasure p pkt s
  | .checkerTest p pkt => Sys2Proof.Machine.execCheckerTest p pkt s
  | .profileLoad p pkt => Sys2Proof.Machine.execProfileLoad p pkt s
  | .profileActivate p pkt => Sys2Proof.Machine.execProfileActivate p pkt s
  | .profileActivateResume => Sys2Proof.Machine.execProfileActivateResume s
  | .commit p pkt => Sys2Proof.Machine.execCommit p pkt s
  | .regRead p pkt => Sys2Proof.Machine.execRegRead p pkt s
  | .regWrite p pkt => Sys2Proof.Machine.execRegWrite p pkt s
  | .mediaProgress p pkt => Sys2Proof.Machine.execMediaProgress p pkt s
  | .auditStart p pkt => Sys2Proof.Machine.execAuditStart p pkt s
  | .auditVersionCheck => Sys2Proof.Machine.execAuditVersionCheck s
  | .auditEntries p pkt => Sys2Proof.Machine.execAuditEntries p pkt s
  | .auditSummary p pkt => Sys2Proof.Machine.execAuditSummary p pkt s
  | .pin p pkt => Sys2Proof.Machine.execPin p pkt s
  | .unpin p pkt => Sys2Proof.Machine.execUnpin p pkt s
  | .holdClear p pkt => Sys2Proof.Machine.execHoldClear p pkt s
  | .exportOpen p pkt => Sys2Proof.Machine.execExportOpen p pkt s
  | .exportRead p pkt => Sys2Proof.Machine.execExportRead p pkt s
  | .exportClose p pkt => Sys2Proof.Machine.execExportClose p pkt s
  | .logRead p pkt => Sys2Proof.Machine.execLogRead p pkt s
  | .enSet p b => Sys2Proof.Machine.execEnSet p b s
  | .enClear p b => Sys2Proof.Machine.execEnClear p b s
  | .keylockWrite p b w => Sys2Proof.Machine.execKeylockWrite p b w s
  | .registerWrite p b o be ws e => Sys2Proof.Machine.execRegisterWrite p b o be ws e s
  | .shdValidWrite p n c => Sys2Proof.Machine.execShdValidWrite p n c s
  | .pauseWrite p n on left host => Sys2Proof.Machine.execPauseWrite p n on left host s
  | .fltInjGo p kind duration target b => Sys2Proof.Machine.execFltInjGo p kind duration target b s
  | .faultInjectEnd => Sys2Proof.Machine.execFaultInjectEnd s
  | .actFlipArm p n mode span => Sys2Proof.Machine.execActFlipArm p n mode span s
  | .checkerTestRun act soft dead grate => Sys2Proof.Machine.execCheckerTestRun act soft dead grate s
  | .hobFlipArm p check word => Sys2Proof.Machine.execHobFlipArm p check word s
  | .hobFlipWordWrite data => Sys2Proof.Machine.execHobFlipWordWrite data s
  | .hobFlipWordRead dead => Sys2Proof.Machine.execHobFlipWordRead dead s
  | .irate1Read act => Sys2Proof.Machine.execIrate1Read act s
  | .ceLogWord0Read p k entry => Sys2Proof.Machine.execCeLogWord0Read p k entry s
  | .dmpStatRead p n => Sys2Proof.Machine.execDmpStatRead p n s
  | .editWindowExpire => Sys2Proof.Machine.execEditWindowExpire s
  | .configCrcCompare live again => Sys2Proof.Machine.execConfigCrcCompare live again s
  | .draftUpdate => Sys2Proof.Machine.execDraftUpdate s
  | .bankingTimerExpire => Sys2Proof.Machine.execBankingTimerExpire s
  | .startMeasureDone m rises => Sys2Proof.Machine.execStartMeasureDone m rises s
  | .rotorAlignDone => Sys2Proof.Machine.execRotorAlignDone s
  | .observerHandover => Sys2Proof.Machine.execObserverHandover s
  | .restDeclared rises => Sys2Proof.Machine.execRestDeclared rises s
  | .currentLoopCycle smp vm => Sys2Proof.Machine.execCurrentLoopCycle smp vm s
  | .speedLoopCycle => Sys2Proof.Machine.execSpeedLoopCycle s
  | .recatchComplete => Sys2Proof.Machine.execRecatchComplete s
  | .speedSettled => Sys2Proof.Machine.execSpeedSettled s
  | .speedTargetApply => Sys2Proof.Machine.execSpeedTargetApply s
  | .targetChangeAck act => Sys2Proof.Machine.execTargetChangeAck act s
  | .vcapUpdate vm => Sys2Proof.Machine.execVcapUpdate vm s
  | .vcapRecoverStart => Sys2Proof.Machine.execVcapRecoverStart s
  | .copperLossMeasure => Sys2Proof.Machine.execCopperLossMeasure s
  | .cogTableSwitch => Sys2Proof.Machine.execCogTableSwitch s
  | .servoSample act w => Sys2Proof.Machine.execServoSample act w s
  | .actuatorOutputUpdate act bridge => Sys2Proof.Machine.execActuatorOutputUpdate act bridge s
  | .lostServo act => Sys2Proof.Machine.execLostServo act s
  | .lostServoTimeout act => Sys2Proof.Machine.execLostServoTimeout act s
  | .damperMirrorCheck engine c1 c2 => Sys2Proof.Machine.execDamperMirrorCheck engine c1 c2 s
  | .accelerometerSample a0 a1 => Sys2Proof.Machine.execAccelerometerSample a0 a1 s
  | .shockClear => Sys2Proof.Machine.execShockClear s
  | .seekRequest act p write => Sys2Proof.Machine.execSeekRequest act p write s
  | .headSwitch act zone diodes ok => Sys2Proof.Machine.execHeadSwitch act zone diodes ok s
  | .headLoad act => Sys2Proof.Machine.execHeadLoad act s
  | .headUnload act => Sys2Proof.Machine.execHeadUnload act s
  | .parkRelease act => Sys2Proof.Machine.execParkRelease act s
  | .microactuatorGainMeasure act m1 m2 m3 => Sys2Proof.Machine.execMicroactuatorGainMeasure act m1 m2 m3 s
  | .biasTableSwitch act => Sys2Proof.Machine.execBiasTableSwitch act s
  | .shingleReadback act soft => Sys2Proof.Machine.execShingleReadback act soft s
  | .routineStart sq t => Sys2Proof.Machine.execRoutineStart sq t s
  | .next sq ce => Sys2Proof.Machine.execNext sq ce s
  | .wait sq ce => Sys2Proof.Machine.execWait sq ce s
  | .waitTimeout sq => Sys2Proof.Machine.execWaitTimeout sq s
  | .brt sq ce => Sys2Proof.Machine.execBrt sq ce s
  | .brf sq ce => Sys2Proof.Machine.execBrf sq ce s
  | .call sq ce => Sys2Proof.Machine.execCall sq ce s
  | .ret sq ce => Sys2Proof.Machine.execRet sq ce s
  | .loop sq ce => Sys2Proof.Machine.execLoop sq ce s
  | .seqEnd sq ce => Sys2Proof.Machine.execSeqEnd sq ce s
  | .controlStoreReload sq nano addr => Sys2Proof.Machine.execControlStoreReload sq nano addr s
  | .seqWatchdog sq => Sys2Proof.Machine.execSeqWatchdog sq s
  | .microTrap sq => Sys2Proof.Machine.execMicroTrap sq s
  | .trapResume sq => Sys2Proof.Machine.execTrapResume sq s
  | .tableSwitchRequest => Sys2Proof.Machine.execTableSwitchRequest s
  | .tableSwitch => Sys2Proof.Machine.execTableSwitch s
  | .microcodePatch image => Sys2Proof.Machine.execMicrocodePatch image s
  | .patchApplySequencer sq => Sys2Proof.Machine.execPatchApplySequencer sq s
  | .readWindowOpen req leaf far => Sys2Proof.Machine.execReadWindowOpen req leaf far s
  | .frameLocate act smp => Sys2Proof.Machine.execFrameLocate act smp s
  | .blindReread act smp => Sys2Proof.Machine.execBlindReread act smp s
  | .codewordComplete act smp => Sys2Proof.Machine.execCodewordComplete act smp s
  | .sliceMonitorBlock lane means squares => Sys2Proof.Machine.execSliceMonitorBlock lane means squares s
  | .channelStateRestore act => Sys2Proof.Machine.execChannelStateRestore act s
  | .filterRetune act => Sys2Proof.Machine.execFilterRetune act s
  | .laneSpareSwitch spare => Sys2Proof.Machine.execLaneSpareSwitch spare s
  | .laneCalibration spare m1 m2 m3 => Sys2Proof.Machine.execLaneCalibration spare m1 m2 m3 s
  | .leafEncode act flips => Sys2Proof.Machine.execLeafEncode act flips s
  | .frameWrite act rate => Sys2Proof.Machine.execFrameWrite act rate s
  | .frameWriteComplete act => Sys2Proof.Machine.execFrameWriteComplete act s
  | .verifyRead act index soft => Sys2Proof.Machine.execVerifyRead act index soft s
  | .paFaultAssert act flags => Sys2Proof.Machine.execPaFaultAssert act flags s
  | .paWriteHoldExpire act flags => Sys2Proof.Machine.execPaWriteHoldExpire act flags s
  | .grateTakeCodeword grate => Sys2Proof.Machine.execGrateTakeCodeword grate s
  | .grateDecodeDone grate bad => Sys2Proof.Machine.execGrateDecodeDone grate bad s
  | .collectorServe => Sys2Proof.Machine.execCollectorServe s
  | .grateKatDue grate pass => Sys2Proof.Machine.execGrateKatDue grate pass s
  | .spareGrateKat grate pass => Sys2Proof.Machine.execSpareGrateKat grate pass s
  | .sequencerKat sq pass => Sys2Proof.Machine.execSequencerKat sq pass s
  | .stripeEngineSolve src => Sys2Proof.Machine.execStripeEngineSolve src s
  | .copyForward why => Sys2Proof.Machine.execCopyForward why s
  | .scrubPass => Sys2Proof.Machine.execScrubPass s
  | .cacheLineFill set way subs => Sys2Proof.Machine.execCacheLineFill set way subs s
  | .cacheEvictComplete set way => Sys2Proof.Machine.execCacheEvictComplete set way s
  | .hobPatrolScrub array err => Sys2Proof.Machine.execHobPatrolScrub array err s
  | .flueDescriptorDone chan host => Sys2Proof.Machine.execFlueDescriptorDone chan host s
  | .flueBusError chan atDst left host => Sys2Proof.Machine.execFlueBusError chan atDst left host s
  | .errorPairReport ps => Sys2Proof.Machine.execErrorPairReport ps s
  | .lockstepWatchdogLate n => Sys2Proof.Machine.execLockstepWatchdogLate n s
  | .failStopBankLimit => Sys2Proof.Machine.execFailStopBankLimit s
  | .heartbeatToggle => Sys2Proof.Machine.execHeartbeatToggle s
  | .ashRecordWrite => Sys2Proof.Machine.execAshRecordWrite s
  | .marginWarn isl => Sys2Proof.Machine.execMarginWarn isl s
  | .marginWarnClear => Sys2Proof.Machine.execMarginWarnClear s
  | .marginLost isl b => Sys2Proof.Machine.execMarginLost isl b s
  | .vmotLoss => Sys2Proof.Machine.execVmotLoss s
  | .vinTrial => Sys2Proof.Machine.execVinTrial s
  | .vinTrialPass => Sys2Proof.Machine.execVinTrialPass s
  | .vinNotBack => Sys2Proof.Machine.execVinNotBack s
  | .bankingSequenceEnd vinLost => Sys2Proof.Machine.execBankingSequenceEnd vinLost s
  | .vmotReturn => Sys2Proof.Machine.execVmotReturn s
  | .powerOnReset b => Sys2Proof.Machine.execPowerOnReset b s
  | .emberRestore lost => Sys2Proof.Machine.execEmberRestore lost s
  | .svnFuseBlow => Sys2Proof.Machine.execSvnFuseBlow s
  | .tamperEdge inReset => Sys2Proof.Machine.execTamperEdge inReset s
  | .hearthstoneOpRetry => Sys2Proof.Machine.execHearthstoneOpRetry s
  | .entropyTestFail startOk => Sys2Proof.Machine.execEntropyTestFail startOk s
  | .junctionSense hearth bellows => Sys2Proof.Machine.execJunctionSense hearth bellows s
  | .perstDeassert => Sys2Proof.Machine.execPerstDeassert s
  | .linkUp rate width => Sys2Proof.Machine.execLinkUp rate width s
  | .aggregationTimeExpire v => Sys2Proof.Machine.execAggregationTimeExpire v s
  | .buckRestart b => Sys2Proof.Machine.execBuckRestart b s
  | .rampStop act => Sys2Proof.Machine.execRampStop act s

end Sys2Proof.Machine
end

