-- ==== Sys2Proof/Safety.lean ====
section
/-! DEFINITION. The terms that statements are made in: a command ready in its context, a command's end, what differs between
two states, and the invariants. -/
namespace Sys2Proof.Machine
open Sys2Proof

/-! ## Commands in contexts -/

/-- A command of a kind is in a context, its turn has come and its host memory has not failed. -/
abbrev Ready (s : State) (c : Nat) (is : Ctx → Bool) (x : Ctx) : Prop :=
  ctxBy s c = some x ∧ is x = true ∧ turn s x = true ∧ c ∉ s.host.dataErr

/-- A Security Send, a Security Receive of a service. -/
abbrev Sends (s : State) (c : Nat) (is : SqEntry → Bool) (x : Ctx) : Prop := Ready s c (isAdmin 0x81) x ∧ is x.entry = true
abbrev Receives (s : State) (c : Nat) (is : SqEntry → Bool) (x : Ctx) : Prop := Ready s c (isAdmin 0x82) x ∧ is x.entry = true

/-- The completion that a context's command has ended with; none while it runs. -/
def ended (s : State) (c : Nat) : Option Completion :=
  match ctxBy s c with
  | some x => match x.phase with
    | .done r => some r
    | _ => none
  | none => none

/-- The completion that a command of a context ends with: DW1 of an object command is its acceptance number. -/
def endOf (x : Ctx) (sct sc dw0 : Nat) (data : List Byte) : Completion :=
  ⟨sct, sc, dw0, if isObject x then x.accept % 2 ^ 32 else 0, data⟩

/-- A command ends with an object status, and nothing but its context differs. -/
abbrev RefusedWith (s t : State) (c : Nat) (x : Ctx) (sc dw0 : Nat) : Prop :=
  ended t c = some (endOf x 7 sc dw0 []) ∧ t = { s with host.ctxs := t.host.ctxs } ∧ ∀ d, d ≠ c → ctxBy t d = ctxBy s d

/-- The session in a slot. -/
def sessOf (s : State) (n : Nat) : Option Session := (s.obj.slots[n]?).bind (·.sess)

/-- A version of a key. -/
def versionOf (s : State) (key : List Byte) (no : Nat) : Option Version := (objBy s key).bind fun o => verBy o no

/-- The entries that a List asks for, in order (R406). -/
def listed (s : State) (e : SqEntry) : List (List Byte) :=
  let la := e.blkNat 0 1
  let lb := e.blkNat 1 1
  let kb := slice e.block 272 lb
  ((listAll s (e.flags % 4)).filter fun p => p.1.take la == slice e.block 16 la && decide (la ≤ p.1.length) &&
    (decide (lb = 0) || keyLt kb p.1 || (kb == p.1 && decide (e.dw11.toNat < p.2.1)))).map (·.2.2)

/-- What a Hold leaves: the versions changed by `after`, each with its state record, and the command's end. -/
def holdDone (s : State) (c : Nat) (o : Obj) (vs : List Version) (after : Version → Version) (accept : Nat) : State :=
  succeed (vs.foldl (fun s v => stateWrite (onVersion s o.key v.no fun _ => after v) o (after v) accept) s) c vs.length

/-! ## Keys replaced (R473) -/

/-- Outside DECOMMISSIONED, a live version of one of the ranges is under legal hold, or under retention by the clock. -/
def keptByRetention (s : State) (x : Ctx) (rs : List Nat) : Bool :=
  decide (s.sec.lc ≠ .decommissioned) && rs.any fun r => (rangeVersions s r).any fun v => retained v.2 x.clock

/-- A read of a zone that one of the ranges covers is in progress. -/
def rangesRead (s : State) (rs : List Nat) : Bool :=
  rs.any fun r => (rangeZones s r).any fun z => (zoneGroups s z).any (groupRead s)

/-- The keys of ranges may be replaced now. -/
abbrev MayErase (s : State) (x : Ctx) (rs : List Nat) : Prop :=
  keptByRetention s x rs = false ∧ mayKey s = true ∧ rangesRead s rs = false

/-- What the replacement leaves, once the DRBG has run: keys, versions and zones, then `f`, and the method's success. -/
def erasedBy (s : State) (c : Nat) (x : Ctx) (rs : List Nat) (f : State → State) : State :=
  opalAnswer (f (rs.foldl (rangeErase (x.accept + 1)) { s with sec.op := none })) c (.success [])

/-! ## Cyzon -/

/-- The request that a packet makes on a path. -/
def cyzQ (p : CyzonPath) (pkt : List Byte) : CyzIn :=
  ⟨decide (p = .mctp), match p with | .nvme c => some c | .mctp => none, leNat (slice pkt 4 2), leNat (slice pkt 1 1), leNat (slice pkt 2 1)⟩

/-- A packet arrives: on the NVMe path its Cyzon Send is ready and carries it whole. -/
def CyzonArrives (s : State) (p : CyzonPath) (pkt : List Byte) : Prop :=
  match p with
  | .mctp => True
  | .nvme c => ∃ x, Ready s c (isAdmin 0xC0) x ∧ x.entry.dw10.toNat = pkt.length

/-- Tags open on the path of a request. -/
def openTags (s : State) (q : CyzIn) : Nat := (s.cyz.open_.filter fun t => t.1 = q.mctp).length

/-- An arriving packet whose operation is taken: intact, its tag not open, fewer than 16 open, an exclusive one alone. -/
structure CyzonTakes (s : State) (p : CyzonPath) (pkt : List Byte) (g o : Nat) : Prop where
  arrives : CyzonArrives s p pkt
  ok : pktOk (cyzQ p pkt).mctp pkt = true
  group : (cyzQ p pkt).group = g
  op : (cyzQ p pkt).op = o
  fresh : ((cyzQ p pkt).mctp, (cyzQ p pkt).tag) ∉ s.cyz.open_
  few : openTags s (cyzQ p pkt) < 16
  alone : (∃ a, (g, o, true, a) ∈ cyzOps) → exclusiveRuns s = false

/-- FLAGS.AUTH of a packet. -/
def pktAuth (pkt : List Byte) : Bool := (pkt.getD 3 0).getLsbD 1

/-- A request is answered: on the NVMe path its Send has ended, its reply is held and its tag open; on MCTP the reply is sent
and the tag open only where it is not final. -/
def Replied (t : State) (p : CyzonPath) (pkt : List Byte) (status reason : Nat) (body : List Byte) (final : Bool) : Prop :=
  let q := cyzQ p pkt
  let r : CyzonReply := ⟨q.mctp, q.tag, q.group, q.op, status, reason, body, final, q.mctp⟩
  match p with
  | .nvme c => (∃ x, ended t c = some (endOf x 0 0 (status + 256 * reason + 65536 * q.tag) [])) ∧
      heldReply t false q.tag = some r ∧ (false, q.tag) ∈ t.cyz.open_
  | .mctp => t.cyz.sent = some r ∧ ((true, q.tag) ∈ t.cyz.open_ ↔ final = false)

/-- A request is turned away with a status, and opens no tag. -/
def TurnedAway (s t : State) (p : CyzonPath) (pkt : List Byte) (status : Nat) : Prop :=
  let q := cyzQ p pkt
  match p with
  | .nvme c => (∃ x, ended t c = some (endOf x 0 0 (status + 65536 * q.tag) [])) ∧
      t = { s with host.ctxs := t.host.ctxs } ∧ ∀ d, d ≠ c → ctxBy t d = ctxBy s d
  | .mctp => t = { s with cyz.sent := some ⟨true, q.tag, q.group, q.op, status, 0, [], true, true⟩ }

/-- Operations that take their place in the acceptance order may do so now. -/
def mayPlace (s : State) : Bool := orderClear s s.host.accept && s.pwr.restored

/-! ## What differs between two states -/

/-- At most the contexts differ, and of them at most one. -/
abbrev OnlyCtx (s t : State) (c : Nat) : Prop :=
  t = { s with host.ctxs := t.host.ctxs } ∧ ∀ d, d ≠ c → ctxBy t d = ctxBy s d

/-- At most the host's side differs. -/
abbrev OnlyHost (s t : State) : Prop := t = { s with host := t.host }

/-- At most the contexts and hearthstone's state differ. -/
abbrev OnlySec (s t : State) : Prop := t = { s with host.ctxs := t.host.ctxs, sec := t.sec }

/-! ## Invariants -/

/-- Every memory is in its canonical form. -/
def MemoriesWf (s : State) : Prop :=
  Memory.wf s.hob.mem = true ∧ Memory.wf s.drm.mem = true ∧ Memory.wf s.fw.download = true ∧ Memory.wf s.cyz.stage = true

/-- R484 once ZEROIZE is blown: no key is derived, wrapped, in a slot or at hand. -/
def ZeroizedForLife (s : State) : Prop :=
  s.sec.zeroFuse = true →
    s.sec.swk = none ∧ s.sec.wrappedId = none ∧ s.sec.identity = [] ∧
    ∀ r ∈ s.sec.ranges, r.wrappedKey = none ∧ r.slot = none

end Sys2Proof.Machine
end

