-- ==== Sys2Proof/Certificates/Slice0/Obligations.lean ====
section
/-! DEFINITION. The statements about the model, from the numbered rules of the spec. -/
open Sys2Proof
open Sys2Proof.Machine

/-- A step runs the command at the front of the queue on the state with the rest of the queue (spec/95_what_each_step_holds.md, notes/assumptions/4.md). -/
def Obligations.StepRunsFrontCommand : Prop :=
  (∀ (c : Instr) (rest : List Instr) (s : State), step { s with pending := c :: rest } = exec c { s with pending := rest }) ∧
  (∀ s : State, s.pending = [] → step s = .next { s with time := s.time + 1 })

/-- No command stops the block: each answers a next state in every state (spec/95_what_each_step_holds.md). -/
def Obligations.EveryCommandAnswers : Prop :=
  ∀ (c : Instr) (s : State), ∃ t, exec c s = .next t

/-- No command changes the queue of waiting commands (spec/02_architecture.md). -/
def Obligations.CommandsLeaveTheQueue : Prop :=
  ∀ (c : Instr) (s t : State), exec c s = .next t → t.pending = s.pending

/-- The clock never falls in a step (spec/18_power_and_startup.md, notes/assumptions/4.md). -/
def Obligations.ClockNeverFalls : Prop :=
  ∀ s t : State, step s = .next t → s.time ≤ t.time

/-- Every step keeps the canonical form of every memory (spec/10_hob_cache_dma.md, spec/12_host_transport.md, spec/15_cyzon_and_migration.md, notes/assumptions/21.md). -/
def Obligations.MemoriesStayCanonical : Prop :=
  ∀ s t : State, MemoriesWf s → step s = .next t → MemoriesWf t

/-- Once the ZEROIZE fuse is blown no step gives the Nelvar a key again (spec/16_security.md R484, spec/16_security.md R458). -/
def Obligations.ZeroizationIsForLife : Prop :=
  ∀ s t : State, ZeroizedForLife s → step s = .next t → ZeroizedForLife t

/-- The memories are canonical and the zeroization invariant holds at reset (spec/16_security.md, spec/10_hob_cache_dma.md). -/
def Obligations.InvariantsHoldAtReset : Prop :=
  MemoriesWf State.reset ∧ ZeroizedForLife State.reset

/-- A zeroized Nelvar neither signs nor unwraps (spec/16_security.md R484). -/
def Obligations.ZeroizedNeverSigns : Prop :=
  ∀ s : State, ZeroizedForLife s → s.sec.zeroFuse = true →
    maySign s = false ∧ mayKey s = false ∧ ∀ r ∈ (slotsLoad s).sec.ranges, r.slot = none

/-- Every register of the map reads at reset the word that its field table gives (spec/19_registers.md, spec/10_hob_cache_dma.md, spec/11_sequencers.md, spec/07_servo.md, spec/08_spindle.md, spec/09_stripes_and_spares.md, spec/18_power_and_startup.md). -/
def Obligations.ResetRegisterWords : Prop :=
  ∀ r ∈ ([(13, 0x040, 0x00000000), (6, 0x100, 0x00012005), (6, 0x108, 0x00000000), (6, 0x10C, 0x00000000), (10, 0x000, 0x00000000), (6, 0x140, 0x00000000),
     (6, 0x144, 0x00000000), (6, 0x150, 0x80008000), (5, 0x000, 0x32080406), (5, 0x004, 0x20000FFF), (5, 0x010, 0x00000000), (5, 0x014, 0x00000000),
     (6, 0x180, 0x00000000), (6, 0x190, 0x00000000), (6, 0x194, 0x00000000), (6, 0x198, 0x00000000), (6, 0x300, 0x00000000), (6, 0x304, 0x00000000),
     (12, 0x004, 0x00000000), (12, 0x008, 0x00000000), (12, 0x010, 0x04203314), (12, 0x014, 0x00081010), (12, 0x018, 0x00000000), (12, 0x01C, 0x00000000),
     (12, 0xC00, 0x80000000), (13, 0x000, 0x20100078), (13, 0x004, 0x03843C00), (13, 0x010, 0x80000000), (13, 0x014, 0x00000000), (13, 0x018, 0x04000000),
     (13, 0x020, 0x00000000), (13, 0x024, 0x00000000), (18, 0x100, 0x0F050408), (18, 0x104, 0x08041040), (18, 0x108, 0xFFFFFFFF), (18, 0x10C, 0xFFFFFFFF)] ++
    [(18, 0x110, 0xAE500000), (18, 0x114, 0x00000000), (2, 0x000, 0x00180004), (2, 0x010, 0x00000000), (2, 0x020, 0x00000000), (2, 0x024, 0x00000000),
     (2, 0x028, 0x00000000), (3, 0x000, 0x08000040), (3, 0x004, 0x00000000), (4, 0x004, 0xFFFFFFFF), (4, 0x010, 0x00000000),
     (4, 0x104, 0x00000000), (11, 0xF00, 0x00000100), (11, 0xF04, 0x00000000), (11, 0x004, 0x00000000), (11, 0x008, 0x00000000), (11, 0x00C, 0x00000000),
     (19, 0x000, 0x00000000), (19, 0x004, 0x00000000), (19, 0x008, 0x00000000), (19, 0x00C, 0x00000000), (18, 0x118, 0x00000000), (18, 0x120, 0x00000000),
     (18, 0x124, 0x00000000), (18, 0x128, 0x00000000), (1, 0x000, 0x00000000), (1, 0x004, 0x00000000), (16, 0x000, 0x00000180), (16, 0x004, 0x00000000),
     (16, 0x010, 0x00000000), (17, 0x000, 0x00000000), (17, 0x004, 0x00000000), (17, 0x008, 0x00000000), (14, 0x000, 0x00000000), (14, 0x004, 0x00080866)] ++
    [(14, 0x008, 0x00000000), (15, 0x000, 0x00000000), (0, 0xFF0, 0x80000000), (18, 0xFF0, 0x80000000), (0, 0xFF4, 0x00000000), (18, 0xFF4, 0x00000000),
     (0, 0xFF8, 0x00000000), (18, 0xFF8, 0x00000000), (0, 0x000, 0x00000000), (0, 0x004, 0x00000000), (0, 0x008, 0x00000000), (12, 0x000, 0x80000000),
     (12, 0x200, 0x90000000), (12, 0x400, 0xA0000000), (12, 0x600, 0xB0000000), (12, 0x800, 0xC0000000), (12, 0xA00, 0xF0000000), (11, 0x000, 0x00000000),
     (11, 0x100, 0x20000000), (11, 0x200, 0x40000000), (11, 0x300, 0x60000000), (11, 0x400, 0xE0000000), (4, 0x100, 0x00000000), (4, 0x8C0, 0x001F0000),
     (4, 0x900, 0x10200000), (4, 0x9C0, 0x10230000), (4, 0xA00, 0x203F0000), (4, 0xAC0, 0x203F0000), (4, 0x008, 0x0000000F)] : List (Nat × Nat × Word)),
    regPeek State.reset r.1 (regDecode r.1 r.2.1) = r.2.2

/-- A valid doorbell moves its queue's tail or head; an invalid one is ignored and reported (spec/12_host_transport.md R350). -/
def Obligations.DoorbellsMoveTheirQueue : Prop :=
  (∀ (s : State) (q : Fin 65) (v : Fin 65536) (x : SubQueue), sqBy s q = some x → v.val < x.size →
    ∃ t, exec (.sqDoorbellWrite q v) s = .next t ∧ sqBy t q = some { x with tail := v.val } ∧
      (∀ r, r ≠ q.val → sqBy t r = sqBy s r) ∧ t = { s with host.sqs := t.host.sqs }) ∧
  (∀ (s : State) (q : Fin 65) (v : Fin 65536) (x : SubQueue), sqBy s q = some x → x.size ≤ v.val →
    exec (.sqDoorbellWrite q v) s = .next { s with host.events := s.host.events ++ [(0, 1, 1)] }) ∧
  (∀ (s : State) (q : Fin 65) (v : Fin 65536), sqBy s q = none →
    exec (.sqDoorbellWrite q v) s = .next { s with host.events := s.host.events ++ [(0, 0, 1)] }) ∧
  (∀ (s : State) (q : Fin 65) (v : Fin 65536) (x : CompQueue), cqBy s q = some x → v.val < x.size →
    (v.val + x.size - x.head) % x.size ≤ x.entries.length →
    ∃ t, exec (.cqDoorbellWrite q v) s = .next t ∧
      cqBy t q = some { x with head := v.val, entries := x.entries.drop ((v.val + x.size - x.head) % x.size) } ∧
      (∀ r, r ≠ q.val → cqBy t r = cqBy s r) ∧ t = { s with host.cqs := t.host.cqs }) ∧
  (∀ (s : State) (q : Fin 65) (v : Fin 65536) (x : CompQueue), cqBy s q = some x →
    (x.size ≤ v.val ∨ x.entries.length < (v.val + x.size - x.head) % x.size) →
    exec (.cqDoorbellWrite q v) s = .next { s with host.events := s.host.events ++ [(0, 1, 1)] }) ∧
  (∀ (s : State) (q : Fin 65) (v : Fin 65536), cqBy s q = none →
    exec (.cqDoorbellWrite q v) s = .next { s with host.events := s.host.events ++ [(0, 0, 1)] })

/-- Accepting a command gives it a free context and the next acceptance number, below the ceiling in the ember; the admin queue and the weights come first (spec/12_host_transport.md R348, spec/12_host_transport.md R352, spec/12_host_transport.md R353, spec/13_object_commands.md R377). -/
def Obligations.AcceptanceNumbersRise : Prop :=
  (∀ (s : State) (q : Fin 65) (e : SqEntry) (y : SubQueue) (c : Nat) (pooled : Bool),
    s.host.fetching = true → mayFetch s q = true → sqBy s q = some y → ctxDraw s q = some (c, pooled) →
    s.host.accept ≤ s.host.ceiling →
    ctxBy s c = none ∧
    ∃ t, exec (.commandAccept q e) s = .next t ∧ t.host.accept = s.host.accept + 1 ∧ t.host.accept < t.host.ceiling ∧
      t.obj.clock = max s.obj.clock (hostTime q e) ∧ (∀ d, d ≠ c → ctxBy t d = ctxBy s d) ∧
      (∃ x, ctxBy t c = some x ∧ x.accept = s.host.accept ∧ x.entry = e ∧ x.sq = q.val ∧
        (acceptStatus s q e = none → x.phase = .accepted) ∧
        ∀ sct sc d, acceptStatus s q e = some (sct, sc, d) → ended t c = some (endOf x sct sc d []))) ∧
  (∀ (s : State) (q : Fin 65) (e : SqEntry), s.host.ams = 1 → q.val ≠ 0 → eligible s 0 = true →
    exec (.commandAccept q e) s = .next s) ∧
  (∀ (s : State) (q : Fin 65) (e : SqEntry), arbClass s q = 2 → creditOf (creditsNow s) (prioOf s q) = 0 →
    exec (.commandAccept q e) s = .next s)

/-- A completion is posted, with its context freed, only while its queue has room, its order allows and no class 3 fault holds (spec/12_host_transport.md R351, spec/12_host_transport.md R349, spec/13_object_commands.md R385, spec/17_faults_and_ash_log.md R493). -/
def Obligations.CompletionsPostInOrder : Prop :=
  (∀ (s : State) (c : Fin 4096) (x : Ctx) (r : Completion) (y : SubQueue) (cq : CompQueue),
    ctxBy s c = some x → x.phase = .done r → c.val ∉ s.host.dataErr → sqBy s x.sq = some y → cqBy s y.cq = some cq →
    mayPost s x = true → (cq.tail + 1) % cq.size ≠ cq.head →
    ∃ t, exec (.completionPost c) s = .next t ∧ ctxBy t c = none ∧
      (cqBy t y.cq).map (·.entries) = some (cq.entries ++ [⟨x.sq, x.entry.cid, r⟩]) ∧
      (∀ d, d ≠ c.val → ctxBy t d = ctxBy s d)) ∧
  (∀ (s : State) (c : Fin 4096) (x : Ctx) (r : Completion) (y : SubQueue) (cq : CompQueue),
    ctxBy s c = some x → x.phase = .done r → c.val ∉ s.host.dataErr → sqBy s x.sq = some y → cqBy s y.cq = some cq →
    mayPost s x = true → (cq.tail + 1) % cq.size = cq.head →
    exec (.completionPost c) s = .next (onCtx s c fun z => { z with staged := true })) ∧
  (∀ (s : State) (c : Fin 4096) (x : Ctx) (r : Completion), ctxBy s c = some x → x.phase = .done r → s.flt.class3 = true →
    exec (.completionPost c) s = .next s)

/-- Readiness follows the firmware; every controller reset drops queues and contexts and leaves acknowledged data, media and spindle (spec/12_host_transport.md R345, spec/12_host_transport.md R364, spec/12_host_transport.md R365, spec/18_power_and_startup.md R577, spec/12_host_transport.md R342, spec/12_host_transport.md R372). -/
def Obligations.ControllerResetsAndReadiness : Prop :=
  (∀ (s : State) (a b : Fin 4096) (ams : Fin 2) (mps : Fin 5), s.host.en = false → s.host.perst = false → a.val ≠ 0 → b.val ≠ 0 →
    s.flt.fwRunning = true → s.flt.class3 = false → s.fw.act = none →
    ∃ t, exec (.ccEnSet a b ams mps) s = .next t ∧ t.host.en = true ∧ t.host.rdy = true ∧ t.host.fetching = true ∧
      (sqBy t 0).map (·.size) = some (a.val + 1) ∧ (cqBy t 0).map (·.size) = some (b.val + 1) ∧ OnlyHost s t) ∧
  (∀ (s : State), s.host.en = true →
    ∃ t, exec .ccEnClear s = .next t ∧ t.host.en = false ∧ t.host.rdy = false ∧ t.host.fetching = false ∧ t.host.sqs = [] ∧
      t.host.cqs = [] ∧ t.host.ctxs = [] ∧ t.media = s.media ∧ t.spn = s.spn ∧ t.obj.objs = s.obj.objs ∧
      t.zns.zones.map (·.state) = s.zns.zones.map (·.state)) ∧
  (∀ (s : State),
    ∃ t, exec .functionLevelReset s = .next t ∧ t.host.en = false ∧ t.host.rdy = false ∧ t.host.sqs = [] ∧ t.host.ctxs = [] ∧
      t.host.link = s.host.link ∧ t.media = s.media ∧ t.obj.objs = s.obj.objs) ∧
  (∀ (s : State), s.host.link.up = true →
    ∃ t, exec .hotResetLinkDown s = .next t ∧ t.host.link.up = false ∧ t.host.en = false ∧ t.host.sqs = [] ∧ t.host.ctxs = [] ∧
      t.media = s.media ∧ t.obj.objs = s.obj.objs) ∧
  (∀ (s : State),
    ∃ t, exec .perstAssert s = .next t ∧ t.host.perst = true ∧ t.host.link.up = false ∧ t.host.en = false ∧ t.host.sqs = [] ∧
      t.host.ctxs = [] ∧ t.media = s.media ∧ t.obj.objs = s.obj.objs) ∧
  (∀ (s : State) (abrupt : Bool), s.host.en = true → s.host.shutting = true → s.host.shst ≠ 2 → s.host.ctxs = [] →
    dirtyCount s = 0 → allUnloaded s = true →
    exec (.ccShnShutdown abrupt) s = .next { s with host.shst := 2, host.shutting := false }) ∧
  (∀ (s : State),
    exec .perstDeassert s = .next { s with host.perst := false, host.fundamental := s.sec.lc }) ∧
  (∀ (s : State) (rate : Fin 6) (width : Fin 5), s.host.perst = false → s.host.link.up = false → s.pwr.powered = true →
    rate.val ≠ 0 → width.val ∈ [1, 2, 4] →
    exec (.linkUp rate width) s =
      .next { s with host.link := { s.host.link with up := true, rate := rate.val, width := width.val } })

/-- I/O queues are created within their limits and deleted; a deletion of a submission queue waits and aborts what is not fetched (spec/12_host_transport.md R347, spec/12_host_transport.md R359, spec/12_host_transport.md R367). -/
def Obligations.QueueManagement : Prop :=
  (∀ (s : State) (c : Fin 4096) (x : Ctx), Ready s c (isAdmin 0x05) x →
    let q := dwBits x.entry.dw10 15 0; let n := dwBits x.entry.dw10 31 16
    1 ≤ q → q ≤ 64 → cqBy s q = none → 1 ≤ n → n ≤ 4095 → x.entry.dw11.toNat % 2 = 1 → dwBits x.entry.dw11 31 16 ≤ 64 →
    ∃ t, exec (.createIoCq c) s = .next t ∧ ended t c = some (endOf x 0 0 0 []) ∧ OnlyHost s t ∧
      cqBy t q = some ⟨n + 1, 0, 0, dwBits x.entry.dw11 31 16, decide (x.entry.dw11.toNat / 2 % 2 = 1), []⟩) ∧
  (∀ (s : State) (c : Fin 4096) (x : Ctx), Ready s c (isAdmin 0x01) x →
    let q := dwBits x.entry.dw10 15 0; let n := dwBits x.entry.dw10 31 16; let cq := dwBits x.entry.dw11 31 16
    1 ≤ q → q ≤ 64 → sqBy s q = none → 1 ≤ n → n ≤ 4095 → x.entry.dw11.toNat % 2 = 1 → cq ≠ 0 → (cqBy s cq).isSome = true →
    ∃ t, exec (.createIoSq c) s = .next t ∧ ended t c = some (endOf x 0 0 0 []) ∧ OnlyHost s t ∧
      sqBy t q = some ⟨n + 1, 0, 0, cq, dwBits x.entry.dw11 2 1, none, []⟩) ∧
  (∀ (s : State) (c : Fin 4096) (x : Ctx), Ready s c (isAdmin 0x04) x →
    let q := dwBits x.entry.dw10 15 0
    q ≠ 0 → (cqBy s q).isSome = true → (∀ y ∈ s.host.sqs, y.2.cq ≠ q) →
    ∃ t, exec (.deleteIoCq c) s = .next t ∧ ended t c = some (endOf x 0 0 0 []) ∧ OnlyHost s t ∧ cqBy t q = none) ∧
  (∀ (s : State) (c : Fin 4096) (cids : List (BitVec 16)) (x : Ctx) (y : SubQueue), Ready s c (isAdmin 0x00) x →
    let q := dwBits x.entry.dw10 15 0
    q ≠ 0 → sqBy s q = some y → y.deleting = none →
    ∃ t, exec (.deleteIoSq c cids) s = .next t ∧ (ctxBy t c).map (·.phase) = some .outstanding ∧ OnlyHost s t ∧
      sqBy t q = some { y with
        deleting := some c.val, head := y.tail, aborts := cids.take ((y.tail + y.size - y.head) % y.size) })

/-- Identify, Get Log Page, Abort, Get and Set Features and Asynchronous Event Request complete as R359 to R362 say (spec/12_host_transport.md R359, spec/12_host_transport.md R360, spec/12_host_transport.md R362). -/
def Obligations.PlainAdminCommands : Prop :=
  (∀ (s : State) (c : Fin 4096) (x : Ctx) (d : List Byte), Ready s c (isAdmin 0x06) x →
    identifyData s (dwBits x.entry.dw10 7 0) x.entry.nsid.toNat = some d →
    ∃ t, exec (.identify c) s = .next t ∧ ended t c = some (endOf x 0 0 0 d) ∧ OnlyCtx s t c) ∧
  (∀ (s : State) (c : Fin 4096) (x : Ctx) (p : List Byte), Ready s c (isAdmin 0x02) x →
    let off := x.entry.dw12.toNat + x.entry.dw13.toNat * 2 ^ 32
    logPage s (dwBits x.entry.dw10 7 0) = some p → sanitizing s = false → off ≤ p.length →
    ∃ t, exec (.getLogPage c) s = .next t ∧ OnlyCtx s t c ∧
      ended t c = some (endOf x 0 0 0 (padTo ((dataLen true x.entry).getD 0) (slice p off ((dataLen true x.entry).getD 0))))) ∧
  (∀ (s : State) (c : Fin 4096) (x : Ctx), Ready s c (isAdmin 0x08) x →
    ∃ t, exec (.abort c) s = .next t ∧ ended t c = some (endOf x 0 0 1 []) ∧ OnlyCtx s t c) ∧
  (∀ (s : State) (c : Fin 4096) (x : Ctx), Ready s c (isAdmin 0x0A) x →
    let f := dwBits x.entry.dw10 7 0
    f ∈ features → f ≠ 9 →
    ∃ t, exec (.getFeatures c) s = .next t ∧ OnlyCtx s t c ∧
      ended t c = some (endOf x 0 0 (if f = 7 then 0x003F003F else lookupD s.host.feats f 0) [])) ∧
  (∀ (s : State) (c : Fin 4096) (x : Ctx), Ready s c (isAdmin 0x09) x →
    let f := dwBits x.entry.dw10 7 0
    f ∈ [0x01, 0x04, 0x08, 0x0B, 0x19] →
    ∃ t, exec (.setFeatures c) s = .next t ∧ ended t c = some (endOf x 0 0 0 []) ∧ OnlyHost s t ∧
      lookupD t.host.feats f 0 = x.entry.dw11.toNat) ∧
  (∀ (s : State) (c : Fin 4096) (x : Ctx), Ready s c (isAdmin 0x0C) x →
    let n := (s.host.ctxs.filter fun y => isAdmin 0x0C y.2 ∧ y.2.phase = .outstanding).length
    ∃ t, exec (.asynchronousEventRequest c) s = .next t ∧ OnlyCtx s t c ∧
      (n < 4 → (ctxBy t c).map (·.phase) = some .outstanding) ∧ (4 ≤ n → ended t c = some (endOf x 1 5 0 [])))

/-- Images are downloaded, committed only when verified and not rolled back, and activated at a reset or without one (spec/12_host_transport.md R359, spec/12_host_transport.md R370, spec/12_host_transport.md R371, spec/16_security.md R464). -/
def Obligations.FirmwareUpdate : Prop :=
  (∀ (s : State) (c : Fin 4096) (data : List Byte) (x : Ctx), Ready s c (isAdmin 0x11) x →
    let off := x.entry.dw11.toNat * 4; let n := (x.entry.dw10.toNat + 1) * 4
    off % 4096 = 0 → n % 4096 = 0 → Memory.wf s.fw.download = true →
    ∃ t, exec (.firmwareImageDownload c data) s = .next t ∧ ended t c = some (endOf x 0 0 0 []) ∧
      (∀ i, i < n → memGet t.fw.download (off + i) = (padTo n (data.take n)).getD i 0) ∧
      (∀ a, a < off ∨ off + n ≤ a → memGet t.fw.download a = memGet s.fw.download a)) ∧
  (∀ (s : State) (c : Fin 4096) (x : Ctx), Ready s c (isAdmin 0x10) x →
    let fs := dwBits x.entry.dw10 2 0; let ca := dwBits x.entry.dw10 5 3
    let slot := if fs = 0 then 1 - s.fw.active else fs - 1
    let image := if s.fw.downLen ≠ 0 ∧ ca ≠ 2 then memRead s.fw.download 0 s.fw.downLen else vget s.fw.slots slot []
    fs ≤ 2 → ca ≤ 3 → s.fw.act = none →
    ∃ t, exec (.firmwareCommit c) s = .next t ∧
      (fwImageOk s image = none → ended t c = some (endOf x 1 7 0 []) ∧ t.fw = s.fw) ∧
      (fwImageOk s image ≠ none → ca < 3 → ended t c = some (endOf x 0 0 0 []) ∧
        t.fw.next = if ca = 0 then s.fw.next else some slot)) ∧
  (∀ (s : State) (slot c : Nat), s.fw.act = some (.waiting slot, c) → s.pwr.banking = false →
    ∃ t, exec .firmwareActivationResume s = .next t ∧ t.fw.act = some (.running slot, c) ∧ t.host.pp = true ∧
      t.host.fetching = false) ∧
  (∀ (s : State) (slot c : Nat) (x : Ctx), s.fw.act = some (.running slot, c) → allRecalled s = true →
    s.pwr.banking = false → ctxBy s c = some x →
    ∃ t, exec .firmwareActivationComplete s = .next t ∧ ended t c = some (endOf x 0 0 0 []) ∧ t.fw.act = none ∧
      t.host.pp = false ∧ ∀ img, Config.fwParse (vget s.fw.slots slot []) = some img → t.fw.running = some img ∧ t.fw.active = slot)

/-- A vector's aggregation time sends its interrupt; a Cyzon Receive returns its reply (spec/12_host_transport.md R349, spec/15_cyzon_and_migration.md R428). -/
def Obligations.AggregationAndCyzonReceive : Prop :=
  (∀ (s : State) (v : Fin 65) (n since : Nat), (s.host.agg.find? fun a => a.1 = v.val) = some (v.val, n, since) →
    ∃ t, exec (.aggregationTimeExpire v) s = .next t ∧ lookupD t.host.msix v.val 0 = lookupD s.host.msix v.val 0 + 1 ∧
      ∀ a ∈ t.host.agg, a.1 ≠ v.val) ∧
  (∀ (s : State) (c : Fin 4096) (x : Ctx), Ready s c (isAdmin 0xC1) x →
    let tag := dwBits x.entry.dw11 15 0
    let r := (heldReply s false tag).getD ⟨false, tag, 0, 0, 7, 0, [], true, true⟩
    (replyPacket r).length ≤ x.entry.dw10.toNat →
    ∃ t, exec (.cyzonReceive c) s = .next t ∧ ended t c = some (endOf x 0 0 0 (replyPacket r)) ∧
      (r.final = true → heldReply t false tag = none ∧ ((false, tag) ∈ s.cyz.open_ → heldReply s false tag ≠ none → (false, tag) ∉ t.cyz.open_)))

/-- Sanitize and Format NVM are refused while content is retained, and else begin, remove every object and complete (spec/12_host_transport.md R366, spec/12_host_transport.md R368, spec/12_host_transport.md R369, spec/15_cyzon_and_migration.md R443). -/
def Obligations.SanitizeAndFormatBegin : Prop :=
  (∀ (s : State) (c : Fin 4096) (x : Ctx), Ready s c (isAdmin 0x84) x →
    let act := dwBits x.entry.dw10 2 0
    let n := retainedCount s x.clock
    (act = 3 ∨ act = 4) → dwBits x.entry.dw10 8 8 = 0 → formatting s = false → ioBefore s x.accept = false →
    (n ≠ 0 → s.sec.lc ≠ .decommissioned →
      ∃ t, exec (.sanitize c) s = .next t ∧ ended t c = some (endOf x 7 0xF0 n []) ∧ OnlyCtx s t c) ∧
    (n = 0 ∨ s.sec.lc = .decommissioned →
      ∃ t, exec (.sanitize c) s = .next t ∧ t.mop.sanitize = true ∧ t.obj.objs = [] ∧ t.stg.leaves = [] ∧ t.obj.damage = [] ∧
        (act = 4 → t.mop.rec_.state = 1) ∧ (∀ z ∈ t.zns.zones, z.state = .empty) ∧ ended t c = some (endOf x 0 0 0 []))) ∧
  (∀ (s : State) (c : Fin 4096) (x : Ctx), Ready s c (isAdmin 0x80) x →
    let ses := dwBits x.entry.dw10 11 9
    let n := retainedCount s x.clock
    x.entry.nsid = 0xFFFFFFFF → ses ≤ 2 → formatting s = false → ioBefore s x.accept = false →
    (n ≠ 0 → s.sec.lc ≠ .decommissioned →
      ∃ t, exec (.formatNvm c) s = .next t ∧ ended t c = some (endOf x 7 0xF0 n []) ∧ OnlyCtx s t c) ∧
    (n = 0 ∨ s.sec.lc = .decommissioned →
      ∃ t, exec (.formatNvm c) s = .next t ∧ t.mop.sanitize = false ∧ t.mop.erase = decide (ses = 2) ∧ t.obj.objs = [] ∧
        t.stg.leaves = [] ∧ (∀ z ∈ t.zns.zones, z.state = .empty) ∧ ended t c = some (endOf x 0 0 0 [])))

/-- The stages of a media operation: a crypto erase replaces every key, an overwrite counts rings and passes, a format ends in state 04h, a failure in 05h (spec/15_cyzon_and_migration.md R442, spec/16_security.md R473). -/
def Obligations.MediaOperationStages : Prop :=
  (∀ (s : State) (ok : Bool), s.pwr.banking = false → s.flt.class3 = false → s.mop.rec_.state = 1 → s.sec.drbgStopped = false →
    ∃ t, exec (.mediaOperationProgress ok) s = .next t ∧
      (∀ r ∈ keyedRanges s, ∃ u : State, (t.sec.ranges.getD r default).wrappedKey =
        s.sec.swk.map fun w => wrapBytes w (drbgTake u 64).2) ∧
      (∀ r, r ∉ keyedRanges s → (t.sec.ranges.getD r default).wrappedKey = (s.sec.ranges.getD r default).wrappedKey) ∧
      (s.mop.rec_.passes ≠ 0 → t.mop.rec_.state = 2 ∧ t.mop.rec_.pass = 1 ∧ t.mop.rec_.ringsDone = 0) ∧
      (s.mop.rec_.passes = 0 → t.mop.rec_.state = 3 ∧ t.mop.rec_.ringsDone = 0)) ∧
  (∀ (s : State), s.pwr.banking = false → s.flt.class3 = false → s.mop.rec_.state = 2 → s.mop.rec_.ringsTotal ≠ 0 →
    s.mop.rec_.ringsDone + 1 < s.mop.rec_.ringsTotal →
    ∃ t, exec (.mediaOperationProgress true) s = .next t ∧ t.mop.rec_ = { s.mop.rec_ with ringsDone := s.mop.rec_.ringsDone + 1 }) ∧
  (∀ (s : State), s.pwr.banking = false → s.flt.class3 = false → s.mop.rec_.state = 2 → s.mop.rec_.ringsTotal ≠ 0 →
    s.mop.rec_.ringsTotal ≤ s.mop.rec_.ringsDone + 1 →
    (s.mop.rec_.pass < s.mop.rec_.passes → ∃ t, exec (.mediaOperationProgress true) s = .next t ∧
      t.mop.rec_ = { s.mop.rec_ with pass := s.mop.rec_.pass + 1, ringsDone := 0 }) ∧
    (s.mop.rec_.passes ≤ s.mop.rec_.pass → ∃ t, exec (.mediaOperationProgress true) s = .next t ∧
      t.mop.rec_.state = 3 ∧ t.mop.rec_.ringsDone = 0)) ∧
  (∀ (s : State), s.pwr.banking = false → s.flt.class3 = false → s.mop.rec_.state = 3 → formatSurfaces s ≠ [] → formatRings s ≠ [] →
    (s.mop.rec_.ringsDone < (formatRings s).length → ∃ t, exec (.mediaOperationProgress true) s = .next t ∧
      t.mop.rec_ = { s.mop.rec_ with ringsDone := s.mop.rec_.ringsDone + 1 }) ∧
    ((formatRings s).length ≤ s.mop.rec_.ringsDone → cornerLeft s = 0 → ∃ t, exec (.mediaOperationProgress true) s = .next t ∧
      t.mop.rec_.state = 4)) ∧
  (∀ (s : State), s.pwr.banking = false → s.flt.class3 = false → (s.mop.rec_.state = 2 ∨ s.mop.rec_.state = 3) →
    ∃ t, exec (.mediaOperationProgress false) s = .next t ∧ t.mop.rec_ = { s.mop.rec_ with state := 5 }) ∧
  (∀ (s : State) (ok : Bool), (s.mop.rec_.state = 0 ∨ 4 ≤ s.mop.rec_.state) → exec (.mediaOperationProgress ok) s = .next s)

/-- A nonce and a read return the 1,720-byte attestation report of Table 16.5; the chain is read as installed (spec/16_security.md R466, spec/16_security.md R462, spec/16_security.md Table 16.5). -/
def Obligations.AttestationAndCertificates : Prop :=
  (∀ (s : State) (c : Fin 4096) (data : List Byte) (x : Ctx), Sends s c (isF0 4) x → data.length = 32 →
    ∃ t, exec (.attestationNonce c data) s = .next t ∧ t.sec.nonce = some data ∧ ended t c = some (endOf x 0 0 0 []) ∧ OnlySec s t) ∧
  (∀ (s : State) (c : Fin 4096) (x : Ctx) (n : List Byte), Receives s c (isF0 4) x → s.sec.nonce = some n → maySign s = true →
    s.sec.op = none → s.pwr.banking = false →
    exec (.attestationReportRead c) s = .next { s with sec.op := some (.signing (some c.val)) }) ∧
  (∀ (s : State) (c : Fin 4096) (x : Ctx) (n : List Byte), Receives s c (isF0 4) x → s.sec.nonce = some n → maySign s = true →
    s.sec.op = some (.signing (some c.val)) → s.sec.opRetry = false →
    ∃ t, exec (.attestationReportRead c) s = .next t ∧ t.sec.nonce = none ∧ t.sec.op = none ∧
      ended t c = some (endOf x 0 0 0
        ((reportBody s n ++ falconSig s (shake256 (reportBody s n) 64)).take x.entry.dw11.toNat))) ∧
  (∀ (s : State) (n : List Byte), n.length = 32 → s.sec.meas.length = 5 → (∀ m ∈ s.sec.meas, m.length = 64) → s.sec.serial.length = 16 →
    (reportBody s n ++ falconSig s (shake256 (reportBody s n) 64)).length = 1720 ∧ slice (reportBody s n) 40 32 = n ∧
    slice (reportBody s n) 10 1 = leBytes 1 (lcCode s.sec.lc) ∧ slice (reportBody s n) 72 320 = s.sec.meas.flatten ∧
    slice (reportBody s n) 408 32 = shake256 s.sec.identityPub 32) ∧
  (∀ (s : State) (c : Fin 4096) (x : Ctx), Receives s c (isF0 5) x → s.sec.certs ≠ [] →
    ∃ t, exec (.certificateChainRead c) s = .next t ∧ OnlyCtx s t c ∧
      ended t c = some (endOf x 0 0 0 (s.sec.certs.take x.entry.dw11.toNat)))

/-- Only a token that matches moves the life cycle; an accepted one blows the fuses, wipes the firebrick, and resets once all is durable (spec/16_security.md R476, spec/16_security.md R477, spec/16_security.md R484, spec/17_faults_and_ash_log.md Table 17.7). -/
def Obligations.LifeCycleTokens : Prop :=
  (∀ (s : State) (c : Fin 4096) (x : Ctx), Receives s c (isF0 1) x → drbgReady s = true → s.sec.op = some (.drbg c.val) →
    s.sec.opRetry = false →
    ∃ t, exec (.lifecycleChallengeRead c) s = .next t ∧ t.sec.challenge = some (drbgTake s 32).2 ∧
      ended t c = some (endOf x 0 0 0 ((drbgTake s 32).2.take x.entry.dw11.toNat)) ∧ OnlySec s t) ∧
  (∀ (s : State) (c : Fin 4096) (data : List Byte) (b : Boot) (x : Ctx), Sends s c (isF0 2) x → s.sec.token = none →
    ∃ t, exec (.lifecycleToken c data b) s = .next t ∧
      match tokenOf s data with
      | none => ended t c = some (endOf x 0 2 0 []) ∧ OnlyCtx s t c
      | some l => t.sec.fuseLc = l ∧ t.sec.challenge = none ∧ t.sec.swk = none ∧ t.sec.drbg = none ∧ t.sec.identity = [] ∧
          t.sec.diagTrips = s.sec.diagTrips + bit (decide (l = .diagnostic)) ∧ t.sec.token = some (x.accept, false) ∧
          (l = .decommissioned → t.sec.zeroFuse = true ∧ t.sec.wrappedId = none ∧ ∀ r ∈ t.sec.ranges, r.wrappedKey = none)) ∧
  (∀ (s : State) (c : Fin 4096) (data : List Byte) (b : Boot) (n a : Nat) (x : Ctx), s.sec.token = some (a, false) → dirtyCount s = 0 →
    (s.host.ctxs.find? fun y => y.2.accept = a) = some (n, x) → ctxBy s n = some x →
    ∃ t, exec (.lifecycleToken c data b) s = .next t ∧ ended t n = some (endOf x 0 0 0 []) ∧ t.sec.token = some (a, true)) ∧
  (∀ (s : State) (c : Fin 4096) (data : List Byte) (b : Boot) (a : Nat), s.sec.token = some (a, true) →
    (∀ y ∈ s.host.ctxs, y.2.accept ≠ a) → exec (.lifecycleToken c data b) s = .next (coreReset s b)) ∧
  (∀ (s : State) (data : List Byte), match tokenOf s data with
    | none => True
    | some l => tokenSigners s.sec.lc l ≠ none ∧ leNat (slice data 10 1) = lcCode s.sec.lc ∧ s.sec.challenge = some (slice data 32 32) ∧
        (l = .diagnostic → s.sec.diagTrips < 8) ∧ (l = .deployed → s.sec.lc = .provisioned ∨ s.sec.lc = .diagnostic)) ∧
  (∀ (s : State) (data : List Byte), leNat (slice data 10 1) ≠ lcCode s.sec.lc ∨ s.sec.challenge ≠ some (slice data 32 32) →
    tokenOf s data = none)

/-- The integrator key is enrolled unsigned in PROVISIONED with none enrolled, else only under the enrolled key's signature (spec/16_security.md R479, spec/15_cyzon_and_migration.md R432). -/
def Obligations.IntegratorKeyEnrolment : Prop :=
  (∀ (s : State) (c : Fin 4096) (key : List Byte) (sig : Option (List Byte)) (x : Ctx), Sends s c (isF0 3) x → key.length = 1793 →
    let ok := match s.sec.integrator, sig with
      | none, none => decide (s.sec.lc = .provisioned)
      | some k, some g => decide (s.sec.lc = .provisioned ∨ s.sec.lc = .deployed) && Config.falconVerify k (shake256 key 64) g
      | _, _ => false
    ∃ t, exec (.integratorKeyEnrol c key sig) s = .next t ∧
      (ok = true → t.sec = { s.sec with integrator := some key, authSeq := 0 } ∧ ended t c = some (endOf x 0 0 0 []) ∧ OnlySec s t) ∧
      (ok = false → ended t c = some (endOf x 0 2 0 []) ∧ OnlyCtx s t c)) ∧
  (∀ s : State, m4Extend s =
    measExtend s 4 (Config.m4Digest (lcCode s.sec.lc) s.sec.svnFuses s.sec.integrator s.reg.crcRef))

/-- One Opal session at a time; five failures of a PIN lock its authority until the next power cycle (spec/16_security.md R472, spec/16_security.md Table 16.2). -/
def Obligations.OpalSessionsAndCredentials : Prop :=
  (∀ (s : State) (c : Fin 4096) (x : Ctx), Receives s c isOpal x → comId x.entry = 1 →
    ∃ t, exec (.level0Discovery c) s = .next t ∧ OnlyCtx s t c ∧
      ended t c = some (endOf x 0 0 0 ((Config.opalDiscovery s.sec.lockingActive (anyLocked s)).take x.entry.dw11.toNat))) ∧
  (∀ (s : State) (c : Fin 4096) (x : Ctx), Sends s c isOpal x →
    ∃ t, exec (.properties c) s = .next t ∧ t.sec = { s.sec with reply := .properties } ∧ ended t c = some (endOf x 0 0 0 []) ∧ OnlySec s t) ∧
  (∀ (s : State) (c : Fin 4096) (sp : OpalSp) (w : Bool) (x : Ctx), Sends s c isOpal x → (sp = .locking → s.sec.lockingActive = true) →
    ∃ t, exec (.startSession c sp w none) s = .next t ∧ OnlySec s t ∧ ended t c = some (endOf x 0 0 0 []) ∧
      (s.sec.session = none → t.sec = { s.sec with session := some ⟨sp, w, []⟩, reply := .success [] }) ∧
      (s.sec.session ≠ none → t.sec = { s.sec with reply := .noSessionsAvailable })) ∧
  (∀ (s : State) (c : Fin 4096) (x : Ctx), Sends s c isOpal x →
    ∃ t, exec (.endSession c) s = .next t ∧ t.sec = { s.sec with session := none, reply := .success [] } ∧ OnlySec s t) ∧
  (∀ (s : State) (c : Fin 4096) (a : Authority) (pin : List Byte) (x : Ctx) (y : OpalSession) (p : CPin), Sends s c isOpal x →
    s.sec.session = some y → a ≠ .anybody → spOf a = some y.sp → cpinOf s a = some p → s.sec.zeroFuse = false →
    ∃ t, exec (.authenticate c a pin) s = .next t ∧ OnlySec s t ∧ ended t c = some (endOf x 0 0 0 []) ∧
      (p.tries < 5 → shake256 (p.salt ++ pin) 32 = p.hash →
        t.sec.session = some { y with authed := y.authed ++ [a] } ∧ t.sec.reply = .success [[1]] ∧ cpinOf t a = some { p with tries := 0 }) ∧
      (p.tries < 5 → shake256 (p.salt ++ pin) 32 ≠ p.hash →
        t.sec.session = s.sec.session ∧ t.sec.reply = .success [[0]] ∧ cpinOf t a = some { p with tries := p.tries + 1 }) ∧
      (5 ≤ p.tries → t.sec.session = s.sec.session ∧ t.sec.reply = .authorityLockedOut ∧ cpinOf t a = some p)) ∧
  (∀ (s : State), ∀ p ∈ (powerKept s).sec.cpins, p.tries = 0)

/-- Get reads cells, Next enumerates rows, Random gives at most 32 bytes, and Set keeps the rules of ranges and locks (spec/16_security.md R470, spec/16_security.md R471, spec/16_security.md R472, spec/16_security.md R474). -/
def Obligations.OpalTables : Prop :=
  (∀ (s : State) (c : Fin 4096) (cells : List OpalCell) (vs : List (List Byte)) (x : Ctx) (y : OpalSession), Sends s c isOpal x →
    s.sec.session = some y → cells.mapM (cellGet s) = some vs →
    ∃ t, exec (.opalGet c cells) s = .next t ∧ t.sec = { s.sec with reply := .success vs } ∧ OnlySec s t) ∧
  (∀ (s : State) (c : Fin 4096) (cells : List OpalCell) (x : Ctx) (y : OpalSession), Sends s c isOpal x → s.sec.session = some y →
    (∃ k ∈ cells, cellGet s k = none) →
    ∃ t, exec (.opalGet c cells) s = .next t ∧ t.sec = { s.sec with reply := .notAuthorized } ∧ OnlySec s t) ∧
  (∀ (s : State) (c : Fin 4096) (table : Option Nat) (a n : Nat) (x : Ctx) (y : OpalSession), Sends s c isOpal x →
    s.sec.session = some y →
    ∃ t, exec (.opalNext c table a n) s = .next t ∧ OnlySec s t ∧ ended t c = some (endOf x 0 0 0 []) ∧
      t.sec = { s.sec with reply := match table with
        | none => .success ((rangeRows.drop a).take n)
        | some k => if k ∈ opalTables then .success (((Config.opalRows k).drop a).take n) else .notAuthorized }) ∧
  (∀ (s : State) (c : Fin 4096) (n : Nat) (x : Ctx) (y : OpalSession), Sends s c isOpal x → s.sec.session = some y →
    drbgReady s = true → s.sec.op = some (.drbg c.val) → s.sec.opRetry = false →
    ∃ t, exec (.opalRandom c n) s = .next t ∧ OnlySec s t ∧
      t.sec.reply = if 32 < n then .invalidParameter else .success [(drbgTake s n).2]) ∧
  (∀ (s : State) (c : Fin 4096) (sets : List (OpalCell × List Byte)) (x : Ctx) (y : OpalSession), Sends s c isOpal x →
    s.sec.session = some y → (∃ k ∈ sets, mayWriteCell s y k.1 = false) →
    ∃ t, exec (.opalSet c sets) s = .next t ∧ t.sec = { s.sec with reply := .notAuthorized } ∧ OnlySec s t) ∧
  (∀ (s : State) (c : Fin 4096) (sets : List (OpalCell × List Byte)) (x : Ctx) (y : OpalSession), Sends s c isOpal x →
    s.sec.session = some y → (∀ k ∈ sets, mayWriteCell s y k.1 = true) → (∀ k ∈ sets, lockCell k.1 = false) →
    ∃ t, exec (.opalSet c sets) s = .next t ∧ OnlySec s t ∧ ended t c = some (endOf x 0 0 0 []) ∧
      match cellsSet sets s with
      | .error e => t.sec = { s.sec with reply := e }
      | .ok u => if (List.range 65).all (boundsOk u s.sec.ranges) then t.sec = { u.sec with reply := .success [] }
          else t.sec = { s.sec with reply := .invalidParameter }) ∧
  (∀ (s : State) (c : Fin 4096) (r : Fin 65) (lockRead b : Bool) (x : Ctx) (y : OpalSession), Sends s c isOpal x →
    s.sec.session = some y → mayWriteCell s y (.readLocked r) = true → s.sec.op = some (.rangeUnwrap c.val) → s.sec.opRetry = false →
    s.sec.swk.isSome = true → s.sec.refusing = false → (b = false → s.sec.lc ≠ .diagnostic) → r.val < s.sec.ranges.length →
    ∃ t, exec (.opalSet c [(if lockRead then .readLocked r else .writeLocked r, boolCell b)]) s = .next t ∧
      t.sec.reply = .success [] ∧ (if lockRead then (t.sec.ranges.getD r default).readLocked else (t.sec.ranges.getD r default).writeLocked) = b ∧
      (∀ q ∈ t.sec.ranges, q.slot = slotKey t q)) ∧
  (∀ (s : State) (v : List Byte), (cellSet s (.readLockEnabled 0) v).toOption = none ∧ (cellSet s (.writeLockEnabled 0) v).toOption = none) ∧
  (∀ (s : State) (r : Nat), s.sec.lc = .diagnostic → (cellSet s (.readLocked r) [0]).toOption = none ∧
    (cellSet s (.writeLocked r) [0]).toOption = none)

/-- GenKey, Revert, RevertSP and Activate replace keys with what they protect, fail whole while a version is retained, and need their authority (spec/16_security.md R472, spec/16_security.md R473). -/
def Obligations.OpalKeyReplacement : Prop :=
  let methods := fun (c : Fin 4096) (r : Fin 65) (y : OpalSession) => [
    (Instr.genKey c r, y.write && lockAdmin y), (.revertSp c, y.write && lockAdmin y), (.opalActivate c, y.write && hasSid y),
    (.revert c, y.write && decide (y.sp = .admin) && (decide (Authority.sid ∈ y.authed) || decide (Authority.psid ∈ y.authed)))]
  let erasing := fun (s : State) (c : Fin 4096) (y : OpalSession) (i : Instr) (rs : List Nat) =>
    (∃ r, i = .genKey c r ∧ r.val ∈ keyedRanges s ∧ r ≠ 0 ∧ rs = [r.val] ∧ y.write = true ∧ lockAdmin y = true) ∨
    (i = .revertSp c ∧ rs = keyedRanges s ∧ y.write = true ∧ lockAdmin y = true) ∨
    (i = .revert c ∧ rs = keyedRanges s ∧ y.write = true ∧ y.sp = .admin ∧ (Authority.sid ∈ y.authed ∨ Authority.psid ∈ y.authed))
  let asMade := fun (s : State) (c : Fin 4096) (x : Ctx) (t : State) =>
    t.sec.reply = .success [] ∧ ended t c = some (endOf x 0 0 0 []) ∧ t.sec.session = none ∧ t.sec.lockingActive = false ∧
    (∀ r ∈ keyedRanges s, rangeVersions t r = []) ∧ t.sec.rangeUsers = [] ∧ (∀ p ∈ t.sec.cpins, spOf p.authority ≠ some .locking) ∧
    ∀ q ∈ t.sec.ranges, q.start = 0 ∧ q.length = 0 ∧ q.readLockEnabled = false ∧ q.writeLockEnabled = false ∧
      q.readLocked = false ∧ q.writeLocked = false ∧ q.lockOnReset = true
  (∀ (s : State) (c : Fin 4096) (r : Fin 65) (x : Ctx) (y : OpalSession), Sends s c isOpal x → s.sec.session = some y →
    ∀ m ∈ methods c r y, m.2 = false →
    ∃ t, exec m.1 s = .next t ∧ t.sec = { s.sec with reply := .notAuthorized } ∧ OnlySec s t ∧ ended t c = some (endOf x 0 0 0 [])) ∧
  (∀ (s : State) (c : Fin 4096) (r : Fin 65) (x : Ctx) (y : OpalSession), Sends s c isOpal x → s.sec.session = some y → y.write = true →
    lockAdmin y = true → r = 0 ∨ r.val ∉ keyedRanges s →
    ∃ t, exec (.genKey c r) s = .next t ∧ t.sec = { s.sec with reply := .invalidParameter } ∧ OnlySec s t) ∧
  (∀ (s : State) (c : Fin 4096) (x : Ctx) (y : OpalSession) (i : Instr) (rs : List Nat), Sends s c isOpal x →
    s.sec.session = some y → erasing s c y i rs →
    (keptByRetention s x rs = true ∨ mayKey s = false →
      ∃ t, exec i s = .next t ∧ t.sec = { s.sec with reply := .fail } ∧ OnlySec s t ∧ ended t c = some (endOf x 0 0 0 [])) ∧
    (keptByRetention s x rs = false → mayKey s = true → rangesRead s rs = true → exec i s = .next s) ∧
    (MayErase s x rs → s.sec.op = none → s.pwr.banking = false → exec i s = .next { s with sec.op := some (.drbg c.val) })) ∧
  (∀ (s : State) (c : Fin 4096) (r : Fin 65) (x : Ctx) (y : OpalSession), Sends s c isOpal x → s.sec.session = some y →
    erasing s c y (.genKey c r) [r.val] → MayErase s x [r.val] → s.sec.op = some (.drbg c.val) → s.sec.opRetry = false →
    (admits s (erasedBy s c x [r.val] id) = true →
      ∃ t, exec (.genKey c r) s = .next t ∧ t.sec.reply = .success [] ∧ ended t c = some (endOf x 0 0 0 []) ∧
        (t.sec.ranges.getD r default).wrappedKey = s.sec.swk.map (fun w => wrapBytes w (drbgTake s 64).2) ∧ rangeVersions t r = []) ∧
    (admits s (erasedBy s c x [r.val] id) = false →
      exec (.genKey c r) s = .next (if s.pwr.wrHeld then s else writeHome s))) ∧
  (∀ (s : State) (c : Fin 4096) (x : Ctx) (y : OpalSession), Sends s c isOpal x → s.sec.session = some y →
    erasing s c y (.revert c) (keyedRanges s) → MayErase s x (keyedRanges s) → s.sec.op = some (.drbg c.val) → s.sec.opRetry = false →
    let u := erasedBy s c x (keyedRanges s) fun t =>
      lockingReset { t with sec.cpins := t.sec.cpins.filter fun p => p.authority = .psid }
    (admits s u = true → ∃ t, exec (.revert c) s = .next t ∧ asMade s c x t ∧ ∀ p ∈ t.sec.cpins, p ∈ s.sec.cpins ∧ p.authority = .psid) ∧
    (admits s u = false → exec (.revert c) s = .next (if s.pwr.wrHeld then s else writeHome s))) ∧
  (∀ (s : State) (c : Fin 4096) (x : Ctx) (y : OpalSession), Sends s c isOpal x → s.sec.session = some y →
    erasing s c y (.revertSp c) (keyedRanges s) → MayErase s x (keyedRanges s) → s.sec.op = some (.drbg c.val) → s.sec.opRetry = false →
    let u := erasedBy s c x (keyedRanges s) lockingReset
    (admits s u = true → ∃ t, exec (.revertSp c) s = .next t ∧ asMade s c x t ∧ ∀ p ∈ t.sec.cpins, p ∈ s.sec.cpins) ∧
    (admits s u = false → exec (.revertSp c) s = .next (if s.pwr.wrHeld then s else writeHome s))) ∧
  (∀ (s : State) (c : Fin 4096) (x : Ctx) (y : OpalSession), Sends s c isOpal x → s.sec.session = some y → y.write = true →
    hasSid y = true →
    (s.sec.lockingActive = true → ∃ t, exec (.opalActivate c) s = .next t ∧ t.sec = { s.sec with reply := .success [] } ∧ OnlySec s t) ∧
    (s.sec.lockingActive = false → mayKey s = false →
      ∃ t, exec (.opalActivate c) s = .next t ∧ t.sec = { s.sec with reply := .fail } ∧ OnlySec s t) ∧
    (s.sec.lockingActive = false → mayKey s = true → s.sec.op = none → s.pwr.banking = false →
      exec (.opalActivate c) s = .next { s with sec.op := some (.drbg c.val) }) ∧
    (∀ p, s.sec.lockingActive = false → mayKey s = true → s.sec.op = some (.drbg c.val) → s.sec.opRetry = false →
      cpinOf s .sid = some p →
      ∃ t, exec (.opalActivate c) s = .next t ∧ t.sec.lockingActive = true ∧ t.sec.reply = .success [] ∧ OnlySec s t ∧
        cpinOf t (.lockAdmin 1) = some { p with authority := .lockAdmin 1, tries := 0 } ∧
        (s.sec.ranges.length = 65 → ∀ r, 1 ≤ r → r ≤ 64 → (t.sec.ranges.getD r default).wrappedKey.isSome = true)))

/-- Put Open takes a free slot and the next version number; Put Data appends at the accepted length, or is held; Put Abort frees the slot (spec/13_object_commands.md R386, spec/13_object_commands.md R388, spec/13_object_commands.md R389, spec/13_object_commands.md R394). -/
def Obligations.PutSessionsTakeBytes : Prop :=
  (∀ (s : State) (c : Fin 4096) (x : Ctx), Ready s c (isObj 0x80) x → rangeUsable s (dwBits x.entry.dw11 6 0) = true →
    writeLocked s (dwBits x.entry.dw11 6 0) = false → s.obj.slots.length = 256 → (∃ m, m < 256 ∧ sessOf s m = none) →
    ∃ t n g y, exec (.putOpen c) s = .next t ∧ n < 256 ∧ sessOf s n = none ∧ (s.obj.slots[n]?).map (·.gen) = some g ∧
      ended t c = some (endOf x 0 0 (n + 256 * g) []) ∧ sessOf t n = some y ∧ y.key = x.entry.key ∧
      y.version = (match objBy s x.entry.key with | some o => o.assigned + 1 | none => 1) ∧ y.accepted = 0 ∧ y.broken = false ∧
      y.lrange = dwBits x.entry.dw11 6 0 ∧ y.retain = x.entry.argA ∧ (∀ m, m ≠ n → t.obj.slots[m]? = s.obj.slots[m]?) ∧
      t = { s with host.ctxs := t.host.ctxs, obj := t.obj, freeCtr := t.freeCtr }) ∧
  (∀ (s : State) (c : Fin 4096) (x : Ctx), Ready s c (isObj 0x80) x → rangeUsable s (dwBits x.entry.dw11 6 0) = true →
    writeLocked s (dwBits x.entry.dw11 6 0) = false → (∀ m, m < 256 → sessOf s m ≠ none) →
    ∃ t, exec (.putOpen c) s = .next t ∧ RefusedWith s t c x 0x84 0) ∧
  (∀ (s : State) (c : Fin 4096) (x : Ctx), Ready s c (isObj 0x80) x →
    (rangeUsable s (dwBits x.entry.dw11 6 0) = false →
      ∃ t, exec (.putOpen c) s = .next t ∧ ended t c = some (endOf x 0 2 0 []) ∧ OnlyCtx s t c) ∧
    (rangeUsable s (dwBits x.entry.dw11 6 0) = true → writeLocked s (dwBits x.entry.dw11 6 0) = true →
      ∃ t, exec (.putOpen c) s = .next t ∧ ended t c = some (endOf x 2 0x86 0 []) ∧ OnlyCtx s t c)) ∧
  (∀ (s : State) (c : Fin 4096) (data : List Byte) (x : Ctx) (n : Nat) (y : Session), Ready s c (isObj 0x81) x →
    sessionAt s x.entry.handle = some (n, y) → y.damaged = false → y.broken = false → writeLocked s y.lrange = false →
    let len := x.entry.dw11.toNat
    ((x.entry.argA ≠ y.accepted → ∃ t, exec (.putData c data) s = .next t ∧ RefusedWith s t c x 0x85 (y.accepted % 2 ^ 32)) ∧
     (x.entry.argA = y.accepted → y.accepted + len ≤ 2 ^ 44 →
      reservedSlots s + heldSlots s + ((y.accepted + len + 32767) / 32768 - (y.accepted + 32767) / 32768) ≤ freeCapacity s →
      let u := onSession s n fun y => { y with accepted := y.accepted + len }
      let room := admits u (putStage u c x n y data) = true ∧ heldBefore s x.entry.handle x.accept = false
      ∃ t z, exec (.putData c data) s = .next t ∧ sessOf t n = some z ∧ z.accepted = y.accepted + len ∧ t.obj.objs = s.obj.objs ∧
        (room → ended t c = some (endOf x 0 0 0 []) ∧ z.absorbed = y.absorbed ++ padTo len (data.take len)) ∧
        (¬ room → (ctxBy t c).map (·.phase) = some .held ∧ z.absorbed = y.absorbed)))) ∧
  (∀ (s : State) (c : Fin 4096) (data : List Byte) (x : Ctx) (n : Nat) (y : Session), ctxBy s c = some x → isObj 0x81 x = true →
    x.phase = .held → c.val ∉ s.host.dataErr → sessionAt s x.entry.handle = some (n, y) → y.broken = false →
    heldBefore s x.entry.handle x.accept = false → admits s (putStage s c x n y data) = true →
    ∃ t z, exec (.putData c data) s = .next t ∧ ended t c = some (endOf x 0 0 0 []) ∧ sessOf t n = some z ∧ z.accepted = y.accepted ∧
      z.absorbed = y.absorbed ++ padTo x.entry.dw11.toNat (data.take x.entry.dw11.toNat)) ∧
  (∀ (s : State) (c : Fin 4096) (x : Ctx) (n : Nat) (y : Session), Ready s c (isObj 0x88) x →
    sessionAt s x.entry.handle = some (n, y) → heldBefore s x.entry.handle x.accept = false →
    ∃ t, exec (.putAbort c) s = .next t ∧ ended t c = some (endOf x 0 0 0 []) ∧
      t.obj.slots[n]? = some ⟨(x.entry.handle / 256 + 1) % 256, none⟩ ∧ (∀ m, m ≠ n → t.obj.slots[m]? = s.obj.slots[m]?) ∧
      t.obj.objs = s.obj.objs)

/-- Put Commit of a whole session makes its version live with its length, digest, hold and retention, and frees the slot (spec/13_object_commands.md R393, spec/13_object_commands.md R391). -/
def Obligations.PutCommitMakesVersionLive : Prop :=
  ∀ (s : State) (c : Fin 4096) (expected : List Byte) (x : Ctx) (n : Nat) (y : Session) (o : Obj), Ready s c (isObj 0x85) x →
    sessionAt s x.entry.handle = some (n, y) → y.damaged = false → y.broken = false → writeLocked s y.lrange = false →
    objBy s y.key = some o →
    let d := shake256 y.absorbed 64
    let u := succeed (commitVersion s n y d (x.accept + 1)) c y.version
    (x.entry.argA ≠ y.accepted → ∃ t, exec (.putCommit c expected) s = .next t ∧ RefusedWith s t c x 0x89 (y.accepted % 2 ^ 32)) ∧
    (x.entry.argA = y.accepted → y.absorbed.length ≠ y.accepted → exec (.putCommit c expected) s = .next s) ∧
    (x.entry.argA = y.accepted → y.absorbed.length = y.accepted → x.entry.flags % 2 = 1 → expected ≠ d →
      ∃ t, exec (.putCommit c expected) s = .next t ∧ RefusedWith s t c x 0x88 0) ∧
    (x.entry.argA = y.accepted → y.absorbed.length = y.accepted → (x.entry.flags % 2 = 1 → expected = d) → admits s u = false →
      exec (.putCommit c expected) s = .next (if s.pwr.wrHeld then s else writeHome s)) ∧
    (x.entry.argA = y.accepted → y.absorbed.length = y.accepted → (x.entry.flags % 2 = 1 → expected = d) → admits s u = true →
      ∃ t v, exec (.putCommit c expected) s = .next t ∧ ended t c = some (endOf x 0 0 y.version []) ∧
        versionOf t y.key y.version = some v ∧ v.state = .live ∧ v.length = y.accepted ∧ v.digest = d ∧ v.lrange = y.lrange ∧
        v.hold = y.hold ∧ v.retain = y.retain ∧ v.damaged = false ∧ sessOf t n = none ∧
        (∀ key, key ≠ y.key → objBy t key = objBy s key) ∧
        ∀ no, no ≠ y.version → versionOf t y.key no = versionOf s y.key no)

/-- Get reads and returns its version's bytes, checked where it covers it, Stat returns its record, List the entries that fit; or a status refuses them (spec/13_object_commands.md R400, spec/13_object_commands.md R401, spec/13_object_commands.md R402, spec/13_object_commands.md R403, spec/13_object_commands.md R405, spec/13_object_commands.md R406). -/
def Obligations.GetStatList : Prop :=
  (∀ (s : State) (c : Fin 4096) (x : Ctx), Ready s c (isObj 0x82) x → match resolve s x.entry.key (getVersion s x) true with
    | .error st => ∃ t, exec (.get c) s = .next t ∧ RefusedWith s t c x st 0
    | .ok (o, v) =>
      if v.damaged then ∃ t, exec (.get c) s = .next t ∧ RefusedWith s t c x 0x8C v.no
      else if readLocked s v.lrange then ∃ t, exec (.get c) s = .next t ∧ ended t c = some (endOf x 2 0x86 0 []) ∧ OnlyCtx s t c
      else if v.length < x.entry.argA + x.entry.dw14.toNat then ∃ t, exec (.get c) s = .next t ∧ RefusedWith s t c x 0x8D v.no
      else match streamStep s x x.entry.key v with
        | .error (st, d) => ∃ t, exec (.get c) s = .next t ∧ RefusedWith s t c x st d
        | .ok _ => ∃ t, exec (.get c) s = .next t ∧ t.obj.objs = s.obj.objs ∧
            ((ctxBy t c).map (·.phase) = some (.reading o.id v.no) ∨ ended t c ≠ none)) ∧
  (∀ (s : State) (c : Fin 4096) (x : Ctx) (oid no : Nat) (v : Version) (r : Request),
    ctxBy s c = some x → isObj 0x82 x = true → x.phase = .reading oid no → x.recheck = false → versionById s oid no = some v →
    reqBy s c = some r → reqSettled r = true →
    let ps := partsWith x.parts (r.leaves.map (·.data))
    (∀ i, firstMissing ps = some i → ∃ t, exec (.get c) s = .next t ∧ ended t c = some (endOf x 7 0x8B i [])) ∧
    (∀ b, firstMissing ps = none → allBytes s ps = some b →
      (x.ends = false → (x.entry.argA = 0 → b.length = v.length → shake256 b 64 = v.digest) →
        ∃ t, exec (.get c) s = .next t ∧ ended t c = some (endOf x 0 0 v.no b) ∧ t.obj.objs = s.obj.objs ∧
          t = { s with host.ctxs := t.host.ctxs, reqs := t.reqs, obj.streams := t.obj.streams }) ∧
      (∀ id st all, x.ends = true → x.stream = some id → streamBy s id = some st →
        streamBytes { st with got := (x.entry.argA, b) :: st.got.filter fun g => g.1 ≠ x.entry.argA } v.length = some all →
        shake256 all 64 = v.digest →
        ∃ t, exec (.get c) s = .next t ∧ ended t c = some (endOf x 0 0 v.no b) ∧ streamBy t id = none) ∧
      (x.ends = false → x.entry.argA = 0 → b.length = v.length → shake256 b 64 ≠ v.digest →
        ∃ t, exec (.get c) s = .next t ∧ ended t c = none ∧ (ctxBy t c).map (·.recheck) = some true))) ∧
  (∀ (s : State) (c : Fin 4096) (x : Ctx) (oid no : Nat) (v : Version) (r : Request),
    ctxBy s c = some x → isObj 0x82 x = true → x.phase = .reading oid no → x.recheck = true → versionById s oid no = some v →
    reqBy s c = some r → reqSettled r = true →
    let ps := partsWith (versionParts s v 0 v.length) (r.leaves.map (·.data))
    let right := firstMissing ps = none ∧ (allBytes s ps).map (shake256 · 64) = some v.digest
    (right → ∃ t, exec (.get c) s = .next t ∧ ended t c = some (endOf x 7 0x92 v.no [])) ∧
    (¬ right → ∃ t, exec (.get c) s = .next t ∧ ended t c = some (endOf x 7 0x88 0 []))) ∧
  (∀ (s : State) (c : Fin 4096) (x : Ctx), Ready s c (isObj 0x86) x → ∃ t, exec (.stat c) s = .next t ∧ OnlyCtx s t c ∧
    ended t c = some (if ptrLen x.entry < 384 then endOf x 7 0x8E 384 []
      else match resolve s x.entry.key x.entry.dw11.toNat false with
        | .error st => endOf x 7 st 0 []
        | .ok (o, v) => endOf x 0 0 v.no (statRecord o v x.clock))) ∧
  (∀ (s : State) (c : Fin 4096) (x : Ctx), Ready s c (isObj 0x8A) x →
    (ptrLen x.entry < 16 → ∃ t, exec (.list c) s = .next t ∧ RefusedWith s t c x 0x8E 16) ∧
    (16 ≤ ptrLen x.entry →
      let room := min 524288 (ptrLen x.entry)
      ∃ t out, exec (.list c) s = .next t ∧ OnlyCtx s t c ∧ out <+: listed s x.entry ∧ 16 + out.flatten.length ≤ room ∧
        (∀ e, (listed s x.entry)[out.length]? = some e → room < 16 + out.flatten.length + e.length) ∧
        ended t c = some (endOf x 0 0 out.length
          (leBytes 4 out.length ++ leBytes 1 (bit (decide (out.length < (listed s x.entry).length))) ++ zeroBytes 11 ++ out.flatten))))

/-- Copy stages its leaves as slots fall free and commits its version; Delete and Hold change the versions they name, all of a key or one, or are refused (spec/13_object_commands.md R407, spec/13_object_commands.md R409, spec/13_object_commands.md R410, spec/13_object_commands.md R411). -/
def Obligations.CopyDeleteHold : Prop :=
  (∀ (s : State) (c : Fin 4096) (x : Ctx), Ready s c (isObj 0x8C) x → match copyPlan s x.entry with
    | .error (st, d) => ∃ t, exec (.copy c) s = .next t ∧ RefusedWith s t c x st d
    | .ok (v, base, _, len) =>
      let lr := x.entry.blkNat 2 1
      if rangeUsable s lr = false then ∃ t, exec (.copy c) s = .next t ∧ ended t c = some (endOf x 0 2 0 []) ∧ OnlyCtx s t c
      else if readLocked s v.lrange ∨ base.any (fun b => readLocked s b.lrange) = true ∨ writeLocked s lr then
        ∃ t, exec (.copy c) s = .next t ∧ ended t c = some (endOf x 2 0x86 0 []) ∧ OnlyCtx s t c
      else if freeCapacity s < reservedSlots s + heldSlots s + (len + 32767) / 32768 then
        ∃ t, exec (.copy c) s = .next t ∧ RefusedWith s t c x 0x87 0
      else match freeSlot s with
        | none => ∃ t, exec (.copy c) s = .next t ∧ RefusedWith s t c x 0x84 0
        | some n => ∃ t, exec (.copy c) s = .next t ∧ ((ctxBy t c).map (·.phase) = some (.moving n) ∨ ended t c ≠ none)) ∧
  (∀ (s : State) (c : Fin 4096) (x : Ctx) (n : Nat) (y : Session) (o : Obj), ctxBy s c = some x → isObj 0x8C x = true →
    x.phase = .moving n → sessOf s n = some y → y.acked ≠ 0 → (y.accepted + 32767) / 32768 ≤ y.leaves.length → objBy s y.key = some o →
    let d := shake256 y.absorbed 64
    let owing := (copyOwed s y).foldl (fun s u => onStaged s u fun l => { l with dirty := true }) s
    let room := admits s (succeed (commitVersion owing n y d (x.accept + 1)) c y.version)
    (room = true → ∃ t v, exec (.copy c) s = .next t ∧ ended t c = some (endOf x 0 0 y.version []) ∧
      versionOf t y.key y.version = some v ∧ v.state = .live ∧ v.length = y.accepted ∧ v.digest = d ∧ v.lrange = y.lrange ∧
      v.hold = y.hold ∧ v.retain = y.retain ∧ sessOf t n = none) ∧
    (room = false → ∃ t, exec (.copy c) s = .next t ∧ ctxBy t c = some x ∧ sessOf t n ≠ none)) ∧
  (∀ (s : State) (c : Fin 4096) (x : Ctx) (n : Nat) (y : Session), ctxBy s c = some x → isObj 0x8C x = true →
    x.phase = .moving n → sessOf s n = some y → y.acked ≠ 0 → y.leaves.length < (y.accepted + 32767) / 32768 →
    ∃ t z, exec (.copy c) s = .next t ∧ ctxBy t c = some x ∧ sessOf t n = some z ∧
      z.leaves.length = y.leaves.length + min (stagingRoom s) ((y.accepted + 32767) / 32768 - y.leaves.length)) ∧
  (∀ (s : State) (c : Fin 4096) (x : Ctx), Ready s c (isObj 0x90) x →
    match namedVersions s x.entry (x.entry.flags % 2 = 1) false with
    | .error st => ∃ t, exec (.delete c) s = .next t ∧ RefusedWith s t c x st 0
    | .ok (o, vs) =>
      let n := (vs.filter fun v => retained v x.clock).length
      if vs.any (fun v => writeLocked s v.lrange) then
        ∃ t, exec (.delete c) s = .next t ∧ ended t c = some (endOf x 2 0x86 0 []) ∧ OnlyCtx s t c
      else if n ≠ 0 then ∃ t, exec (.delete c) s = .next t ∧ RefusedWith s t c x 0xF0 n
      else vs = [] ∨ admits s (succeed (vs.foldl (fun s v => deleteVersion s o v (x.accept + 1)) s) c vs.length) = true →
        ∃ t, exec (.delete c) s = .next t ∧ ended t c = some (endOf x 0 0 vs.length []) ∧
          ∀ v ∈ vs, (versionOf t x.entry.key v.no).map (·.state) = some .deleted) ∧
  (∀ (s : State) (c : Fin 4096) (x : Ctx), Ready s c (isObj 0x94) x →
    let op := x.entry.flags % 4; let a := x.entry.argA
    match namedVersions s x.entry (x.entry.flags / 4 % 2 = 1) true with
    | .error st => ∃ t, exec (.hold c) s = .next t ∧ RefusedWith s t c x st 0
    | .ok (o, vs) =>
      let after := fun (v : Version) => { v with
        hold := if op = 1 then true else if op = 2 then false else v.hold, retain := if a = 0 then v.retain else a }
      let ch := vs.filter fun v => after v ≠ v
      if vs.any (fun v => writeLocked s v.lrange) then
        ∃ t, exec (.hold c) s = .next t ∧ ended t c = some (endOf x 2 0x86 0 []) ∧ OnlyCtx s t c
      else if op = 2 ∧ s.prof.holdClearEn = false then ∃ t, exec (.hold c) s = .next t ∧ RefusedWith s t c x 0x90 0
      else if a ≠ 0 ∧ vs.any (fun v => a < v.retain) then ∃ t, exec (.hold c) s = .next t ∧ RefusedWith s t c x 0x91 0
      else (∀ v ∈ vs, verBy o v.no = some v) → ch = [] ∨ admits s (holdDone s c o ch after (x.accept + 1)) = true →
        ∃ t, exec (.hold c) s = .next t ∧ ended t c = some (endOf x 0 0 ch.length []) ∧
          ∀ v ∈ vs, versionOf t x.entry.key v.no = some (after v))

/-- Sync and Flush wait for exactly the dirty leaves they cover and complete once all are durable; Receipt returns a signed receipt (spec/13_object_commands.md R398, spec/12_host_transport.md R363, spec/13_object_commands.md R412, spec/16_security.md R467). -/
def Obligations.SyncFlushReceipt : Prop :=
  (∀ (s : State) (c : Fin 4096) (x : Ctx), Ready s c (isObj 0x98) x → damagedCover s x false x.entry.key = none →
    ∃ t us, exec (.sync c) s = .next t ∧ (ctxBy t c).map (·.phase) = some (.waitDurable us) ∧
      ∀ u, u ∈ us ↔ ∃ l ∈ s.stg.leaves, l.uid = u ∧ covers x x.entry.key l = true ∧ zoneOfId l.objectId = none) ∧
  (∀ (s : State) (c : Fin 4096) (x : Ctx) (d : List Byte × Nat × Nat), Ready s c (isObj 0x98) x →
    damagedCover s x false x.entry.key = some d → ∃ t, exec (.sync c) s = .next t ∧ ended t c = some (endOf x 7 0x8C d.2.1 []) ∧
      t.obj.damagedLeaves = s.obj.damagedLeaves.erase d) ∧
  (∀ (s : State) (c : Fin 4096) (x : Ctx), Ready s c (fun x => isIo x && decide (x.entry.opc = 0)) x → damagedCover s x true [] = none →
    s.pwr.wrHeld = true ∨ admits s (flushRecords s c x) = true →
    ∃ t us, exec (.flush c) s = .next t ∧ (ctxBy t c).map (·.phase) = some (.waitDurable us) ∧
      ∀ u, u ∈ us ↔ ∃ l ∈ s.stg.leaves, l.uid = u ∧ covers x [] l = true) ∧
  (∀ (s : State) (c : Fin 4096) (x : Ctx) (d : List Byte × Nat × Nat), Ready s c (fun x => isIo x && decide (x.entry.opc = 0)) x →
    damagedCover s x true [] = some d → ∃ t, exec (.flush c) s = .next t ∧ ended t c = some (endOf x 7 0x8C d.2.1 []) ∧
      t.obj.damagedLeaves = s.obj.damagedLeaves.erase d) ∧
  (∀ (s : State) (c : Fin 4096) (x : Ctx) (us : List Nat) (y : SubQueue) (cq : CompQueue), ctxBy s c = some x →
    x.phase = .waitDurable us → (∀ u ∈ us, ∀ l, stagedBy s u = some l → l.dirty = false) → s.flt.class3 = false →
    sqBy s x.sq = some y → cqBy s y.cq = some cq → (cq.tail + 1) % cq.size ≠ cq.head → c.val ∉ s.host.dataErr →
    mayPost (finish s c 0 0 0) { x with phase := .done (endOf x 0 0 0 []) } = true →
    ∃ t, exec (.completionPost c) s = .next t ∧ ctxBy t c = none ∧
      (cqBy t y.cq).map (·.entries) = some (cq.entries ++ [⟨x.sq, x.entry.cid, endOf x 0 0 0 []⟩])) ∧
  (∀ (s : State) (c : Fin 4096) (x : Ctx) (o : Obj) (v : Version), ctxBy s c = some x → isObj 0x9E x = true →
    x.phase = .reading o.id v.no → x.checked = true → (s.obj.objs.find? fun q => q.id = o.id) = some o → verBy o v.no = some v →
    maySign s = true → s.sec.op = some (.signing (some c.val)) → s.sec.opRetry = false →
    let r := receiptBody s (1 + x.entry.flags % 2) o.key o.id v
    ∃ t, exec (.receipt c) s = .next t ∧
      ended t c = some (endOf x 0 0 (r ++ falconSig s (shake256 r 64)).length (r ++ falconSig s (shake256 r 64))) ∧
      t = { s with host.ctxs := t.host.ctxs, sec.op := none, freeCtr := s.freeCtr + 1 } ∧
      (s.sec.serial.length = 16 → o.key.length ≤ 256 → v.digest.length ≤ 64 → r.length = 416))

/-- A zoned write at the write pointer, and an append, move the write pointer on and stage their bytes, or are refused by a zone status (spec/14_zoned_access.md R416, spec/14_zoned_access.md R420, spec/14_zoned_access.md R422). -/
def Obligations.ZonedWritesAndAppends : Prop :=
  (∀ (s : State) (c : Fin 4096) (data : List Byte) (x : Ctx) (app : Bool), Ready s c isZoned x →
    x.entry.opc = (if app then 0x7D else 0x01) →
    let z := x.entry.slba / zoneLbas; let zn := zoneBy s z; let n := x.entry.nlb; let lba := z * zoneLbas + zn.wp
    let cmd : Instr := if app then .zoneAppend c data else .zoneWrite c data
    let u := zoneTaken s c x z
    x.entry.slba + (if app then 1 else n) ≤ znsSize s → x.entry.slba % zoneLbas = (if app then 0 else zn.wp) →
    lbasLocked s writeLocked lba (lba + n) = false → (zoneHeld s z x.accept = false → zn.absorbed.length = zn.wp * 4096) →
    (zn.state ≠ .empty → zn.wp + n ≤ zn.zcap →
      ∃ t, exec cmd s = .next t ∧ (zoneBy t z).wp = zn.wp + n ∧
        (zoneBy t z).state = (if zn.wp + n = zn.zcap then .full else if zn.state = .closed then .implicitOpen else zn.state) ∧
        (zoneHeld s z x.accept = false → admits u.1 (zoneStage u.1 c u.2 z zn.wp data) = true →
          (zoneBy t z).written = (zn.wp + n) * 4096 ∧ (zoneBy t z).absorbed = zn.absorbed ++ padTo (n * 4096) (data.take (n * 4096)) ∧
          ended t c = some (if app then ⟨0, 0, lba % 2 ^ 32, lba / 2 ^ 32, []⟩ else endOf x 0 0 0 [])) ∧
        (zoneHeld s z x.accept = true ∨ admits u.1 (zoneStage u.1 c u.2 z zn.wp data) = false →
          (ctxBy t c).map (·.phase) = some .held ∧ (zoneBy t z).absorbed = zn.absorbed)) ∧
    (zn.state ≠ .empty → zn.zcap < zn.wp + n →
      ∃ t, exec cmd s = .next t ∧ ended t c = some (endOf x 1 0xB8 0 []) ∧ OnlyCtx s t c) ∧
    (zn.state = .empty → 16 ≤ activeZones s →
      ∃ t, exec cmd s = .next t ∧ ended t c = some (endOf x 1 0xBD 0 []) ∧ OnlyCtx s t c) ∧
    (∀ u, zn.state = .empty → activeZones s < 16 → zoneForm s z .implicitOpen = some u → zn.wp + n ≤ (zoneBy u z).zcap →
      ∃ t, exec cmd s = .next t ∧ (zoneBy t z).wp = zn.wp + n ∧ (zoneBy t z).zcap = (zoneBy u z).zcap ∧
        ((zoneBy t z).state = .implicitOpen ∨ (zoneBy t z).state = .full))) ∧
  (∀ (s : State) (c : Fin 4096) (data : List Byte) (x : Ctx) (app : Bool) (z lba : Nat) (p : ReadPart), ctxBy s c = some x →
    isZoned x = true → x.entry.opc = (if app then 0x7D else 0x01) → x.phase = .held → x.parts = [p] → c.val ∉ s.host.dataErr →
    let cmd : Instr := if app then .zoneAppend c data else .zoneWrite c data
    let at' := z * zoneLbas + lba
    let done := fun (t : State) => ended t c = some (if app then ⟨0, 0, at' % 2 ^ 32, at' / 2 ^ 32, []⟩ else endOf x 0 0 0 [])
    (p.start = lba → p.place = some (z, (zoneBy s z).resets) → zoneHeld s z x.accept = false →
      admits s (zoneStage s c x z lba data) = true → ∃ t, exec cmd s = .next t ∧ done t ∧
        (zoneBy t z).absorbed = (zoneBy s z).absorbed ++ padTo (x.entry.nlb * 4096) (data.take (x.entry.nlb * 4096))) ∧
    (∀ gen, p.start = lba → p.place = some (z, gen) → gen ≠ (zoneBy s z).resets → ∃ t, exec cmd s = .next t ∧ done t ∧ OnlyCtx s t c)) ∧
  (∀ (s : State) (c : Fin 4096) (data : List Byte) (x : Ctx), Ready s c isZoned x → x.entry.opc = 0x01 →
    x.entry.slba + x.entry.nlb ≤ znsSize s → x.entry.slba % zoneLbas ≠ (zoneBy s (x.entry.slba / zoneLbas)).wp →
    ∃ t, exec (.zoneWrite c data) s = .next t ∧ ended t c = some (endOf x 1 0xBC 0 []) ∧ OnlyCtx s t c) ∧
  (∀ (s : State) (c : Fin 4096) (data : List Byte) (x : Ctx), Ready s c isZoned x → x.entry.opc = 0x7D →
    x.entry.slba < znsSize s → x.entry.slba % zoneLbas ≠ 0 →
    ∃ t, exec (.zoneAppend c data) s = .next t ∧ ended t c = some (endOf x 0 2 0 []) ∧ OnlyCtx s t c)

/-- A zoned Read returns the bytes of its leaves, or a media error; Report Zones returns its descriptors (spec/14_zoned_access.md R421, spec/14_zoned_access.md R419). -/
def Obligations.ZonedReadsAndReports : Prop :=
  (∀ (s : State) (c : Fin 4096) (x : Ctx) (a b : Nat) (r : Request), ctxBy s c = some x → isZoned x = true → x.entry.opc = 0x02 →
    x.phase = .reading a b → reqBy s c = some r → reqSettled r = true →
    let ps := partsWith x.parts (r.leaves.map (·.data))
    (∀ i, firstMissing ps = some i → ∃ t, exec (.zoneRead c) s = .next t ∧ ended t c = some (endOf x 2 0x81 0 []) ∧
      t = { s with host.ctxs := t.host.ctxs, reqs := t.reqs }) ∧
    (∀ d, firstMissing ps = none → allBytes s ps = some d → ∃ t, exec (.zoneRead c) s = .next t ∧
      ended t c = some (endOf x 0 0 0 d) ∧ t = { s with host.ctxs := t.host.ctxs, reqs := t.reqs })) ∧
  (∀ (s : State) (c : Fin 4096) (x : Ctx), Ready s c isZoned x → x.entry.opc = 0x02 → znsSize s < x.entry.slba + x.entry.nlb →
    ∃ t, exec (.zoneRead c) s = .next t ∧ ended t c = some (endOf x 0 0x80 0 []) ∧ OnlyCtx s t c) ∧
  (∀ (s : State) (c : Fin 4096) (x : Ctx), Ready s c (fun x => isZoned x && decide (x.entry.opc = 0x7A)) x →
    x.entry.slba < znsSize s →
    let n := (x.entry.dw12.toNat + 1) * 4
    let zs := ((List.range s.zns.zones.length).drop (x.entry.slba / zoneLbas)).filter fun i =>
      zoneReported (zoneBy s i) (dwBits x.entry.dw13 15 8)
    let shown := if dwBits x.entry.dw13 16 16 = 1 then min ((n - 64) / 64) zs.length else zs.length
    ∃ t, exec (.reportZones c) s = .next t ∧ OnlyCtx s t c ∧ ended t c = some (endOf x 0 0 0
      (padTo n ((leBytes 8 shown ++ zeroBytes 56 ++ (zs.take ((n - 64) / 64)).flatMap (zoneDesc s)).take n))))

/-- Open, Close, Finish and Reset move the zones they name, one or all of the states they take, or end with a zone status (spec/14_zoned_access.md R422, spec/14_zoned_access.md R423, spec/14_zoned_access.md R424). -/
def Obligations.ZoneManagement : Prop :=
  (∀ (s : State) (c : Fin 4096) (x : Ctx) (z : Nat), Ready s c (isZms 3) x → dwBits x.entry.dw13 8 8 = 0 →
    x.entry.slba = z * zoneLbas → z < s.zns.zones.length →
    let st := (zoneBy s z).state
    ((st = .implicitOpen ∨ st = .explicitOpen ∨ st = .closed) → ∃ t, exec (.zoneOpen c) s = .next t ∧
      ended t c = some (endOf x 0 0 0 []) ∧ zoneBy t z = { zoneBy s z with state := .explicitOpen } ∧
      (∀ y, y ≠ z → zoneBy t y = zoneBy s y) ∧ t = { s with host.ctxs := t.host.ctxs, zns := t.zns }) ∧
    (st = .full → ∃ t, exec (.zoneOpen c) s = .next t ∧ ended t c = some (endOf x 1 0xBF 0 []) ∧ OnlyCtx s t c) ∧
    (st = .empty → 16 ≤ activeZones s → ∃ t, exec (.zoneOpen c) s = .next t ∧ ended t c = some (endOf x 1 0xBD 0 []) ∧ OnlyCtx s t c) ∧
    (∀ u, st = .empty → activeZones s < 16 → zoneForm s z .explicitOpen = some u → ∃ t, exec (.zoneOpen c) s = .next t ∧
      ended t c = some (endOf x 0 0 0 []) ∧ (zoneBy t z).state = .explicitOpen ∧ t = { u with host.ctxs := t.host.ctxs })) ∧
  (∀ (s : State) (c : Fin 4096) (x : Ctx) (z : Nat), Ready s c (isZms 1) x → dwBits x.entry.dw13 8 8 = 0 →
    x.entry.slba = z * zoneLbas → z < s.zns.zones.length →
    let st := (zoneBy s z).state
    (st ≠ .empty → st ≠ .full → ∃ t, exec (.zoneClose c) s = .next t ∧ ended t c = some (endOf x 0 0 0 []) ∧
      zoneBy t z = { zoneBy s z with state := .closed } ∧ (∀ y, y ≠ z → zoneBy t y = zoneBy s y) ∧
      t = { s with host.ctxs := t.host.ctxs, zns := t.zns }) ∧
    ((st = .empty ∨ st = .full) → ∃ t, exec (.zoneClose c) s = .next t ∧ ended t c = some (endOf x 1 0xBF 0 []) ∧ OnlyCtx s t c)) ∧
  (∀ (s : State) (c : Fin 4096) (x : Ctx), Ready s c (isZms 3) x → dwBits x.entry.dw13 8 8 = 1 →
    ∃ t, exec (.zoneOpen c) s = .next t ∧ ended t c = some (endOf x 0 0 0 []) ∧ t = { s with host.ctxs := t.host.ctxs, zns := t.zns } ∧
      ∀ z, zoneBy t z = if (zoneBy s z).state = .closed then { zoneBy s z with state := .explicitOpen } else zoneBy s z) ∧
  (∀ (s : State) (c : Fin 4096) (x : Ctx), Ready s c (isZms 1) x → dwBits x.entry.dw13 8 8 = 1 →
    ∃ t, exec (.zoneClose c) s = .next t ∧ ended t c = some (endOf x 0 0 0 []) ∧ t = { s with host.ctxs := t.host.ctxs, zns := t.zns } ∧
      ∀ z, zoneBy t z = if (zoneBy s z).state = .implicitOpen ∨ (zoneBy s z).state = .explicitOpen then
        { zoneBy s z with state := .closed } else zoneBy s z) ∧
  (∀ (s : State) (c : Fin 4096) (x : Ctx) (zs : List Nat), Ready s c (isZms 2) x → zmsZones s x.entry zoneActive = some zs →
    let locked := zs.any fun z => lbasLocked s writeLocked (z * zoneLbas) ((z + 1) * zoneLbas)
    let u := zmsRun s c x.entry zoneActive (finishOne (x.accept + 1))
    (locked = true → ∃ t, exec (.zoneFinish c) s = .next t ∧ ended t c = some (endOf x 2 0x86 0 []) ∧ OnlyCtx s t c) ∧
    (locked = false → (∃ z ∈ zs, zoneHeld s z x.accept = true) → exec (.zoneFinish c) s = .next s) ∧
    (locked = false → (∀ z ∈ zs, zoneHeld s z x.accept = false) →
      (admits s u = false → exec (.zoneFinish c) s = .next (if s.pwr.wrHeld then s else writeHome s)) ∧
      (admits s u = true → (∀ z ∈ zs, z < s.zns.zones.length) →
        (∀ z ∈ zs, (zoneBy s z).state = .empty → zoneForm s z .full ≠ none) →
        ∃ t, exec (.zoneFinish c) s = .next t ∧ ended t c = some (endOf x 0 0 0 []) ∧
          (∀ z ∈ zs, (zoneBy t z).state = .full ∧ ((zoneBy s z).state ≠ .full → (zoneBy t z).wp = (zoneBy t z).zcap) ∧
            ((zoneBy s z).state ≠ .empty → (zoneBy t z).zcap = (zoneBy s z).zcap)) ∧
          ∀ y, y ∉ zs → (zoneBy t y).state = (zoneBy s y).state ∧ (zoneBy t y).wp = (zoneBy s y).wp) ∧
      (admits s u = true → ∀ z, zs = [z] → (zoneBy s z).state = .empty → zoneForm s z .full = none →
        ∃ t, exec (.zoneFinish c) s = .next t ∧ ended t c = some (endOf x 1 0xBD 0 [])))) ∧
  (∀ (s : State) (c : Fin 4096) (x : Ctx) (zs : List Nat), Ready s c (isZms 4) x → zmsZones s x.entry zoneUsed = some zs →
    let locked := zs.any fun z => lbasLocked s writeLocked (z * zoneLbas) ((z + 1) * zoneLbas)
    let reading := zs.any fun z => (zoneGroups s z).any (groupRead s)
    let u := zmsRun s c x.entry zoneUsed (resetOne (x.accept + 1))
    (locked = true → ∃ t, exec (.zoneReset c) s = .next t ∧ ended t c = some (endOf x 2 0x86 0 []) ∧ OnlyCtx s t c) ∧
    (locked = false → reading = true → exec (.zoneReset c) s = .next s) ∧
    (locked = false → reading = false → admits s u = false →
      exec (.zoneReset c) s = .next (if s.pwr.wrHeld then s else writeHome s)) ∧
    (locked = false → reading = false → admits s u = true → (∀ z ∈ zs, z < s.zns.zones.length) →
      ∃ t, exec (.zoneReset c) s = .next t ∧ ended t c = some (endOf x 0 0 0 []) ∧
        (∀ z ∈ zs, (zoneBy t z).state = .empty ∧ ((zoneBy s z).state ≠ .empty →
          (zoneBy t z).wp = 0 ∧ (zoneBy t z).resets = (zoneBy s z).resets + 1)) ∧
        ∀ y, y ∉ zs → (zoneBy t y).state = (zoneBy s y).state ∧ (zoneBy t y).wp = (zoneBy s y).wp)) ∧
  (∀ (s : State) (c : Fin 4096) (x : Ctx), dwBits x.entry.dw13 8 8 = 0 → znsSize s ≤ x.entry.slba ∨ x.entry.slba % zoneLbas ≠ 0 →
    let st := if znsSize s ≤ x.entry.slba then 0x80 else 2
    (Ready s c (isZms 3) x → ∃ t, exec (.zoneOpen c) s = .next t ∧ ended t c = some (endOf x 0 st 0 []) ∧ OnlyCtx s t c) ∧
    (Ready s c (isZms 1) x → ∃ t, exec (.zoneClose c) s = .next t ∧ ended t c = some (endOf x 0 st 0 []) ∧ OnlyCtx s t c))

/-- Every Cyzon operation checks its packet, its tag, the open tags and its authorization before it acts (spec/15_cyzon_and_migration.md R426, spec/15_cyzon_and_migration.md R430, spec/15_cyzon_and_migration.md R432, spec/15_cyzon_and_migration.md Table 15.2, spec/15_cyzon_and_migration.md Table 15.3). -/
def Obligations.CyzonPacketsAreChecked : Prop :=
  ∀ (s : State) (p : CyzonPath) (pkt : List Byte) (g o : Nat) (i : Instr),
    (g, o, i) ∈ [(0, 0, Instr.result p pkt), (0, 1, .identifyCyzon p pkt), (1, 0, .health p pkt), (1, 1, .irateMeasure p pkt),
      (1, 2, .checkerTest p pkt), (2, 0, .profileLoad p pkt), (2, 1, .profileActivate p pkt), (2, 2, .commit p pkt), (2, 3, .regRead p pkt),
      (2, 4, .regWrite p pkt), (3, 0, .mediaProgress p pkt), (4, 0, .auditStart p pkt), (4, 1, .auditEntries p pkt),
      (4, 2, .auditSummary p pkt), (4, 3, .pin p pkt), (4, 4, .unpin p pkt), (4, 5, .holdClear p pkt), (5, 0, .exportOpen p pkt),
      (5, 1, .exportRead p pkt), (5, 2, .exportClose p pkt), (6, 0, .logRead p pkt)] →
    CyzonArrives s p pkt →
    let q := cyzQ p pkt
    ∃ t, exec i s = .next t ∧
      (pktOk q.mctp pkt = false → TurnedAway s t p pkt 3) ∧
      (pktOk q.mctp pkt = true → (∀ e ∈ cyzOps, ¬ (e.1 = q.group ∧ e.2.1 = q.op)) → TurnedAway s t p pkt 4) ∧
      (pktOk q.mctp pkt = true → q.group = g → q.op = o → (q.mctp, q.tag) ∈ s.cyz.open_ → TurnedAway s t p pkt 0xA) ∧
      (pktOk q.mctp pkt = true → q.group = g → q.op = o → (q.mctp, q.tag) ∉ s.cyz.open_ → 16 ≤ openTags s q →
        TurnedAway s t p pkt 5) ∧
      (pktOk q.mctp pkt = true → q.group = g → q.op = o → (q.mctp, q.tag) ∉ s.cyz.open_ → exclusiveRuns s = true →
        (∃ a, (g, o, true, a) ∈ cyzOps) → TurnedAway s t p pkt 5) ∧
      (CyzonTakes s p pkt g o → pktAuth pkt = false → (∃ e, (g, o, e, true) ∈ cyzOps) →
        Replied t p pkt 6 0 [] true ∧ t.sec = s.sec) ∧
      (CyzonTakes s p pkt g o → pktAuth pkt = true → authOk s pkt = none → Replied t p pkt 6 0 [] true ∧ t.sec = s.sec)

/-- RESULT, IDENTIFY, HEALTH, IRATE_MEASURE, CHECKER_TEST, MEDIA_PROGRESS and LOG_READ reply as their tables say (spec/15_cyzon_and_migration.md R428, spec/15_cyzon_and_migration.md R433, spec/15_cyzon_and_migration.md Table 15.4, spec/15_cyzon_and_migration.md Table 15.5, spec/17_faults_and_ash_log.md R503, spec/04_read_channel.md R103). -/
def Obligations.CyzonReads : Prop :=
  ∀ (s : State) (p : CyzonPath) (pkt : List Byte), pktAuth pkt = false →
    let q := cyzQ p pkt; let b := pkt.drop 16
    (∀ r, CyzonTakes s p pkt 0 0 → 2 ≤ b.length → heldReply s q.mctp (leNat (slice b 0 2)) = some r →
      ∃ t, exec (.result p pkt) s = .next t ∧
        Replied t p pkt r.status (if r.status = 2 ∨ r.status = 9 then r.reason else 0) r.body true ∧
        (r.final = true → leNat (slice b 0 2) ≠ q.tag →
          heldReply t q.mctp (leNat (slice b 0 2)) = none ∧ (q.mctp, leNat (slice b 0 2)) ∉ t.cyz.open_)) ∧
    (CyzonTakes s p pkt 0 1 → ∃ t, exec (.identifyCyzon p pkt) s = .next t ∧ Replied t p pkt 0 0
      (Config.cyzIdentity s.sec.serial (lcCode s.sec.lc) s.seq.masterBase.toNat s.seq.masterPatch.toNat s.prof.pversion 1) true) ∧
    (CyzonTakes s p pkt 1 0 → ∃ t, exec (.health p pkt) s = .next t ∧ Replied t p pkt 0 0 (healthBody s) true ∧
      (healthBody s).length = 80 ∧ t = { s with host.ctxs := t.host.ctxs, cyz := t.cyz }) ∧
    (CyzonTakes s p pkt 3 0 → ∃ t m, exec (.mediaProgress p pkt) s = .next t ∧ Replied t p pkt 0 0 m true ∧ m.length = 24 ∧
      m.take 4 = [BitVec.ofNat 8 s.mop.rec_.op, BitVec.ofNat 8 s.mop.rec_.state, BitVec.ofNat 8 s.mop.rec_.pass, BitVec.ofNat 8 s.mop.rec_.passes] ∧
      t = { s with host.ctxs := t.host.ctxs, cyz := t.cyz }) ∧
    (CyzonTakes s p pkt 6 0 → ∃ t, exec (.logRead p pkt) s = .next t ∧ t = { s with host.ctxs := t.host.ctxs, cyz := t.cyz } ∧
      match Config.cyzLog b with
      | none => Replied t p pkt 3 0 [] true
      | some (true, first, n) =>
        Replied t p pkt 0 0 ((((s.ash.health.reverse.drop first).take n).flatMap Config.healthEntry).take (pathRoom q)) true
      | some (false, first, n) => Replied t p pkt 0 0
        (((s.ash.ring.reverse.filter fun r => first ≤ r.seq).take (min n (pathRoom q / 256))).flatMap ashBytes) true) ∧
    (CyzonTakes s p pkt 1 1 → match Config.cyzHeadZone b with
      | none => ∃ t, exec (.irateMeasure p pkt) s = .next t ∧ Replied t p pkt 3 0 [] true
      | some (surface, zone) =>
        let a := actOf surface
        (∀ cap, (chanAt s a).loaded = some (surface, zone) → irateReady s a = true → captureDone s a = some cap →
          ∃ t, exec (.irateMeasure p pkt) s = .next t ∧
            Replied t p pkt 0 0 (leBytes 4 (irate0 t a).toNat ++ leBytes 4 (irate1 t a).toNat) true ∧
            (a < 4 → (chanAt t a).irValid = true ∧ (chanAt t a).irZone = BitVec.ofNat 12 zone ∧
              (chanAt t a).irHead = BitVec.ofNat 3 surface ∧
              (chanAt t a).irDet = BitVec.ofNat 16 (min 0xFFFF (detectorRate cap * 65536).floor.toNat))) ∧
        ((chanAt s a).loaded ≠ some (surface, zone) ∨ irateReady s a = false ∨ captureDone s a = none →
          exec (.irateMeasure p pkt) s = .next s)) ∧
    (CyzonTakes s p pkt 1 2 → ∃ t, exec (.checkerTest p pkt) s = .next t ∧
      match Config.cyzTest b with
      | none => Replied t p pkt 3 0 [] true
      | some (n, _) => if (vget t.reg.flipCtl n 0).getLsbD 31 = true then Replied t p pkt 1 0 [] false ∧ (n.val, q.mctp, q.tag) ∈ t.cyz.tests
          else Replied t p pkt 2 (blkCtl t (6 + n)).chkReason.toNat [] true)

/-- PROFILE_LOAD stages bytes; an accepted activation moves the slot pointer; COMMIT makes the present CRC the reference; registers are read and written (spec/15_cyzon_and_migration.md R435, spec/15_cyzon_and_migration.md R436, spec/15_cyzon_and_migration.md R437, spec/15_cyzon_and_migration.md R438, spec/15_cyzon_and_migration.md R440). -/
def Obligations.CyzonProfilesAndRegisters : Prop :=
  (∀ (s : State) (p : CyzonPath) (pkt : List Byte), pktAuth pkt = false →
    let b := pkt.drop 16; let o := leNat (slice b 0 4)
    (CyzonTakes s p pkt 2 0 → 8 ≤ b.length → o + (b.length - 8) ≤ 2 ^ 20 → Memory.wf s.cyz.stage = true →
      ∃ t, exec (.profileLoad p pkt) s = .next t ∧ Replied t p pkt 0 0 [] true ∧
        (∀ i, i < b.length - 8 → memGet t.cyz.stage (o + i) = b.getD (8 + i) 0) ∧
        (∀ a, a < o ∨ o + (b.length - 8) ≤ a → memGet t.cyz.stage a = memGet s.cyz.stage a) ∧
        t = { s with host.ctxs := t.host.ctxs, cyz := t.cyz }) ∧
    (CyzonTakes s p pkt 2 0 → 8 ≤ b.length → 2 ^ 20 < o + (b.length - 8) →
      ∃ t, exec (.profileLoad p pkt) s = .next t ∧ Replied t p pkt 2 4 [] true ∧ t.cyz.stage = s.cyz.stage) ∧
    (CyzonTakes s p pkt 2 3 → ∃ t, exec (.regRead p pkt) s = .next t ∧
      match Config.cyzRegRead b with
      | none => Replied t p pkt 3 0 [] true
      | some (blk, o, n) =>
        if n = 0 then Replied t p pkt 2 1 [] true
        else if 256 < n then Replied t p pkt 2 4 [] true
        else if o % 4 ≠ 0 then Replied t p pkt 2 3 [] true
        else ∃ ws, Replied t p pkt 0 0 ws true ∧ ws.length = 4 * n ∧ ws.take 4 = leBytes 4 (regRead s blk o).2.toNat)) ∧
  (∀ (s : State) (p : CyzonPath) (pkt : List Byte), pktAuth pkt = true →
    (CyzonTakes s p pkt 2 1 → ∃ t, exec (.profileActivate p pkt) s = .next t ∧
      ∀ seq b, authOk s pkt = some (seq, b) → t.sec.authSeq = seq ∧
        (activateHeld s = true → Replied t p pkt 1 0 [] false ∧ t.cyz.held.isSome = true) ∧
        (activateHeld s = false → (profileVerdict s).1 ≠ 0 →
          Replied t p pkt 2 (profileVerdict s).1 (profileVerdict s).2 true ∧ t.cyz.slot = s.cyz.slot ∧ t.cyz.slots = s.cyz.slots) ∧
        (activateHeld s = false → (profileVerdict s).1 = 0 →
          Replied t p pkt 0 0 [] true ∧ t.cyz.slot = 1 - s.cyz.slot ∧ vget t.cyz.slots t.cyz.slot [] = stagedFile s)) ∧
    (CyzonTakes s p pkt 2 2 → ∃ t, exec (.commit p pkt) s = .next t ∧
      ∀ seq b, authOk s pkt = some (seq, b) → 4 ≤ b.length → t.sec.authSeq = seq ∧ t.reg.ck = s.reg.ck ∧
        (BitVec.ofNat 32 (leNat (slice b 0 4)) = ckCrc s.reg.ck →
          Replied t p pkt 0 0 [] true ∧ t.reg.crcRef = ckCrc s.reg.ck ∧ t.reg.editEnd = none ∧
          t.reg.overlay.getD t.reg.profCk = s.reg.ck) ∧
        (BitVec.ofNat 32 (leNat (slice b 0 4)) ≠ ckCrc s.reg.ck → Replied t p pkt 2 7 [] true ∧ t.reg = s.reg)) ∧
    (CyzonTakes s p pkt 2 4 → ∃ t, exec (.regWrite p pkt) s = .next t ∧
      ∀ seq b, authOk s pkt = some (seq, b) → match Config.cyzRegWrite b with
        | none => Replied t p pkt 3 0 [] true
        | some (blk, o, w, keyed) =>
          if s.sec.lc ≠ .provisioned ∧ s.sec.lc ≠ .deployed ∧ s.sec.lc ≠ .diagnostic then Replied t p pkt 2 6 [] true ∧ t.reg = s.reg
          else if o % 4 ≠ 0 then Replied t p pkt 2 3 [] true ∧ t.reg = s.reg
          else
            let r := (regWriteReason { s with sec.authSeq := seq } blk o w keyed).2
            Replied t p pkt (if r = 0 ∨ r = 0xFF then 0 else 2) (if r = 0 ∨ r = 0xFF then 0 else r) [] true)) ∧
  (∀ (s : State) (h : HeldActivate), s.cyz.held = some h → activateHeld s = false →
    ∃ t, exec .profileActivateResume s = .next t ∧ t.cyz.held = none ∧
      ((profileVerdict s).1 = 0 → t.cyz.slot = 1 - s.cyz.slot ∧ vget t.cyz.slots t.cyz.slot [] = stagedFile s) ∧
      ((profileVerdict s).1 ≠ 0 → t.cyz.slot = s.cyz.slot ∧ t.cyz.slots = s.cyz.slots) ∧
      (∀ r, heldReply s (decide (h.path = .mctp)) h.tag = some r → r.final = false →
        heldReply t (decide (h.path = .mctp)) h.tag = some { r with
          status := if (profileVerdict s).1 = 0 then 0 else 2, reason := (profileVerdict s).1, body := (profileVerdict s).2,
          final := true, delivered := false }))

/-- PIN and UNPIN set and clear a version's pin, with at most 64; HOLD_CLEAR clears the legal hold of one version or all and nothing else of them (spec/15_cyzon_and_migration.md R431, spec/15_cyzon_and_migration.md R450, spec/10_hob_cache_dma.md R284). -/
def Obligations.CyzonPinsAndHolds : Prop :=
  (∀ (s : State) (p : CyzonPath) (pkt : List Byte) (key : List Byte) (no : Nat), pktAuth pkt = false →
    keyBody (pkt.drop 16) = some (key, no) → mayPlace s = true →
    (∀ o v, CyzonTakes s p pkt 4 3 → resolve s key no true = .ok (o, v) → verBy o v.no = some v →
      ∃ t, exec (.pin p pkt) s = .next t ∧ t.host.accept = s.host.accept + 1 ∧
        (v.pinned = true → Replied t p pkt 0 0 [] true ∧ t.obj = s.obj) ∧
        (v.pinned = false → pins s < 64 → Replied t p pkt 0 0 [] true ∧ versionOf t key v.no = some { v with pinned := true }) ∧
        (v.pinned = false → 64 ≤ pins s → Replied t p pkt 2 4 [] true ∧ t.obj = s.obj)) ∧
    (∀ o v, CyzonTakes s p pkt 4 4 → resolve s key no false = .ok (o, v) → verBy o v.no = some v →
      ∃ t, exec (.unpin p pkt) s = .next t ∧ Replied t p pkt 0 0 [] true ∧ versionOf t key v.no = some { v with pinned := false }) ∧
    (∀ e, CyzonTakes s p pkt 4 3 → resolve s key no true = .error e →
      ∃ t, exec (.pin p pkt) s = .next t ∧ Replied t p pkt 2 1 [] true ∧ t.obj = s.obj) ∧
    (∀ e, CyzonTakes s p pkt 4 4 → resolve s key no false = .error e →
      ∃ t, exec (.unpin p pkt) s = .next t ∧ Replied t p pkt 2 1 [] true ∧ t.obj = s.obj)) ∧
  (∀ (s : State) (p : CyzonPath) (pkt b key : List Byte) (seq no : Nat), CyzonTakes s p pkt 4 5 → pktAuth pkt = true →
    mayPlace s = true → authOk s pkt = some (seq, b) → keyBody b = some (key, no) →
    let u := { s with sec.authSeq := seq }
    let done := (holdCleared u (cyzQ p pkt) key no (Config.cyzHoldAll b)).1
    let named := holdNamed s key no (Config.cyzHoldAll b)
    (admits u done = true →
      ∃ t, exec (.holdClear p pkt) s = .next t ∧ t.sec.authSeq = seq ∧ t.host.accept = s.host.accept + 1 ∧
        (named = none → Replied t p pkt 2 1 [] true ∧ t.obj = s.obj) ∧
        (∀ o vs, named = some (o, vs) → (∀ v ∈ vs, verBy o v.no = some v) →
          Replied t p pkt 0 0 [] true ∧ ∀ v ∈ vs, versionOf t key v.no = some { v with hold := false })) ∧
    (admits u done = false → exec (.holdClear p pkt) s =
      .next { (if s.pwr.wrHeld then u else writeHome u) with sec.authSeq := s.sec.authSeq }))

/-- An audit covers its scope as it stands, gives each version one entry, and ends with a signed summary; an export is read in order (spec/15_cyzon_and_migration.md R444, spec/15_cyzon_and_migration.md R445, spec/15_cyzon_and_migration.md R448, spec/15_cyzon_and_migration.md R451, spec/15_cyzon_and_migration.md R453, spec/15_cyzon_and_migration.md Table 15.6). -/
def Obligations.CyzonAuditsAndExports : Prop :=
  (∀ (s : State) (p : CyzonPath) (pkt : List Byte), CyzonTakes s p pkt 4 0 → pktAuth pkt = false → mayPlace s = true →
    ∃ t, exec (.auditStart p pkt) s = .next t ∧
      match Config.cyzAudit (pkt.drop 16) with
      | none => Replied t p pkt 3 0 [] true
      | some (sc, keep) => t.host.accept = s.host.accept + 1 ∧
        Replied t p pkt 1 0 (Config.cyzAuditReply 0 s.host.accept) false ∧
        ∃ a, t.cyz.audit = some a ∧ a.id = s.host.accept ∧ a.scope = sc ∧ a.keep = keep ∧ a.todo = scopeItems s sc ∧ a.checked = 0) ∧
  (∀ (s : State) (a : Audit), s.cyz.audit = some a → s.pwr.restored = true → s.flt.class3 = false →
    (a.keep = true → a.kept.length < 1024) →
    (∀ i rest, a.todo = i :: rest → ∃ t, exec .auditVersionCheck s = .next t ∧
      (itemVersion s i = none → t.cyz.audit = some { a with todo := rest }) ∧
      (∀ v res, itemVersion s i = some v → (v.damaged = true ∧ res = 4 ∨ v.damaged = false ∧ itemLocked s i v = true ∧ res = 3) →
        ∃ b, t.cyz.audit = some b ∧ b.todo = rest ∧ b.checked = a.checked + 1 ∧ b.hashed = a.hashed ++ auditEntry i v res ∧
          b.counts = a.counts.modify 3 (· + 1) ∧ (a.keep = true → b.kept = a.kept ++ [(i, auditEntry i v res)]))) ∧
    (a.todo = [] → maySign s = true → s.sec.op = some (.signing none) → s.sec.opRetry = false →
      ∃ t, exec .auditVersionCheck s = .next t ∧ t.cyz.audit = none ∧ t.cyz.ended = a.kept.map (·.2) ∧
        t.cyz.summaries.head? = some ⟨1, a.id, summaryBody s a 1 ++ falconSig s (shake256 (summaryBody s a 1) 64), true⟩)) ∧
  (∀ (s : State) (p : CyzonPath) (pkt : List Byte), pktAuth pkt = false →
    let n := pathRoom (cyzQ p pkt) / 88
    (∀ a, CyzonTakes s p pkt 4 1 → s.cyz.audit = some a → ∃ t, exec (.auditEntries p pkt) s = .next t ∧
      Replied t p pkt 0 0 ((a.kept.take n).flatMap (·.2)) true ∧ t.cyz.audit = some { a with kept := a.kept.drop n }) ∧
    (CyzonTakes s p pkt 4 1 → s.cyz.audit = none → ∃ t, exec (.auditEntries p pkt) s = .next t ∧
      Replied t p pkt 0 0 (s.cyz.ended.take n).flatten true ∧ t.cyz.ended = s.cyz.ended.drop n) ∧
    (CyzonTakes s p pkt 4 2 → ∃ t, exec (.auditSummary p pkt) s = .next t ∧
      match Config.cyzSummary (pkt.drop 16) with
      | none => Replied t p pkt 3 0 [] true
      | some (byId, k) =>
        (maySign s = false → Replied t p pkt 9 0x20 [] true) ∧
        (maySign s = true → ∀ x, (s.cyz.summaries.find? fun x => if byId then x.kind = 1 ∧ x.auditId = k else x.kind = k) = some x →
          x.signed = true → Replied t p pkt 0 0 x.bytes true)) ∧
    (CyzonTakes s p pkt 5 0 → maySign s = true → mayPlace s = true → ∃ t, exec (.exportOpen p pkt) s = .next t ∧
      match Config.cyzExport (pkt.drop 16) with
      | none => Replied t p pkt 3 0 [] true
      | some (.inl sc) => (s.cyz.exp.isSome = true → Replied t p pkt 5 0 [] true ∧ t.cyz.exp = s.cyz.exp) ∧
        (s.cyz.exp = none → Replied t p pkt 0 0 (Config.cyzExportReply s.host.accept) true ∧
          ∃ x, t.cyz.exp = some x ∧ x.id = s.host.accept ∧ x.todo = scopeItems s sc ∧ x.stage = 0)
      | some (.inr id) => (∀ x, s.cyz.exp = some x → x.id = id → Replied t p pkt 0 0 (Config.cyzExportReply id) true) ∧
        ((∀ x, s.cyz.exp = some x → x.id ≠ id) → Replied t p pkt 2 1 [] true ∧ t.cyz.exp = s.cyz.exp)) ∧
    (∀ x, CyzonTakes s p pkt 5 1 → s.cyz.exp = some x → x.left ≠ [] → ∃ t y, exec (.exportRead p pkt) s = .next t ∧
      Replied t p pkt 0 0 (x.left.take (pathRoom (cyzQ p pkt) - 16)) true ∧ t.cyz.exp = some y ∧
      y.left = x.left.drop (pathRoom (cyzQ p pkt) - 16) ∧ (y.left = [] → y.mark = x.next.getD x.mark) ∧ (y.left ≠ [] → y.mark = x.mark)) ∧
    (CyzonTakes s p pkt 5 2 → ∃ t, exec (.exportClose p pkt) s = .next t ∧ Replied t p pkt 0 0 [] true ∧ t.cyz.exp = none))

/-- A block decodes the low 12 bits: FF0h to FFFh exactly, every other offset by its mask; where no register is, reads give 0 and writes nothing (spec/19_registers.md R536). -/
def Obligations.RegisterDecoding : Prop :=
  let masks := [0x00C, 0x004, 0x6FC, 0x2FC, 0xFFC, 0x01C, 0x3FC, 0x3FC, 0x3FC, 0x3FC, 0x000, 0xF0C, 0xE1C, 0x0FC, 0x00C, 0x000,
    0x01C, 0x00C, 0x13C, 0x00C]
  (∀ b o : Nat, regDecode b o = regDecode b (o % 4096)) ∧
  (∀ b o : Nat, 0xFF0 ≤ o % 4096 → o % 4 = 0 → regDecode b o = o % 4096) ∧
  (∀ b o : Nat, b < 20 → o % 4096 < 0xFF0 → regDecode b o = (o % 4096) &&& masks.getD b 0 ∧ regDecode b o % 4 = 0 ∧ regDecode b o < 0xFF0) ∧
  (∀ (s : State) (b o : Nat), b < 20 → regExists b (regDecode b o) = false → (∀ k ∈ s.reg.caps, k.1 ≠ b * 4096 + regDecode b o) →
    (regRead s b o).2 = 0) ∧
  (∀ (s : State) (p : Port) (b : Fin 256) (o : Fin 16384) (w : Word) (e : WriteEnv),
    regExists b (regDecode b (4 * o.val)) = false → exec (.registerWrite p b o 15 [w] e) s = .next s)

/-- C3A5h arms a block's key, the next write consumes it; EN cleared, PAUSE and FLT_INJ_CTL change only with the key armed (spec/19_registers.md R543, spec/19_registers.md R540, spec/10_hob_cache_dma.md R297, spec/17_faults_and_ash_log.md R498). -/
def Obligations.KeysGuardTheirFields : Prop :=
  (∀ (s : State) (p : Port) (b : Fin 20) (w : Word), portOpen s p = true →
    ∃ t, exec (.keylockWrite p b w) s = .next t ∧ (blkCtl t b).armed = decide (w.toNat % 65536 = 0xC3A5) ∧ t = { s with reg.blk := t.reg.blk }) ∧
  (∀ (s : State) (p : Port) (b : Fin 20), portOpen s p = true → 2 ≤ b.val → (blkCtl s b).en = true →
    ∃ t, exec (.enClear p b) s = .next t ∧ (blkCtl t b).armed = false ∧ t.reg.ck = s.reg.ck ∧
      ((blkCtl s b).armed = false → (blkCtl t b).en = true ∧ (blkCtl t b).keyMiss = true ∧
        (blkCtl t b).chkReason = (blkCtl s b).chkReason ∧ (blkCtl t b).chkOfs = (blkCtl s b).chkOfs) ∧
      ((blkCtl s b).armed = true → s.sec.lc ≠ .factoryTest → s.sec.lc ≠ .diagnostic → (blkCtl t b).en = true ∧ (blkCtl t b).chkReason = 6) ∧
      ((blkCtl s b).armed = true → (s.sec.lc = .factoryTest ∨ s.sec.lc = .diagnostic) →
        (neededBy s b = true → (blkCtl t b).en = true ∧ (blkCtl t b).chkReason = 5) ∧
        (neededBy s b = false → (blkCtl t b).en = false ∧ (blkCtl t b).chkReason = 0 ∧ (blkCtl t b).chkOfs = 0xFFC))) ∧
  (∀ (s : State) (p : Port) (n : Fin 40) (on : Bool) (left : Nat) (host : List Byte), portOpen s p = true → (fluAt s n).pause ≠ on →
    ∃ t, exec (.pauseWrite p n on left host) s = .next t ∧ (blkCtl t 4).armed = false ∧
      ((blkCtl s 4).armed = true → (fluAt t n).pause = on ∧ (fluAt t n).paused = on ∧ ∀ m, m ≠ n.val → fluAt t m = fluAt s m) ∧
      ((blkCtl s 4).armed = false → (blkCtl t 4).keyMiss = true ∧ t = { s with reg.blk := t.reg.blk })) ∧
  (∀ (s : State) (p : Port) (k : Fin 8) (d : Fin 256) (tg : Fin 65536) (b : Boot), portOpen s p = true → (blkCtl s 16).armed = true →
    s.reg.inj.getLsbD 31 = false →
    ∃ t, exec (.fltInjGo p k d tg b) s = .next t ∧ (blkCtl t 16).armed = false ∧
      (s.sec.lc ≠ .factoryTest → t.reg.inj = s.reg.inj ∧ (blkCtl t 16).chkReason = 6 ∧ t = { s with reg := t.reg }) ∧
      (s.sec.lc = .factoryTest → (k = 1 ∨ k = 2) → tg.val < 384 → t.reg.inj.getLsbD 31 = true ∧
        t.flt.injEnd = if d.val = 0 then none else some (s.time + d.val))) ∧
  (∀ (s : State) (u : Nat), s.flt.injEnd = some u →
    ∃ t, exec .faultInjectEnd s = .next t ∧ t.reg.inj.getLsbD 31 = false ∧ t.flt.injEnd = none)

/-- EN, CK fields, ARM and SHD_VALID take effect only where their check accepts; a refusal stores nothing and names its reason (spec/19_registers.md R538, spec/19_registers.md R539, spec/15_cyzon_and_migration.md R439, spec/05_leaf_code.md R132, spec/10_hob_cache_dma.md R277, spec/10_hob_cache_dma.md R295). -/
def Obligations.EnableAndArmChecks : Prop :=
  (∀ (s : State) (p : Port) (b : Fin 20), portOpen s p = true → 2 ≤ b.val →
    ∃ t, exec (.enSet p b) s = .next t ∧ t.reg.ck = s.reg.ck ∧
      match blockCheck (checkIn s) b with
      | none => (blkCtl t b).en = true ∧ (blkCtl t b).chkReason = 0 ∧ (blkCtl t b).chkOfs = 0xFFC
      | some (o, r) => (blkCtl t b).en = (blkCtl s b).en ∧ (blkCtl t b).chkReason = BitVec.ofNat 8 r ∧ (blkCtl t b).chkOfs = BitVec.ofNat 12 o) ∧
  (∀ (s : State) (p : Port) (b : Fin 256) (o : Fin 16384) (w : Word) (e : WriteEnv), portOpen s p = true →
    let i := regDecode b (4 * o.val)
    let new := ckPut s.reg.ck b i (w &&& ckMask b i)
    regExists b i = true → ckMask b i ≠ 0 →
    ∃ t, exec (.registerWrite p b o 15 [w] e) s = .next t ∧ (blkCtl t b).en = (blkCtl s b).en ∧
      (if (blkCtl s b).en = true then
        match blockCheck { checkIn s with ck := new } b with
        | none => t.reg.ck = new ∧ t.reg.editEnd = some (s.time + 10000000) ∧ (blkCtl t b).chkReason = 0
        | some (ofs, r) => t.reg.ck = s.reg.ck ∧ t.reg.editEnd = s.reg.editEnd ∧ (blkCtl t b).chkReason = BitVec.ofNat 8 r ∧
            (blkCtl t b).chkOfs = BitVec.ofNat 12 ofs
       else t.reg.ck = new ∧ t.reg.editEnd = some (s.time + 10000000) ∧ (blkCtl t b).chkReason = (blkCtl s b).chkReason)) ∧
  (∀ (s : State) (p : Port) (n mode : Fin 4) (span : Fin 4096), portOpen s p = true →
    let top := if mode.val = 1 then 263168 else match scratchRing s n with | some r => codeBits r.2.strength | none => 0
    let why := if (blkCtl s (6 + n)).en = false then 8 else if mode.val = 0 ∨ span.val = 0 then 1 else if top < flipPos s n + span then 4 else 0
    ∃ t, exec (.actFlipArm p n mode span) s = .next t ∧ (vget t.reg.flipCtl n 0).getLsbD 31 = decide (why = 0) ∧
      bitsOf (vget t.reg.flipCtl n 0) 27 26 = mode.val ∧ bitsOf (vget t.reg.flipCtl n 0) 23 12 = span.val ∧
      (blkCtl t (6 + n)).chkReason = BitVec.ofNat 8 why ∧ t = { s with reg := t.reg }) ∧
  (∀ (s : State) (p : Port) (c : BitVec 8) (word : Fin 2048), portOpen s p = true →
    let n := popCount c + popCount (hobFlipMask s)
    ∃ t, exec (.hobFlipArm p c word) s = .next t ∧ bitsOf t.reg.hobFlip 10 0 = word.val ∧ bitsOf t.reg.hobFlip 23 16 = c.toNat ∧
      t.reg.hobFlip.getLsbD 31 = decide (n = 1 ∨ n = 2) ∧ (blkCtl t 2).chkReason = (if n = 0 then 1 else if 2 < n then 0xA else 0) ∧
      ((n = 1 ∨ n = 2) → t.hob.flipValid = false ∧ t.hob.flipWritten = false)) ∧
  (∀ (s : State) (p : Port) (n : Fin 40) (c : Option (Fin 4096)), portOpen s p = true →
    let l := descList s.hob.mem 257 (fluAt s n).shdDesc.toNat
    ∃ t, exec (.shdValidWrite p n c) s = .next t ∧ (fluAt t n).pause = (fluAt s n).pause ∧
      ((fluAt s n).shdValid = true → (fluAt t n).overrun = true ∧ (fluAt t n).shadow = (fluAt s n).shadow ∧ (fluAt t n).active = (fluAt s n).active) ∧
      ((fluAt s n).shdValid = false → (fluAt t n).reason = BitVec.ofNat 8 (listReason l) ∧
        (listReason l ≠ 0 → (fluAt t n).shdValid = false ∧ (fluAt t n).active = (fluAt s n).active) ∧
        (listReason l = 0 → (fluAt s n).active.isSome = true ∨ (fluAt s n).pause = true →
          (fluAt t n).shdValid = true ∧ (fluAt t n).shadow = l ∧ (fluAt t n).active = (fluAt s n).active) ∧
        (listReason l = 0 → (fluAt s n).active = none → (fluAt s n).rest = [] → (fluAt s n).pause = false → (fluAt s n).inService = true →
          (fluAt t n).shdValid = false ∧ (fluAt t n).active = l.head? ∧ (fluAt t n).rest = l.tail)))

/-- A capturing read freezes the registers of its group; a flip test runs once armed; the configuration CRC is compared every 1 ms and a mismatch reloads (spec/19_registers.md R545, spec/04_read_channel.md R108, spec/05_leaf_code.md R141, spec/07_servo.md R185, spec/10_hob_cache_dma.md R276, spec/15_cyzon_and_migration.md R439, spec/05_leaf_code.md R132). -/
def Obligations.CapturesTestsAndConfigCrc : Prop :=
  (∀ (s : State) (a : Fin 4), ∃ t, exec (.irate1Read a) s = .next t ∧ t = { s with reg.caps := t.reg.caps, reg.rdata := t.reg.rdata } ∧
    lookupD t.reg.caps ((6 + a) * 4096 + 0x140) 0 = irate0 s a) ∧
  (∀ (s : State) (p : Port) (k : Fin 6) (i : Fin 16), portOpen s p = true →
    let b := ceBlock k; let o := 0x200 + 16 * i.val
    ∃ t, exec (.ceLogWord0Read p k i) s = .next t ∧ t = { s with reg.caps := t.reg.caps, reg.rdata := t.reg.rdata } ∧
      t.reg.rdata = lookupD s.reg.caps (b * 4096 + o) (regPeek s b o) ∧
      ∀ j, j ∈ [4, 8, 12] → lookupD t.reg.caps (b * 4096 + o + j) 0 = regPeek s b (o + j)) ∧
  (∀ (s : State) (p : Port) (n : Fin 6), portOpen s p = true →
    ∃ t, exec (.dmpStatRead p n) s = .next t ∧ t = { s with reg.caps := t.reg.caps, reg.rdata := t.reg.rdata } ∧
      lookupD t.reg.caps (12 * 4096 + 512 * n + 4) 0 = regPeek s 12 (512 * n + 4) ∧
      lookupD t.reg.caps (12 * 4096 + 512 * n + 8) 0 = regPeek s 12 (512 * n + 8)) ∧
  (∀ (s : State) (d : DWord), hobFlipArmed s = true → s.hob.flipWritten = false →
    ∃ t, exec (.hobFlipWordWrite d) s = .next t ∧ t = { s with hob := t.hob } ∧ t.hob.flipWritten = true ∧
      t.hob.scratch.head? = some (hobFlipWord s, d ^^^ hobFlipMask s, hobFlipMask s, hobFlipCheck s)) ∧
  (∀ (s : State), hobFlipArmed s = true → s.hob.flipWritten = true → s.hob.flipRepeat = false →
    let n := popCount (hobFlipMask s) + popCount (hobFlipCheck s)
    ∃ t, exec (.hobFlipWordRead false) s = .next t ∧ t.reg.hobFlip.getLsbD 31 = false ∧ t.hob.flipValid = true ∧
      t.hob.flipResult = (if n = 1 then 0 else 1) ∧ t.hob.ce = (if n = 1 then satInc s.hob.ce else s.hob.ce) ∧
      t.hob.ue = (if n = 1 then s.hob.ue else satInc s.hob.ue)) ∧
  (∀ (s : State) (a : Fin 4) (soft : Option (List Soft)) (dead : Bool) (g : Fin 14) (ring : Nat) (x : Ring),
    scratchRing s a = some (ring, x) → (vget s.reg.flipCtl a 0).getLsbD 31 = true → (wrAt s a).frame = none →
    (chanAt s a).read = none → (∀ i, sqOf s a = some i → (sqr s i).routine = none) → s.srv.loop[a].onTrack = true → s.srv.loop[a].wrPermit = true → windowOpen s = true →
    s.pwr.banking = false →
    ∃ t, exec (.checkerTestRun a soft dead g) s = .next t ∧ (vget t.reg.flipCtl a 0).getLsbD 31 = false) ∧
  (∀ (s : State) (u : Nat), s.reg.editEnd = some u →
    exec .editWindowExpire s = .next { s with time := max s.time u, reg.editEnd := none }) ∧
  (∀ (s : State) (live again : Option Word), s.pwr.powered = true → s.reg.editEnd = none →
    let ck := s.reg.overlay.getD s.reg.profCk
    ∃ t, exec (.configCrcCompare live again) s = .next t ∧
      (live.getD (ckCrc s.reg.ck) = s.reg.crcRef →
        t = { s with time := max s.time (s.reg.lastCompare + 1000), reg.lastCompare := max s.time (s.reg.lastCompare + 1000) }) ∧
      (live.getD (ckCrc s.reg.ck) ≠ s.reg.crcRef → t.reg.ck = ck ∧ t.reg.reloads = min 255 (s.reg.reloads + 1) ∧
        t.flt.cnt2 = satInc s.flt.cnt2 ∧
        t.flt.class3 = (s.flt.class3 || decide (again.getD (ckCrc ck) ≠ s.reg.crcRef))))

/-- The draft is computed every 10 ms from Q, B and G; a target applies once every ACT island has acknowledged it; the voltage cap banks and releases the spindle (spec/02_architecture.md R33, spec/02_architecture.md R35, spec/08_spindle.md R198, spec/08_spindle.md R199, spec/08_spindle.md R202, spec/08_spindle.md R209, spec/08_spindle.md R211, spec/06_write_path.md R147). -/
def Obligations.DraftAndSpeedTargets : Prop :=
  (∀ (s : State), let u := s.at (s.spn.lastDraft + 10000)
    let q := draftQ (tOn u) (mediaWaiters u)
    let d := draftNext s.spn.draft (min 255 (q + draftB u + bgLevel u))
    ∃ t, exec .draftUpdate s = .next t ∧ t.time = u.time ∧ t.spn.lastDraft = u.time ∧ t.spn.draftQ = q ∧ t.spn.draftB = draftB u ∧
      t.spn.draftG = bgLevel u ∧ t.spn.draft = (if s.pwr.restore then max d (tOn u) else d)) ∧
  (∀ draft raw : Nat, (draft ≤ raw → draftNext draft raw = raw) ∧ (raw < draft → raw ≤ draftNext draft raw ∧ draftNext draft raw < draft)) ∧
  (∀ n : Nat, draftQ 32 0 = 0 ∧ draftQ 32 (n + 1) = min 255 (32 + 4 * n)) ∧
  (∀ (s : State) (u : Nat), s.spn.bankTimer = some u → s.spn.draft < tBank s → spnTurning s.spn.state = true → s.spn.bank = .none →
    ∃ t, exec .bankingTimerExpire s = .next t ∧ t.spn.bank ≠ .none ∧ t.spn.bankTimer = none ∧
      t.time = max s.time (u + bankS s * 1000000) ∧ (dirtyCount s ≤ 128 → t.spn.bank = .unloading)) ∧
  (∀ (s : State) (v : Nat), s.spn.wanted = some v → s.spn.signalled = true → dirtyWithin s = true →
    s.wrt.act.toList.all (·.acked) = true →
    ∃ t, exec .speedTargetApply s = .next t ∧ t.spn.target = v ∧ t.spn.wanted = none ∧ t.spn.settled = 0 ∧
      t.spn.state = (if s.spn.state = .running then .changing else s.spn.state) ∧ (∀ w ∈ t.wrt.act.toList, w.changePend = false) ∧
      t = { s with spn := t.spn, wrt.act := t.wrt.act }) ∧
  (∀ (s : State) (a : Fin 4), s.wrt.act[a].changePend = true →
    ∃ t, exec (.targetChangeAck a) s = .next t ∧ (s.wrt.act[a].frame = none → t.wrt.act[a].acked = true) ∧
      (s.wrt.act[a].frame ≠ none → t = s) ∧ ∀ b : Fin 4, b ≠ a → t.wrt.act[b] = s.wrt.act[b]) ∧
  (∀ (s : State), 16 ≤ s.spn.settled → s.spn.wanted = none → s.spn.state = .changing →
    exec .speedSettled s = .next { s with spn.state := .running, spn.recFails := 0 }) ∧
  (∀ (s : State) (vm : Qty), ∃ t, exec (.vcapUpdate vm) s = .next t ∧ t.spn.vcap = vcapOf s.prof vm ∧ t.spn.vmot = vm ∧
    (vcapOf s.prof vm < s.spn.floor → t.spn.capBlock = true) ∧
    (spnTurning s.spn.state = true → vcapOf s.prof vm < 3650 → t.spn.bank ≠ .none) ∧
    (spnTurning s.spn.state = true → 3650 ≤ vcapOf s.prof vm → s.spn.target ≤ vcapOf s.prof vm → s.spn.wanted = none →
      t.spn.wanted = none ∧ t.spn.target = s.spn.target)) ∧
  (∀ (s : State) (u : Nat), s.spn.vcapOkSince = some u → s.spn.capBlock = true →
    ∃ t, exec .vcapRecoverStart s = .next t ∧ t.spn.capBlock = false ∧ t.time = max s.time (u + 1000000) ∧
      (s.spn.state = .banked → tOn s ≤ s.spn.draft → s.flt.class3 = false → s.pwr.vmotLostNow = false → s.pwr.banking = false →
        t.spn.state = .starting ∧ t.spn.mode = .measuring))

/-- The 20 ms measurement of the three phases decides how a start goes on: from rest, by catching a rotor that turns, or by braking it first (spec/08_spindle.md R212, spec/08_spindle.md R213, spec/08_spindle.md R214, spec/08_spindle.md R215, spec/08_spindle.md Table 8.3). -/
def Obligations.SpindleStarts : Prop :=
  (∀ (s : State) (m : EmfSeen), m.ampA < s.prof.restMv → m.ampB < s.prof.restMv → m.ampC < s.prof.restMv → rotorFound s m = .atRest) ∧
  (∀ (s : State) (m : EmfSeen) (p q : Fin 3) (a b : Qty) (rest : List (Fin 3 × Qty)), s.prof.restMv ≤ m.ampA →
    m.crossings = (p, a) :: (q, b) :: rest → a < b → 0 < polePairs s →
    let rpm := 60 / (6 * (b - a) * polePairs s)
    rotorFound s m = if q = p then .indeterminate else if q = p + 2 then .forward rpm else .backward rpm) ∧
  (∀ (s : State) (m : EmfSeen) (rises : List Qty), s.spn.mode = .measuring →
    ∃ t, exec (.startMeasureDone m rises) s = .next t ∧ t.time = max s.time (s.spn.measureAt + 20000) ∧
      match rotorFound s m with
      | .atRest =>
        if s.spn.restOnly = true then t.spn.state = .banked ∧ t.spn.mode = .off ∧ t.spn.speed = 0
        else t.spn.mode = .openLoop ∧ t.spn.speed = 0 ∧
          (if (fastestPulse rises).isSome = true then t.spn.alignAt = none ∧ t.spn.cmdQ = s.prof.startI
           else t.spn.alignAt = some t.time ∧ t.spn.cmdQ = s.prof.alignI)
      | .indeterminate => t.spn.mode = .braking ∧ t.spn.bank = .shorted ∧ t.spn.thenStart = !s.spn.restOnly
      | .forward rpm => t.spn.speed = rpm ∧
        (if rpm < 300 then t.spn.mode = .braking ∧ t.spn.bank = .shorted
         else t.spn.mode = .closedLoop ∧ t.spn.observing = true ∧ t.spn.reference = rpm ∧ t.spn.bank = .none)
      | .backward rpm => t.spn.speed = rpm ∧
        (if rpm < s.prof.shortRpm then t.spn.mode = .braking ∧ t.spn.bank = .shorted
         else t.spn.mode = .closedLoop ∧ t.spn.bank = .decel)) ∧
  (∀ (s : State) (u : Nat), s.spn.alignAt = some u → s.spn.speed < 600 →
    ∃ t, exec .rotorAlignDone s = .next t ∧ t.spn.alignAt = none ∧ t.spn.cmdQ = s.prof.startI ∧ t.time = max s.time (u + 300000)) ∧
  (∀ (s : State), s.spn.mode = .openLoop → 300 ≤ s.spn.speed → 4 ≤ s.spn.cleanRun → s.spn.alignAt = none →
    exec .observerHandover s = .next { s with
      spn.observing := true, spn.mode := .closedLoop, spn.cmdQ := s.prof.startI, spn.reference := s.spn.speed }) ∧
  (∀ (s : State) (rises : List Qty), s.spn.mode = .braking →
    ∃ t, exec (.restDeclared rises) s = .next t ∧ t.spn.speed = 0 ∧
      (s.spn.thenStart = true → mayStart s = true → t.spn.mode = .openLoop ∧ t.spn.bank = .none ∧ t.spn.state = s.spn.state) ∧
      (s.spn.thenStart = false ∨ mayStart s = false → t.spn.state = .banked ∧ t.spn.mode = .off ∧ t.spn.target = 0))

/-- A current cycle transforms the currents and judges the residual; a speed cycle moves the reference within its bounds; re-catches and measurements end as stated (spec/08_spindle.md R191, spec/08_spindle.md R192, spec/08_spindle.md R195, spec/08_spindle.md R198, spec/08_spindle.md R221, spec/08_spindle.md R223, spec/08_spindle.md R226, spec/08_spindle.md R220, spec/19_registers.md R540). -/
def Obligations.SpindleLoopsAndRecatch : Prop :=
  (∀ (s : State) (smp : CurSample) (vm : Qty), s.spn.mode ≠ .off → blkEn s 13 = true →
    let o := s.spn.obs
    let forced := s.spn.mode = .openLoop ∧ s.spn.observing = false ∧ s.spn.alignAt = none
    let fr := if forced then turnQ s.spn.forcedTurn else (o.cosA, o.sinA)
    let thr := s.prof.obsThr * s.prof.iRunMax
    let da := smp.iAlpha - o.predAlpha; let db := smp.iBeta - o.predBeta
    ∃ t, exec (.currentLoopCycle smp vm) s = .next t ∧ t.spn.iD = fr.1 * smp.iAlpha + fr.2 * smp.iBeta ∧
      t.spn.iQ = fr.1 * smp.iBeta - fr.2 * smp.iAlpha ∧ t.spn.curCycles = s.spn.curCycles + 1 ∧
      t.spn.obsValid = (!decide (thr * thr < da * da + db * db) && decide (300 ≤ s.spn.speed))) ∧
  (∀ (s : State), s.spn.mode ≠ .off → blkEn s 13 = true → s.spn.bank = .none →
    let speed := if wedgeSource s = none then noWedgeSpeed s else s.spn.speed
    ∃ t, exec .speedLoopCycle s = .next t ∧ t.spn.speed = speed ∧ t.spn.reference = referenceNext { s with spn.speed := speed } ∧
      (0 ≤ speed → t.spn.reference ≤ max (speed * 101 / 100) 300)) ∧
  (∀ (s : State), (s.spn.mode = .closedLoop → noWedgeSpeed s = s.spn.obsSpeed) ∧
    (s.spn.mode = .braking → noWedgeSpeed s = shortedSpeed s s.spn.speed (8 * curDt s))) ∧
  (∀ (s : State) (smp : CurSample) (vm : Qty), s.spn.mode = .off ∨ blkEn s 13 = false →
    exec .speedLoopCycle s = .next s ∧ exec (.currentLoopCycle smp vm) s = .next s) ∧
  (∀ (s : State), s.spn.state = .recatch →
    (s.spn.overRun < 3 → 4 ≤ s.spn.cleanRun → 11 ≤ s.spn.recPeriods → (s.spn.retState = .decelerating ∨ speedWithin s (5 / 10000) = true) →
      ∃ t, exec .recatchComplete s = .next t ∧ t.spn.state = s.spn.retState ∧ t.spn.mode = .closedLoop ∧ t.spn.recEnd = some s.time ∧
        t.spn.cmdQ = s.spn.frozen ∧ t.ash.health = (s.hours, .recatch) :: s.ash.health) ∧
    (3 ≤ s.spn.overRun → ∃ t, exec .recatchComplete s = .next t ∧ t.spn.cntRecatch = satInc s.spn.cntRecatch ∧ t.spn.recEnd = none ∧
      (s.spn.recFails < 2 → t.spn.state = .recatch ∧ t.spn.mode = .frozen ∧ t.spn.recFails = s.spn.recFails + 1))) ∧
  (∀ (s : State), 65536 ≤ s.spn.cuCycles →
    let n : Qty := s.spn.cuCycles
    let i := s.spn.cuTorque / n
    let r := if i = 0 then 1 else s.spn.cuSum / n / (i * i)
    ∃ t, exec .copperLossMeasure s = .next t ∧ t.spn.cuValid = true ∧ t.spn.cuCycles = 0 ∧ t.spn.cuSum = 0 ∧ t.spn.cuTorque = 0 ∧
      t.spn.cuRatio = BitVec.ofNat 16 (min 0xFFFF (r * 4096).floor.toNat)) ∧
  (∀ (s : State), wedgeSource s ≠ none →
    ∃ t, exec .cogTableSwitch s = .next t ∧ t.spn.cog = s.spn.cogBg ∧ t.spn.fric = s.spn.fricBg ∧
      t.time = max s.time (s.spn.lastSwitch + 60000000) ∧ t.spn.lastSwitch = t.time)

/-- A servo sample takes the head position or the prediction, permits writing only settled on track, inhibits on a miss, and a lost loop reacquires (spec/07_servo.md R161, spec/07_servo.md R163, spec/07_servo.md R169, spec/07_servo.md R172, spec/07_servo.md R180, spec/07_servo.md R166, spec/07_servo.md R168, spec/07_servo.md R189, spec/09_stripes_and_spares.md R253, spec/19_registers.md R540). -/
def Obligations.ServoSamples : Prop :=
  (∀ (s : State) (a : Fin 4) (w : WedgeSample), blkEn s 12 = true → s.srv.loop[a].mode ≠ .unloaded →
    s.srv.loop[a].mode ≠ .unloading → s.srv.loop[a].mode ≠ .loading → s.srv.loop[a].lost = false →
    let l := s.srv.loop[a]
    let p := s.prof.act[a]
    ∃ t l', exec (.servoSample a w) s = .next t ∧ t.srv.loop[a] = l' ∧ l'.wedges = l.wedges + 1 ∧
      (match headPos s l (srvWin s a) w with
       | some x => l'.x = x ∧ l'.missRun = 0
       | none => l'.x = l.est.pred ∧ l'.missRun = l.missRun + 1 ∧ l'.inhibit = true ∧
          ∀ e, engineOf s a = some e → vget t.srv.missed e 0 = satInc (vget s.srv.missed e 0)) ∧
      (l'.onTrack = true → absQ l'.e ≤ rdOntrk s a) ∧
      (l'.wrPermit = true → settleN s a ≤ l'.okRun ∧ l'.mode = .track ∧ l'.softLeft = 0 ∧ l'.maSat = false ∧ t.srv.shock = false) ∧
      (l'.inhibit = true → (wrAt t a).frame = none) ∧ (0 ≤ p.iMax → absQ l'.vcm ≤ p.iMax) ∧ absQ l'.ma ≤ 40 ∧
      (∀ b : Fin 4, b ≠ a → t.srv.loop[b].x = s.srv.loop[b].x ∧ t.srv.loop[b].mode = s.srv.loop[b].mode) ∧
      (s.spn.state = .running → t.obj = s.obj ∧ t.stg = s.stg ∧ t.hob = s.hob)) ∧
  (∀ (s : State) (a : Fin 4) (w : WedgeSample), blkEn s 12 = true → s.srv.loop[a].mode ≠ .unloaded →
    s.srv.loop[a].mode ≠ .unloading → (s.srv.loop[a].mode = .loading ∨ s.srv.loop[a].lost = true) →
    let l := s.srv.loop[a]
    let p := s.prof.act[a]
    ∃ t l', exec (.servoSample a w) s = .next t ∧ t.srv.loop[a] = l' ∧ l'.wedges = l.wedges + 1 ∧
      match headPos s l (srvWin s a) w with
      | some x => l'.lost = false ∧ l'.x = x ∧ l'.softLeft = softN s a ∧ l'.softFrom = x ∧
          l'.mode = (if softN s a = 0 then .track else .reacquire) ∧ (absQ l.vcm ≤ p.iMax → l'.vcm = l.vcm) ∧
          l'.target = if l.mode = .loading then x else l.target
      | none => l'.lostRun = l.lostRun + 1 ∧ l'.mode = l.mode ∧ l'.lost = l.lost ∧ t = { s with srv := t.srv } ∧
          ∀ e, engineOf s a = some e → vget t.srv.missed e 0 = satInc (vget s.srv.missed e 0)) ∧
  (∀ (s : State) (a : Fin 4) (w : WedgeSample), s.srv.loop[a].mode = .unloaded ∨ s.srv.loop[a].mode = .unloading ∨ blkEn s 12 = false →
    exec (.servoSample a w) s = .next s) ∧
  (∀ (s : State) (a : Fin 4) (bridge : Bool), blkEn s 12 = true → s.srv.loop[a].bridgeAt = none →
    let l := s.srv.loop[a]
    let still := l.mode = .unloaded ∨ l.mode = .loading ∨ l.mode = .unloading ∨ l.lost = true ∨ 4 ≤ l.updates
    ∃ t l', exec (.actuatorOutputUpdate a bridge) s = .next t ∧ t.srv.loop[a] = l' ∧ t = { s with srv := t.srv } ∧
      (∀ b : Fin 4, b ≠ a → t.srv.loop[b] = s.srv.loop[b]) ∧ l'.bridgeAt = (if bridge then some s.time else none) ∧
      (still → l' = { l with bridgeAt := l'.bridgeAt }) ∧
      (¬ still → l'.updates = l.updates + 1 ∧ (0 ≤ s.prof.act[a].iMax → absQ l'.vcm ≤ s.prof.act[a].iMax) ∧ absQ l'.ma ≤ 40)) ∧
  (∀ (s : State) (a : Fin 4) (bridge : Bool) (u : Nat), blkEn s 12 = true → s.srv.loop[a].bridgeAt = some u →
    ∃ t, exec (.actuatorOutputUpdate a bridge) s = .next t ∧
      (s.time < u + 10000 → t.srv.loop[a].bridgeAt = some u ∧ t.str = s.str) ∧
      (u + 10000 ≤ s.time → bridge = true → vget t.str.actOut a false = true) ∧
      (u + 10000 ≤ s.time → bridge = false → t.srv.loop[a].bridgeAt = none ∧ t = { s with srv := t.srv })) ∧
  (∀ (s : State) (a : Fin 4) (bridge : Bool), blkEn s 12 = false → exec (.actuatorOutputUpdate a bridge) s = .next s)

/-- A seek, head switch, load, unload, ramp stop, lost servo and its timeout change the one actuator as chapter 7 says, and inhibit its writing (spec/07_servo.md R173, spec/07_servo.md R171, spec/06_write_path.md R155, spec/07_servo.md R181, spec/07_servo.md R180, spec/09_stripes_and_spares.md R253, spec/08_spindle.md R216). -/
def Obligations.SeeksLoadsAndLosses : Prop :=
  (∀ (s : State) (a : Fin 4) (p : Pos) (write : Bool) (r : Ring) (z : ZoneGeom), s.srv.loop[a].lost = false →
    s.srv.loop[a].mode = .track ∨ s.srv.loop[a].mode = .settle ∨ s.srv.loop[a].mode = .seek → actOf p.surface = a.val →
    ringAt s p.surface p.ring = some r → s.media.zones[r.zone]? = some z →
    let l := s.srv.loop[a]
    let h := headZone s p.surface r.zone
    let c : Qty := slotTrack r (framesPerTrack z.dz r.strength) p.slot
    let x := c + 1 / 2 + (h.headOfs : Qty) / 256 + (if write then (h.jog : Qty) / 256 else 0)
    let d := absQ (x - l.x)
    ∃ t l', exec (.seekRequest a p write) s = .next t ∧ t.srv.loop[a] = l' ∧ l'.mode = .seek ∧ l'.target = x ∧ l'.seekRef = l.x ∧
      l'.seek = some ⟨d, seekTime s.prof.act[a] 1 d, 0, !s.srv.shock && decide (rvRmsNow s < s.prof.rvThresh)⟩ ∧
      l'.surface = p.surface ∧ l'.headSw = decide (p.surface ≠ l.surface) ∧ l'.onTrack = false ∧ l'.wrPermit = false ∧
      l'.inhibit = true ∧ (wrAt t a).frame = none ∧ (chanAt t a).acquired = false ∧
      (∀ b : Fin 4, b ≠ a → t.srv.loop[b] = s.srv.loop[b]) ∧
      t = { s with srv := t.srv, wrt := t.wrt, media := t.media, seq := t.seq, chan := t.chan }) ∧
  (∀ (s : State) (a : Fin 4) (p : Pos) (write : Bool), s.srv.loop[a].lost = true ∨ actOf p.surface ≠ a.val ∨
    ringAt s p.surface p.ring = none → exec (.seekRequest a p write) s = .next s) ∧
  (∀ (s : State) (a : Fin 4) (z : Nat) (q : Qty × Qty) (ok : Bool),
    let n := s.srv.loop[a].surface % 8
    ((wrAt s a).frame ≠ none ∨ (wrAt s a).gate = true → exec (.headSwitch a z q ok) s = .next s) ∧
    ((wrAt s a).frame = none → (wrAt s a).gate = false → ∃ t, exec (.headSwitch a z q ok) s = .next t ∧
      (ok = true → (wrAt t a).paSel = some n ∧ (wrAt t a).paReady = s.time + 2 ∧ (wrAt t a).paTries = 0 ∧ (chanAt t a).acquired = false ∧
        t.srv = s.srv ∧ t.str = s.str) ∧
      (ok = false → (wrAt t a).paSel = none ∧ (wrAt t a).paTries = (wrAt s a).paTries + 1 ∧
        ((wrAt s a).paTries < 2 → t = { s with wrt := t.wrt }) ∧ (2 ≤ (wrAt s a).paTries → t.str.actOut[a] = true)))) ∧
  (∀ (s : State) (a : Fin 4), s.srv.loop[a].mode = .unloaded →
    (3600 ≤ s.spn.speed → spnTurning s.spn.state = true → s.spn.bank = .none → s.flt.class3 = false → s.pwr.banking = false →
      s.str.actOut[a] = false → ∃ t l', exec (.headLoad a) s = .next t ∧ t.srv.loop[a] = l' ∧ l'.mode = .loading ∧ l'.wrPermit = false ∧
        l'.inhibit = true ∧ l'.onTrack = false ∧ t = { s with srv := t.srv } ∧ ∀ b : Fin 4, b ≠ a → t.srv.loop[b] = s.srv.loop[b]) ∧
    (s.spn.speed < 3600 ∨ spnTurning s.spn.state = false ∨ s.spn.bank ≠ .none ∨ s.flt.class3 = true ∨ s.pwr.banking = true ∨
      s.str.actOut[a] = true → exec (.headLoad a) s = .next s)) ∧
  (∀ (s : State) (a : Fin 4), s.srv.loop[a].unloadWhy ≠ 0 → s.srv.loop[a].mode ≠ .unloaded → s.srv.loop[a].mode ≠ .unloading →
    ∃ t l', exec (.headUnload a) s = .next t ∧ t.srv.loop[a] = l' ∧ l'.mode = .unloading ∧ l'.onTrack = false ∧ l'.wrPermit = false ∧
      (wrAt t a).frame = none ∧ t = { s with srv := t.srv, wrt := t.wrt, media := t.media, seq := t.seq }) ∧
  (∀ (s : State) (a : Fin 4), s.srv.loop[a].mode = .unloading →
    ∃ t l', exec (.rampStop a) s = .next t ∧ t.srv.loop[a] = l' ∧ l'.mode = .unloaded ∧ l'.parkAt = some s.time ∧ l'.vcm = s.prof.parkI ∧
      (s.spn.bank = .none → t = { s with srv := t.srv } ∧ ∀ b : Fin 4, b ≠ a → t.srv.loop[b] = s.srv.loop[b])) ∧
  (∀ (s : State) (a : Fin 4) (u : Nat), s.srv.loop[a].parkAt = some u →
    ∃ t, exec (.parkRelease a) s = .next t ∧ t.srv.loop[a] = { s.srv.loop[a] with parkAt := none, vcm := 0 } ∧
      t = { s with time := max s.time (u + 50000), srv := t.srv } ∧ ∀ b : Fin 4, b ≠ a → t.srv.loop[b] = s.srv.loop[b]) ∧
  (∀ (s : State) (a : Fin 4), s.srv.loop[a].lost = false → s.srv.loop[a].mode ≠ .unloaded → s.srv.loop[a].mode ≠ .unloading →
    s.srv.loop[a].mode ≠ .loading →
    ∃ t l', exec (.lostServo a) s = .next t ∧ t.srv.loop[a] = l' ∧
      if s.srv.loop[a].missRun < lostN s a then t = s
      else l'.lost = true ∧ l'.mode = .reacquire ∧ l'.seek = none ∧ l'.onTrack = false ∧ l'.wrPermit = false ∧ l'.inhibit = true ∧
        (wrAt t a).frame = none ∧ (∀ b : Fin 4, b ≠ a → t.srv.loop[b] = s.srv.loop[b]) ∧
        (∀ e, engineOf s a = some e → vget t.srv.lostCnt e 0 = satInc (vget s.srv.lostCnt e 0)) ∧
        t = { s with srv := t.srv, wrt := t.wrt, media := t.media, seq := t.seq }) ∧
  (∀ (s : State) (a : Fin 4),
    ∃ t l', exec (.lostServoTimeout a) s = .next t ∧ t.srv.loop[a] = l' ∧
      (s.srv.loop[a].lostRun < 480 → t = s) ∧
      (480 ≤ s.srv.loop[a].lostRun → s.srv.loop[a].mode = .loading → s.srv.loop[a].reloads = 0 →
        l'.unloadWhy = 3 ∧ t = { s with srv := t.srv }) ∧
      (480 ≤ s.srv.loop[a].lostRun → s.srv.loop[a].mode = .loading → s.srv.loop[a].reloads ≠ 0 → t.str.actOut[a] = true) ∧
      (480 ≤ s.srv.loop[a].lostRun → s.srv.loop[a].mode ≠ .loading → s.srv.loop[a].lost = true → reloadsWithinHour s a = 0 →
        l'.unloadWhy = 3 ∧ l'.lost = false ∧ t.flt.cnt2 = satInc s.flt.cnt2) ∧
      (480 ≤ s.srv.loop[a].lostRun → s.srv.loop[a].mode ≠ .loading → s.srv.loop[a].lost = true → 1 ≤ reloadsWithinHour s a →
        t.str.actOut[a] = true))

/-- A shock inhibits every actuator until 2 ms of calm; a damper engine that differs is replaced by D5; gains, tables and read-backs act as the rules say (spec/07_servo.md R176, spec/07_servo.md R178, spec/07_servo.md R183, spec/07_servo.md R184, spec/07_servo.md R170, spec/07_servo.md R167, spec/07_servo.md R179, spec/18_power_and_startup.md R523). -/
def Obligations.ShockEnginesAndTables : Prop :=
  (∀ (s : State) (r0 r1 : AccReading), blkEn s 12 = false → exec (.accelerometerSample r0 r1) s = .next s) ∧
  (∀ (s : State) (r0 r1 : AccReading), blkEn s 12 = true →
    ∃ t, exec (.accelerometerSample r0 r1) s = .next t ∧ t.time = s.time + 20 ∧
      (r0 = .full ∨ r1 = .full → t.srv.shock = true) ∧ (r0 = .silent → vget t.srv.accOut 0 false = true) ∧
      (∀ g0 g1 : Qty, r0 = .value g0 → r1 = .value g1 → vget s.srv.accOut 0 true = false → vget s.srv.accOut 1 true = false →
        t.srv.shock = (s.srv.shock || decide (s.prof.shockG < absQ (g0 + g1) / 2)) ∧
        (s.srv.accCal = false → s.prof.rvBase ≠ 0 → t.srv.rvStale = false ∧ t.srv.alpha.head? = some (980665 / 100000 * (g0 - g1) / s.prof.rvBase))) ∧
      (s.srv.shock = false → t.srv.shock = true →
        ∀ b : Fin 4, t.srv.loop[b].inhibit = true ∧ t.srv.loop[b].wrPermit = false ∧ (wrAt t b).frame = none) ∧
      (t.srv.shock = s.srv.shock → t = { s with time := s.time + 20, srv := t.srv, ash := t.ash })) ∧
  (∀ s : State,
    let calm := s.srv.shock = true ∧ (∃ u, s.srv.calmSince = some u ∧ u + 2000 ≤ s.time) ∧
      ∀ b : Fin 4, s.srv.loop[b].mode = .unloaded ∨ s.srv.loop[b].onTrack = true
    (calm → exec .shockClear s = .next { s with srv.shock := false }) ∧ (¬ calm → exec .shockClear s = .next s)) ∧
  (∀ (s : State) (n : Fin 6) (c1 c2 : Int),
    (s.srv.mirrorN[n] < 256 → exec (.damperMirrorCheck n c1 c2) s = .next s) ∧
    (256 ≤ s.srv.mirrorN[n] →
      let r := s.srv.serves[n]
      let m := mirrorOutputs s r
      let near := (m.1 - c1).natAbs ≤ 1 ∧ (m.2 - c2).natAbs ≤ 1
      ∃ t, exec (.damperMirrorCheck n c1 c2) s = .next t ∧ t.srv.mirrorN[n] = 0 ∧
        (near → t = { s with srv.mirrorN := t.srv.mirrorN }) ∧
        (¬ near → r < 4 → n.val ≠ 5 → s.str.dmpLeft = true →
          t.srv.serves[n] = 6 ∧ vget t.srv.serves 5 0 = r ∧ t.str.dmpLeft = false ∧ (wrAt t r).frame = none ∧
          (vget t.srv.loop r {}).softLeft = softN t r + 1 ∧ (vget t.srv.loop r {}).preload = true ∧
          (vget t.srv.loop r {}).vcm = (vget s.srv.loop r {}).vcm ∧ (vget t.srv.loop r {}).okRun = 0 ∧ t.flt.cnt1 = satInc s.flt.cnt1) ∧
        (¬ near → r < 4 → s.str.dmpLeft = false → t.srv.serves[n] = 6 ∧ vget t.str.actOut r false = true))) ∧
  (∀ (s : State) (a : Fin 4) (m1 m2 m3 : List Qty), maDue s.srv.loop[a] = true →
    let fit := maFit s.prof.act[a] s.srv.loop[a]
    let g := agree3 (agreeRel (2 / 100)) (fit m1) (fit m2) (fit m3)
    ∃ t, exec (.microactuatorGainMeasure a m1 m2 m3) s = .next t ∧ t.srv.loop[a].lastMa = s.time ∧ maDue t.srv.loop[a] = false ∧
      lookupD t.srv.loop[a].maGain s.srv.loop[a].surface none = g ∧ t.cal.failed.getLsbD 7 = !g.isSome ∧
      t.flt.cnt2 = (if g.isSome then s.flt.cnt2 else satInc s.flt.cnt2) ∧ ∀ b : Fin 4, b ≠ a → t.srv.loop[b] = s.srv.loop[b]) ∧
  (∀ (s : State) (a : Fin 4) (m1 m2 m3 : List Qty), maDue s.srv.loop[a] = false →
    exec (.microactuatorGainMeasure a m1 m2 m3) s = .next s) ∧
  (∀ l : Loop, maDue l = true ↔ l.mode = .track ∧ (l.surface ∉ l.maSince ∨ 600 ≤ lookupD l.maTrack l.surface 0)) ∧
  (∀ (s : State) (a : Fin 4), s.srv.loop[a].mode = .track →
    let l := s.srv.loop[a]
    ∃ t, exec (.biasTableSwitch a) s = .next t ∧ t.time = max s.time (l.lastSwitch + 60000000) ∧
      t.srv.loop[a] = { l with lastSwitch := t.time, bias := l.biasBg, fric := l.fricBg } ∧
      t = { s with time := t.time, srv := t.srv } ∧ ∀ b : Fin 4, b ≠ a → t.srv.loop[b] = s.srv.loop[b]) ∧
  (∀ (s : State) (a : Fin 4) (soft : Option (List Soft)) (p : Pos) (rest : List Pos) (g : Group) (r : Ring) (i : Nat),
    (wrAt s a).readback = p :: rest → groupOfRing s p.surface p.ring = some g → ringAt s p.surface p.ring = some r →
    ((List.range (g.k + g.m)).find? fun i => decide (piecePos g p.slot i = some p)) = some i →
    let home := some (stripeNo g.id p.slot, i)
    let good := fun (x : List Soft) => (readTwo s p r.strength (pieceKinds g i) home x false).2.2
    (∀ x, good x = true → ∃ d, (d = decodeSoft r.strength 0 (iterFirst s) x ∨ d = decodeSoft r.strength 1 (iterRetry s) x) ∧
      d.status = 0 ∧ leafPasses p (pieceKinds g i) home (leafOfBytes d.info) = true) ∧
    ∃ t, exec (.shingleReadback a [soft]) s = .next t ∧ (wrAt t a).readback = rest ∧
      (soft.any good = true → t.str = s.str ∧ t.media = s.media) ∧
      (soft.any good = false → slotDefect t p = true ∧ (stripeNo g.id p.slot, false) ∈ t.str.relocPending)) ∧
  (∀ (s : State) (a : Fin 4), exec (.shingleReadback a []) s = .next s)

/-- A read window opens for a due leaf on track or counts a slip; its frame is located or re-read blind; its codeword joins the grate queue (spec/04_read_channel.md R88, spec/04_read_channel.md R89, spec/04_read_channel.md R94, spec/04_read_channel.md R96, spec/02_architecture.md R29, spec/02_architecture.md R32, spec/05_leaf_code.md R116). -/
def Obligations.WindowsLocateAndQueue : Prop :=
  (∀ (s : State) (id : Fin 8192) (i : Nat) (far : Bool) (r : Request) (l : ReqLeaf) (w b dz : Nat), reqBy s id = some r →
    leafBy s id i = some l → predictedStart s l.pos = some (w, b, dz) →
    let a := actOf l.pos.surface
    let lp := vget s.srv.loop a {}
    a < 4 → blkEn s (6 + a) = true → leafDue l = true → i < r.released + 64 → (chanAt s a).read = none → lp.surface = l.pos.surface →
    lp.onTrack = true → lp.missRun < 2 → trackTarget s l.pos false = some lp.target → lp.wedge = some w →
    (wrAt s a).paSel = some (l.pos.surface % 8) → (wrAt s a).paReady ≤ s.time → 3600 ≤ s.spn.speed →
    ∃ t, exec (.readWindowOpen id i far) s = .next t ∧
      (l.soft = none → 8 ≤ storeUsed s a → (wrAt t a).slips = satInc (wrAt s a).slips ∧ t = { s with wrt := t.wrt }) ∧
      (l.soft ≠ none ∨ storeUsed s a < 8 →
        (chanAt t a).read = some
          { req := id, leafIdx := i, pos := l.pos, blind := decide (l.phase = .blind),
            tracking := (chanAt s a).acquired && !far, wedge := w, dataBit := b, dz := dz, wedges := lp.wedges } ∧
        (chanAt t a).acquired = true ∧ (chanAt t a).loaded = some (l.pos.surface, zoneAt s l.pos) ∧
        ((chanAt s a).loaded ≠ some (l.pos.surface, zoneAt s l.pos) →
          (chanAt t a).adapted = savedRec (chanLoad s a l.pos.surface (zoneAt s l.pos)) l.pos.surface (zoneAt s l.pos)) ∧
        leafBy t id i = some { l with phase := if l.reread then .ladder else .reading,
                                      soft := if l.phase = .ladder ∧ l.step = 2 then none else l.soft } ∧
        t = { s with chan := t.chan, reqs := t.reqs })) ∧
  (∀ (s : State) (a : Fin 4) (smp : Samples) (j : ReadJob), (chanAt s a).read = some j → j.located = false → j.blind = false →
    let r := (openingSeen s a j smp).2.2
    ∃ t, exec (.frameLocate a smp) s = .next t ∧
      (r.found = true → t = { s with chan := t.chan } ∧
        (∃ k, (chanAt t a).read = some k ∧ k.located = true ∧ k.start = r.start ∧ k.inverted = r.inverted ∧ k.unsure = r.unsure ∧
          k = { j with located := true, start := k.start, inverted := k.inverted, unsure := k.unsure, locAt := k.locAt, replay := k.replay } ∧
          (r.replayFrom = none → k.replay = [])) ∧
        (chanAt t a).slip = (if r.slip then satInc (chanAt s a).slip else (chanAt s a).slip) ∧
        (chanAt t a).priMiss = (if r.priMiss then satInc (chanAt s a).priMiss else (chanAt s a).priMiss)) ∧
      (r.found = false → (chanAt t a).read = none ∧
        (blindEn s a = true → t = { s with chan := t.chan, reqs := t.reqs } ∧
          ∀ l, leafBy s j.req j.leafIdx = some l → leafBy t j.req j.leafIdx = some { l with phase := .blind }))) ∧
  (∀ (s : State) (a : Fin 4) (smp : Samples) (j : ReadJob), (chanAt s a).read = some j → j.located = false → j.blind = true →
    let o := openingSeen s a j smp
    let v := decisions (replayOf o.1 (chanAt s a).adapted 80 320)
    ∃ t, exec (.blindReread a smp) s = .next t ∧
      if o.2.2.found then t = { s with chan := t.chan } ∧
        ∃ k, (chanAt t a).read = some k ∧ k.located = true ∧ k.start = o.2.2.start ∧ k.inverted = o.2.2.inverted ∧ k.unsure = o.2.2.unsure
      else match trialOffsets.find? fun x => headerPasses (replayHeader v x) false j.pos with
        | some x => t = { s with chan := t.chan } ∧ (chanAt t a).blindOk = satInc (chanAt s a).blindOk ∧
            ∃ k, (chanAt t a).read = some k ∧ k.located = true ∧ k.start = x ∧ k.inverted = false ∧ k.unsure = false
        | none => (chanAt t a).read = none ∧ (chanAt t a).blindFail = satInc (chanAt s a).blindFail ∧
            ∀ r l, reqBy s j.req = some r → leafBy s j.req j.leafIdx = some l → r.purpose ≠ .source → l.stripe.isSome = true →
              t.grt.enter4 = satInc s.grt.enter4) ∧
  (∀ (s : State) (a : Fin 4) (smp : Samples) (j : ReadJob) (g : Ring), (chanAt s a).read = some j →
    ringAt s j.pos.surface j.pos.ring = some g →
    (j.located = false → exec (.codewordComplete a smp) s = .next s) ∧
    (j.located = true →
      ∃ t, exec (.codewordComplete a smp) s = .next t ∧ (chanAt t a).read = none ∧
        t = { s with chan := t.chan, grt := t.grt, reqs := t.reqs, str := t.str, freeCtr := s.freeCtr + 1 } ∧
        t.str = { s.str with defects := t.str.defects, retiring := t.str.retiring } ∧
        ∀ l, leafBy s j.req j.leafIdx = some l → l.phase = .reading →
          ∃ c, t.grt.queue = s.grt.queue ++ [c] ∧ c.req = j.req ∧ c.leafIdx = j.leafIdx ∧ c.pos = l.pos ∧ c.act = actOf l.pos.surface ∧
            c.soft.length = codeBits g.strength ∧ c.unsure = j.unsure ∧ c.step = firstStep g.strength c.soft ∧
            (c.step = 0 ∧ t.grt.enter1 = s.grt.enter1 ∨ c.step = 1 ∧ t.grt.enter1 = satInc s.grt.enter1) ∧
            leafBy t j.req j.leafIdx = some { l with phase := .ladder, step := c.step, soft := some c.soft, unsure := j.unsure }))

/-- Drifting slices are replaced or their lane faulty; the saved record returns after four bad codewords; a spare lane carries a reader after four wedges (spec/04_read_channel.md R79, spec/04_read_channel.md R101, spec/04_read_channel.md R100, spec/04_read_channel.md R72, spec/04_read_channel.md R73, spec/04_read_channel.md R75, spec/04_read_channel.md R78). -/
def Obligations.LanesAndChannelRecords : Prop :=
  (∀ (s : State) (n : Fin 10) (ms qs : List Qty),
    let l := s.chan.lane[n]
    let bad := (List.range l.inUse.length).filter fun i =>
      4 < absQ (ms.getD i (medianQ ms) - medianQ ms) ∨ medianQ qs / 10 < absQ (qs.getD i (medianQ qs) - medianQ qs)
    ∃ t, exec (.sliceMonitorBlock n ms qs) s = .next t ∧
      match bad.foldl (fun (l : Option Lane) i => l.bind fun l => sliceReplace l i) (some l) with
      | some k => t.chan.lane[n] = { k with slices := t.chan.lane[n].slices } ∧ (bad = [] → k = l) ∧
          t = { s with chan.lane := t.chan.lane } ∧ (∀ m : Fin 10, m ≠ n → t.chan.lane[m] = s.chan.lane[m]) ∧
          ∀ a : Nat, (if n.val < 8 then n.val / 2 else (spareAt s (n.val - 8)).act) = a → (wrAt s a).frame.isSome = true →
            t.chan.lane[n].slices = l.slices
      | none => (n.val < 8 → t.chan.lane[n].faulty = true) ∧ (8 ≤ n.val → (spareAt t (n - 8)).failed = true)) ∧
  (∀ (s : State) (a : Fin 4) (f z : Nat), (chanAt s a).loaded = some (f, z) →
    ∃ t, exec (.channelStateRestore a) s = .next t ∧ ((chanAt s a).highRun < 4 → t = s) ∧
      (4 ≤ (chanAt s a).highRun → (chanAt t a).adapted = savedRec s f z ∧ (chanAt t a).highRun = 0 ∧ (chanAt t a).errs = [] ∧
        t = { s with chan := t.chan, ash := t.ash, reg := t.reg })) ∧
  (∀ (s : State) (a : Fin 4),
    let due := (chanAt s a).tuned / 100 ≤ absQ (bitRate s a - (chanAt s a).tuned)
    ∃ t, exec (.filterRetune a) s = .next t ∧ t = { s with chan := t.chan } ∧ (¬ due → t = s) ∧
      (due → (chanAt t a) = { chanAt s a with tuned := bitRate s a } ∧ ∀ tr,
        (vget t.chan.lane (laneServing s a tr) {}).afe.cutoff = min 31 (chanAt s a).adapted.cutoff ∧
        (vget t.chan.lane (laneServing s a tr) {}).afe.boost = min 24 (chanAt s a).adapted.boost)) ∧
  (∀ (s : State) (j : Fin 2) (w : Nat), (spareAt s j).step = .parallel w →
    let p := spareAt s j
    ∃ t, exec (.laneSpareSwitch j) s = .next t ∧ t = { s with chan := t.chan } ∧
      ((vget s.srv.loop p.act {}).wedges < w + 4 → t = s) ∧
      (w + 4 ≤ (vget s.srv.loop p.act {}).wedges →
        (p.back = false → spareAt t j = { p with carries := true, step := .steady }) ∧
        (p.back = true → p.next = none → spareAt t j = { p with role := .idle, carries := false, step := .steady, back := false }) ∧
        (∀ a tr, p.back = true → p.next = some (a, tr) → spareAt t j = { p with
          role := .substitute, act := a, trail := tr, carries := false, step := .parallel (vget s.srv.loop a {}).wedges,
          back := false, next := none }))) ∧
  (∀ (s : State) (j : Fin 2) (m1 m2 m3 : LaneMeas),
    let p := spareAt s j
    let n := laneOf p.act p.trail
    let cal := laneCal (vget s.chan.lane n {}) m1 m2 m3
    ∃ t, exec (.laneCalibration j m1 m2 m3) s = .next t ∧ (calBlocked s = true ∨ p.step ≠ .steady → t = s) ∧
      (calBlocked s = false → p.step = .steady → p.role = .idle → p.failed = false → spnTurning s.spn.state = true →
        s.prof.laneCalPeriod * 225000000 / 8 ≤ s.chan.spinOn → (∀ i, i < 2 → (spareAt s i).role ≠ .standIn) →
        ∀ k, nextLane s = some k → (spareAt t j).role = .standIn ∧ laneOf (spareAt t j).act (spareAt t j).trail = k ∧
          (spareAt t j).carries = false ∧ t.chan.nextCal = (k + 1) % 8 ∧ t.chan.spinOn = 0 ∧
          (vget t.chan.lane (8 + j) {}).afe = (vget s.chan.lane k {}).afe ∧ t = { s with chan := t.chan, cal := { s.cal with running := s.cal.running ||| 7 } }) ∧
      (calBlocked s = false → p.step = .steady → p.role = .standIn → p.carries = true → p.act < 4 →
        (∀ l, cal = some l → vget t.chan.lane n {} = { l with afe := (vget s.chan.lane (8 + j) {}).afe } ∧
          (spareAt t j).back = true ∧ t.cal.failed.getLsbD 2 = false ∧ t = { s with chan := t.chan, cal := t.cal }) ∧
        (cal = none → (vget t.chan.lane n {}).faulty = true ∧ t.cal.failed.getLsbD 2 = true)) ∧
      (calBlocked s = false → p.step = .steady → p.role = .substitute → p.carries = true → p.act < 4 →
        (vget s.chan.lane n {}).recal = true →
        (∀ l, cal = some l → (spareAt t j).back = true ∧
          vget t.chan.lane n {} = { l with faulty := false, recal := false, afe := (vget s.chan.lane (8 + j) {}).afe }) ∧
        (cal = none → vget t.chan.lane n {} = { vget s.chan.lane n {} with recal := false, retired := true })))

/-- A leaf is held once its syndrome is zero, written only under permit, verified or written again; preamplifier flags abort, hold and take heads out (spec/06_write_path.md R146, spec/06_write_path.md R149, spec/06_write_path.md R151, spec/06_write_path.md R152, spec/06_write_path.md R156, spec/05_leaf_code.md R112, spec/02_architecture.md R30, spec/20_package_and_signals.md R552). -/
def Obligations.WritingVerifyingAndPreamp : Prop :=
  (∀ (s : State) (a : Fin 4) (flips : List Nat) (i : Nat) (j : FrameJob), nextJob s a = some (i, j) →
    let w := wrAt s a
    let cw := flipBits (encodeLeaf j.leaf.strength (leafBytes j.leaf)) flips
    ∃ t, exec (.leafEncode a flips) s = .next t ∧ (2 ≤ wrHeld w ∨ w.outOfService = true → t = s) ∧
      (wrHeld w < 2 → w.outOfService = false → syndromeZero j.leaf.strength cw = true →
        wrAt t a = { w with buffer := w.buffer ++ [(j, cw)], encFails := if w.encAgain = some j.pos then w.encFails else 0, encAgain := none } ∧ t.wrt.queue = s.wrt.queue.eraseIdx i ∧ t = { s with wrt := t.wrt }) ∧
      (wrHeld w < 2 → w.outOfService = false → syndromeZero j.leaf.strength cw = false →
        (wrAt t a).slips = satInc w.slips ∧ (w.encFails = 0 → t = { s with wrt := t.wrt } ∧ t.wrt.queue = s.wrt.queue ∧
          wrAt t a = { w with slips := satInc w.slips, encFails := 1, encAgain := some j.pos }) ∧
        (w.encFails ≠ 0 → (wrAt t a).outOfService = true))) ∧
  (∀ (s : State) (a : Fin 4) (rate : Qty) (j : FrameJob) (cw : List Bool) (rest : List (FrameJob × List Bool)),
    (wrAt s a).buffer = (j, cw) :: rest → (wrAt s a).frame = none →
    let w := wrAt s a
    let l := s.srv.loop[a]
    (∀ p, blkEn s (6 + a.val) = true → speedAllows s j rate = true → l.wrPermit = true → l.inhibit = false → w.changePend = false →
      w.holdUntil = none → w.paReady ≤ s.time → w.paSel = some (j.pos.surface % 8) → l.surface = j.pos.surface →
      headWrites s j.pos.surface = true → w.readback = [] → ringAllows s j.pos = true → trackTarget s j.pos true = some l.target →
      predictedStart s j.pos = some p → l.wedge = some p.1 →
      ∃ t, exec (.frameWrite a rate) s = .next t ∧
        wrAt t a = { w with buffer := rest, frame := some (j, cw), gate := true, pulses := framePulses s a j cw w.gate false } ∧
        (∀ g, ringAt s j.pos.surface j.pos.ring = some g → (ringAt t j.pos.surface j.pos.ring).map (·.wp) = some (max g.wp (j.pos.slot + 1))) ∧
        t = { s with wrt := t.wrt, str := t.str }) ∧
    (l.wrPermit = false ∨ l.inhibit = true ∨ w.changePend = true ∨ speedAllows s j rate = false ∨ w.readback ≠ [] ∨ blkEn s (6 + a.val) = false ∨
      trackTarget s j.pos true ≠ some l.target ∨ (predictedStart s j.pos).map (·.1) ≠ l.wedge ∨ ringAllows s j.pos = false →
      (j.fails = 0 ∨ ringAllows s j.pos = true → exec (.frameWrite a rate) s = .next (gateFall s a)) ∧
      (j.fails ≠ 0 → ringAllows s j.pos = false → exec (.frameWrite a rate) s =
        .next (cornerPump (verifyGivenUp (onWr s a fun w => { w with gate := false, buffer := rest }) j))))) ∧
  (∀ (s : State) (a : Fin 4) (rate : Qty), (wrAt s a).buffer = [] → (wrAt s a).frame = none →
    ∃ t, exec (.frameWrite a rate) s = .next t ∧ t = { s with wrt := t.wrt } ∧ t.wrt.queue = s.wrt.queue ∧
      wrAt t a = { wrAt s a with gate := false, slips := if (nextJob s a).isSome = true ∧ (wrAt s a).changePend = false ∧
        (s.pwr.banking = true ∨ windowOpen s = true) then satInc (wrAt s a).slips else (wrAt s a).slips }) ∧
  (∀ (s : State) (a : Fin 4) (j : FrameJob) (cw : List Bool), (wrAt s a).frame = some (j, cw) →
    ∃ t, exec (.frameWriteComplete a) s = .next t ∧ (wrAt t a).frame = none ∧
      mediaAt t j.pos = some ⟨j.pos, j.leaf, frameStream j.pos j.leaf cw, true⟩ ∧ (∀ p, p ≠ j.pos → mediaAt t p = mediaAt s p) ∧
      ((wrAt s a).buffer = [] → (wrAt t a).gate = false) ∧
      ((wrAt t a).verify = (wrAt s a).verify ++ [j] ∧ t.stg = s.stg ∨
        (wrAt t a).verify = (wrAt s a).verify ∧ (j.leaf.kind ≠ .ember → ∀ u l, j.uid = some u → stagedBy t u = some l → l.dirty = false))) ∧
  (∀ (s : State) (a : Fin 4) (i : Nat) (soft : Option (List Soft)) (j : FrameJob), (wrAt s a).verify[i]? = some j →
    j.leaf.kind ≠ .cornerstone →
    let d := (soft.map (decodeSoft j.leaf.strength 0 (iterFirst s))).getD default
    let ok := soft.isSome && decide (d.status = 0) && leafPasses j.pos [j.leaf.kind] (some (j.leaf.stripe, j.leaf.piece)) (leafOfBytes d.info) &&
      decide (d.iter ≤ ceIter s)
    ∃ t, exec (.verifyRead a i soft) s = .next t ∧
      (ok = true → (wrAt t a).verifyFail = (wrAt s a).verifyFail ∧ t.grt = s.grt ∧
        ∀ u l, j.uid = some u → stagedBy t u = some l → l.dirty = false) ∧
      (ok = false → j.fails = 0 →
        (∃ g, ringAt s j.pos.surface j.pos.ring = some g ∧ (conventional g.role = true ∨ j.pos.slot + 1 = g.wp)) →
        (wrAt t a).verifyFail = satInc (wrAt s a).verifyFail ∧ (wrAt t a).verify = (wrAt s a).verify.eraseIdx i ∧
        (∃ back, t.wrt.queue = { j with fails := 1 } :: (back ++ s.wrt.queue) ∧
          ∀ k ∈ back, k.pos.surface = j.pos.surface ∧ k.pos.ring = j.pos.ring) ∧
        (∀ b : Fin 4, ∀ k ∈ (wrAt t b).buffer, ¬ (k.1.pos.surface = j.pos.surface ∧ k.1.pos.ring = j.pos.ring)) ∧
        t = { s with wrt := t.wrt, grt := t.grt } ∧ t.grt.queue = s.grt.queue)) ∧
  (∀ (s : State) (a : Fin 4) (f : BitVec 8),
    let n := s.srv.loop[a].surface % 8
    ∃ t, exec (.paFaultAssert a f) s = .next t ∧
      (s.prof.paFaultPol = none → t = { s with wrt := t.wrt } ∧
        wrAt t a = { wrAt s a with paLatched := some (((wrAt s a).paLatched.getD 0) ||| f) }) ∧
      (s.prof.paFaultPol ≠ none → (wrAt t a).frame = none ∧ (wrAt t a).gate = false ∧ (wrAt t a).paValid = true ∧ (wrAt t a).paHead = n ∧
        (wrAt t a).paFlags = f ∧
        (f.getLsbD 0 = true ∨ f.getLsbD 1 = true ∨ f.getLsbD 4 = true → headState t (8 * a.val + n) ≠ .inService) ∧
        (f.getLsbD 5 = true ∨ f.getLsbD 6 = true → (wrAt t a).holdUntil = some (s.time + 1000)) ∧
        (f = 0 → t = { s with wrt := t.wrt, media := t.media, seq := t.seq }))) ∧
  (∀ (s : State) (a : Fin 4) (f : BitVec 8) (u : Nat), (wrAt s a).holdUntil = some u →
    ∃ t, exec (.paWriteHoldExpire a f) s = .next t ∧ t.time = max s.time u ∧ (wrAt t a).paFlags = f ∧
      (wrAt t a).holdUntil = if f.getLsbD 5 = true ∨ f.getLsbD 6 = true then some (t.time + 1000) else none)

/-- A free grate takes the next codeword, posts its result record, the collector serves it and judges the leaf; a grate that fails its test leaves service (spec/02_architecture.md R32, spec/05_leaf_code.md R116, spec/05_leaf_code.md R118, spec/05_leaf_code.md R119, spec/05_leaf_code.md R120, spec/05_leaf_code.md R126, spec/05_leaf_code.md R127, spec/05_leaf_code.md R128). -/
def Obligations.GratesAndCollector : Prop :=
  (∀ (s : State) (g : Fin 14), (grateAt s g).inService = true → gratesPaused s = false → (grateAt s g).heldBack = none →
    (grateAt s g).inputBuf = none →
    (nextCodeword s = none → exec (.grateTakeCodeword g) s = .next s) ∧
    ∀ i c, nextCodeword s = some (i, c) →
      ∃ t, exec (.grateTakeCodeword g) s = .next t ∧ t.grt.queue = s.grt.queue.eraseIdx i ∧
        grateAt t g = (if (grateAt s g).working = none then { grateAt s g with working := some c } else { grateAt s g with inputBuf := some c }) ∧
        (∀ h : Fin 14, h ≠ g → grateAt t h = grateAt s h) ∧ t = { s with grt := t.grt }) ∧
  (∀ (s : State) (g : Fin 14), (grateAt s g).inService = false ∨ gratesPaused s = true → exec (.grateTakeCodeword g) s = .next s) ∧
  (∀ (s : State) (g : Fin 14) (bad : Bool) (c : Codeword), (grateAt s g).working = some c → (grateAt s g).heldBack = none →
    let d := decodeSoft c.strength c.step (stepLimit s c.step c.scrub) c.soft
    let r : GrateResult := ⟨c.req, c.leafIdx, g, d.status, d.iter, c.step, d.corrected, d.erased, d.info, c⟩
    ∃ t, exec (.grateDecodeDone g bad) s = .next t ∧
      (d.status ≠ 0 ∨ bad = false → (grateAt t g).sinceKat = (grateAt s g).sinceKat + 1 ∧ t = { s with grt := t.grt } ∧
        ((grateAt s g).slot.length < 2 → (grateAt t g).slot = (grateAt s g).slot ++ [r] ∧ (grateAt t g).heldBack = none ∧
          (grateAt t g).working = (grateAt s g).inputBuf ∧ (grateAt t g).inputBuf = none) ∧
        (2 ≤ (grateAt s g).slot.length → (grateAt t g).slot = (grateAt s g).slot ∧ (grateAt t g).heldBack = some r ∧
          (grateAt t g).working = none ∧ (grateAt t g).inputBuf = (grateAt s g).inputBuf)) ∧
      (d.status = 0 → bad = true → (grateAt s g).inService = true → (grateAt s g).failed = false → gratesIn s ≠ 1 →
        (grateAt t g).inService = false ∧ (grateAt t g).failed = true ∧ (grateAt t g).slot = (grateAt s g).slot ∧
        t.grt.queue = ((c :: (grateAt s g).inputBuf.toList).filter fun x => !x.dead) ++ s.grt.queue)) ∧
  (∀ (s : State), nextServed s = none → exec .collectorServe s = .next s) ∧
  (∀ (s : State) (g : Nat) (r : GrateResult) (rest : List GrateResult) (q : Request) (l : ReqLeaf), nextServed s = some g →
    (grateAt s g).slot = r :: rest → rest.length < 2 → reqBy s r.req = some q → leafBy s r.req r.leafIdx = some l → leafSettled l = false →
    l.phase ≠ .rebuilding → q.purpose ≠ .source → l.pos.surface < 32 →
    let a := actOf l.pos.surface
    let pass := leafPasses l.pos l.kinds ((l.stripe.map fun st => (st, l.piece)) <|> l.home) (leafOfBytes r.info)
    ∃ t, exec .collectorServe s = .next t ∧ t.grt.last = g ∧ (grateAt t g).slot = rest ++ (grateAt s g).heldBack.toList ∧
      (r.cw.dead = true → t.grt.miscor = s.grt.miscor ∧ t.grt.enter1 = s.grt.enter1 ∧ t.grt.queue = s.grt.queue) ∧
      (r.cw.dead = false → r.status = 0 → pass = true →
        (leafBy t r.req r.leafIdx).map (fun x => (x.phase, x.data)) = some (.ready, some (leafOfBytes r.info)) ∧
        vget t.grt.ceCnt a 0 = if 1 ≤ r.step ∨ ceIter s < r.iter then satInc (vget s.grt.ceCnt a 0) else vget s.grt.ceCnt a 0) ∧
      (r.cw.dead = false → r.status = 0 → pass = false → t.grt.miscor = if r.cw.unsure then s.grt.miscor else satInc s.grt.miscor) ∧
      (r.cw.dead = false → r.status = 1 → r.step = 0 → t.grt.enter1 = satInc s.grt.enter1 ∧
        ∃ c, t.grt.queue = s.grt.queue ++ [c] ∧ c.step = 1 ∧ c.req = r.req ∧ c.leafIdx = r.leafIdx ∧ c.pos = l.pos)) ∧
  (∀ (s : State) (g : Fin 14) (pass : Bool),
    let x := grateAt s g
    ∃ t, exec (.grateKatDue g pass) s = .next t ∧ (x.inService = false ∨ x.sinceKat < 65536 → t = s) ∧
      (x.inService = true → 65536 ≤ x.sinceKat →
        (pass = true → grateAt t g = { x with sinceKat := 0 } ∧ (∀ h : Fin 14, h ≠ g → grateAt t h = grateAt s h) ∧ t = { s with grt := t.grt }) ∧
        (pass = false → x.failed = false → gratesIn s ≠ 1 → (grateAt t g).inService = false ∧ (grateAt t g).failed = true) ∧
        (pass = false → x.failed = false → gratesIn s = 1 → t.flt.class3 = true ∧ (grateAt t g).inService = true))) ∧
  (∀ (s : State) (g : Fin 14) (pass : Bool),
    let x := grateAt s g
    ∃ t, exec (.spareGrateKat g pass) s = .next t ∧ (x.inService = true ∨ x.failed = true ∨ pass = true → t = s) ∧
      (x.inService = false → x.failed = false → pass = false → grateAt t g = { x with failed := true } ∧
        t.str.gratesLeft = s.str.gratesLeft - 1 ∧ t.flt.cnt1 = satInc s.flt.cnt1 ∧ ∀ h : Fin 14, h ≠ g → grateAt t h = grateAt s h))

/-- The stripe engine solves once k sources have arrived; a copied source group is freed; nothing is copied while banking; a due scrub pass reads group by group (spec/09_stripes_and_spares.md R244, spec/09_stripes_and_spares.md R245, spec/09_stripes_and_spares.md R246, spec/09_stripes_and_spares.md R248, spec/09_stripes_and_spares.md R249, spec/09_stripes_and_spares.md R255, spec/05_leaf_code.md R130). -/
def Obligations.StripesCopiesAndScrub : Prop :=
  (∀ (s : State) (src : Fin 8192) (b : Rebuild) (g : Group) (l : ReqLeaf), (s.str.rebuilds.find? fun x => x.srcReq = src.val) = some b →
    groupById s (stripeGroup b.stripe) = some g → leafBy s b.req b.leafIdx = some l → b.req ≠ b.srcReq →
    let got := (sourceSet b).filterMap fun i => (b.arrived.find? fun a => a.piece = i).map fun a => (i, a.coded)
    let r := (solvePiece g.k g.m b.piece got).filter (rebuiltOk g b.piece)
    ∃ t, exec (.stripeEngineSolve src) s = .next t ∧ (got.length < g.k → t = s) ∧
      (g.k ≤ got.length → ∀ x, r = some x → (∀ y ∈ t.str.rebuilds, y.srcReq ≠ b.srcReq) ∧
        (leafBy t b.req b.leafIdx).map (fun y => (y.phase, y.data)) = some (.ready, some (bareLeaf b.stripe b.piece x))) ∧
      (g.k ≤ got.length → r = none → g.m ≤ b.sets → (∀ y ∈ t.str.rebuilds, y.srcReq ≠ b.srcReq) ∧
        (leafBy t b.req b.leafIdx).map (fun y => (y.phase, y.data)) = some (.unreadable, none))) ∧
  (∀ (s : State) (why : CopyWhy), s.pwr.banking = true ∨ s.flt.class3 = true → exec (.copyForward why) s = .next s) ∧
  (∀ (s : State) (why : CopyWhy) (j : CopyJob) (g : Group), s.pwr.banking = false → s.flt.class3 = false → s.str.copy = some j →
    groupById s j.group = some g → g.state ≠ .freed →
    ∃ t, exec (.copyForward why) s = .next t ∧
      -- step 3: the leaves are written anew; nothing names the new ones yet
      (j.moved = false → j.named = false → groupRead s j.group = true → t = s) ∧
      (∀ r, j.moved = false → j.named = false → groupRead s j.group = false → (j.stripes = [] → groupPending s j.group = false) →
        copyRoom s (if g.role = .index then .index else .data) (copyLeft s j).length = true → j.batch ≠ [] →
        j.batch.length ≤ stagingRoom s → reqBy s copyTask = some r → reqSettled r = true →
        ∃ k, t.str.copy = some k ∧ k.group = j.group ∧ k.moved = false ∧ k.named = false ∧ k.batch = [] ∧
          k.moves.map (·.1) = j.moves.map (·.1) ++ j.batch ∧ t.obj.objs = s.obj.objs) ∧
      (j.moved = false → j.named = false → groupRead s j.group = false → (j.stripes = [] → groupPending s j.group = false) →
        copyRoom s (if g.role = .index then .index else .data) (copyLeft s j).length = true → j.batch = [] → copyLeft s j = [] →
        t.str.copy = some { j with moved := true } ∧ t.obj.objs = s.obj.objs) ∧
      -- step 4: once they are on the media their records are written
      (j.moved = true → j.named = false → (j.moves.all fun m => decide (m.2 = m.1) || stripeWritten s m.2.1) = false → t = s) ∧
      (j.moved = true → j.named = false → (j.moves.all fun m => decide (m.2 = m.1) || stripeWritten s m.2.1) = true →
        ∃ k, t.str.copy = some k ∧ k.named = true ∧ k.moves = j.moves ∧ t.obj.objs = s.obj.objs) ∧
      -- pages that found no room are staged as slots fall free
      (j.named = true → j.todo ≠ [] → ∃ k, t.str.copy = some k ∧ k.todo = j.todo.drop (stagingRoom s) ∧
        k.pages.take j.pages.length = j.pages ∧ t.obj.objs = s.obj.objs) ∧
      -- step 5: once the records are written the table switch is asked for, and waited for
      (j.named = true → j.todo = [] → j.pages.all (leafHome s) = true → groupRead s j.group = false → j.asked = none →
        t.str.copy = some { j with asked := some s.seq.switches } ∧ t.seq.switchReq = true) ∧
      (j.named = true → j.todo = [] → j.pages.all (leafHome s) = true → groupRead s j.group = false → j.asked = some s.seq.switches → t = s) ∧
      -- step 6: the records switch, and the source is freed unless something live is left in it
      (∀ n, j.named = true → j.todo = [] → j.pages.all (leafHome s) = true → groupRead s j.group = false → j.asked = some n → n ≠ s.seq.switches →
        t.str.copy = none ∧ (j.stripes = [] → j.lost = false →
          (groupById t j.group).map (·.state) = some .freed ∨ g.role ≠ .index ∧ groupLive t j.group ≠ []))) ∧
  (∀ (s : State), s.pwr.banking = false → s.flt.class3 = false → s.str.copy = none → reqBy s copyTask = none → s.str.rebuilds = [] →
    s.str.retiring = [] → s.str.relocPending = [] → reflowGroups s = [] → s.str.redundant = false →
    ∃ t, exec (.copyForward .relocation) s = .next t ∧ t.str.redundant = true ∧ t.str.reflowed = 0 ∧
      t.ash.health = (s.hours, .redundancyRestored) :: s.ash.health ∧ t.obj = s.obj ∧ t.stg = s.stg) ∧
  (∀ (s : State), s.pwr.banking = true ∨ s.flt.class3 = true ∨ s.pwr.restored = false ∨
    s.hours < s.str.scrubFrom → exec .scrubPass s = .next s) ∧
  (∀ (s : State) (g : Group) (gs : List Group), s.pwr.banking = false → s.flt.class3 = false →
    s.pwr.restored = true → s.str.scrubFrom ≤ s.hours → scrubLeft s = g :: gs →
    ∃ t, exec .scrubPass s = .next t ∧ t.cyz.scrub.isSome = true ∧
      ∀ r, reqBy s scrubTask = some r → reqSettled r = true → t.str.scrubDone = s.str.scrubDone ++ [g.id] ∧ reqBy t scrubTask = none)

/-- Fills and evictions complete; the patrol counts and logs what it finds; a flue descriptor moves exactly its bytes, and bus errors are retried as the rules say (spec/10_hob_cache_dma.md R281, spec/10_hob_cache_dma.md R282, spec/10_hob_cache_dma.md R270, spec/10_hob_cache_dma.md R273, spec/10_hob_cache_dma.md R303, spec/10_hob_cache_dma.md R294, spec/10_hob_cache_dma.md R296, spec/10_hob_cache_dma.md R298, spec/10_hob_cache_dma.md R299). -/
def Obligations.CacheHobAndFlue : Prop :=
  (∀ (s : State) (k : Fin 48) (w : Fin 16) (subs : BitVec 8) (l : Line) (lf : Leaf),
    (s.cch.lines.find? fun x => x.set = k.val ∧ x.way = w.val) = some l → l.state = .filling → l.leaf = some lf →
    findLine s l.stripe l.piece = some l → l.set = k.val ∧ l.way = w.val →
    ∃ t, exec (.cacheLineFill k w subs) s = .next t ∧ t = { s with cch := t.cch } ∧
      (l.noValid = true → l.locked = false → (t.cch.lines.find? fun x => x.set = k.val ∧ x.way = w.val) = none) ∧
      (l.noValid = false → l.promoted = false → (t.cch.lines.find? fun x => x.set = k.val ∧ x.way = w.val) =
        some { l with state := .valid, valid := 0xFF, leaf := some lf }) ∧
      (l.noValid = false → l.promoted = true → subs ≠ 0 → (t.cch.lines.find? fun x => x.set = k.val ∧ x.way = w.val) =
        some { l with state := .valid, valid := subs, leaf := some lf, promoted := false })) ∧
  (∀ (s : State) (k : Fin 48) (w : Fin 16) (l : Line) (st pc : Nat), (s.cch.lines.find? fun x => x.set = k.val ∧ x.way = w.val) = some l →
    l.state = .evicting → l.retag = some (st, pc) →
    ∃ t, exec (.cacheEvictComplete k w) s = .next t ∧ t = { s with cch := t.cch, drm := t.drm } ∧ (l.pins ≠ 0 → t = s) ∧
      (l.pins = 0 → (∃ x, t.cch.lines.head? = some x ∧ x.set = k.val ∧ x.way = w.val ∧ x.state = .filling ∧ x.stripe = st ∧ x.piece = pc ∧
          x.valid = 0) ∧
        ∀ lf, l.leaf = some lf → l.valid = 0xFF → s.prof.dramSize ≠ 0 → s.drm.withdrawn = false → (l.stripe, l.piece, lf) ∈ t.drm.l2)) ∧
  (∀ (s : State) (e : WordErr), blkEn s 2 = true → s.hob.ceLog.length = 16 →
    let a := 8 * s.hob.patrolAt
    ∃ t, exec (.hobPatrolScrub .hob e) s = .next t ∧ t.hob.patrolAt = (s.hob.patrolAt + 1) % 8388608 ∧ t.hob.mem = s.hob.mem ∧
      match e with
      | .clean => t = { s with hob.patrolAt := t.hob.patrolAt }
      | .corrected syn => t.hob.ce = satInc s.hob.ce ∧ t.hob.ue = s.hob.ue ∧
          ∃ x ∈ t.hob.ceLog, x.valid = true ∧ x.fb = false ∧ x.bank = hobBank a ∧ x.row = hobRow a ∧ x.word = hobWord a ∧ x.syndrome = syn.toNat
      | .uncorrectable syn => t.hob.ue = satInc s.hob.ue ∧ t.hob.ce = s.hob.ce ∧
          ∃ x ∈ t.hob.ceLog, x.valid = true ∧ x.ue = true ∧ x.fb = false ∧ x.bank = hobBank a ∧ x.row = hobRow a ∧ x.word = hobWord a ∧
            x.syndrome = syn.toNat) ∧
  (∀ (s : State) (syn : BitVec 8), blkEn s 2 = true → ∃ t, exec (.hobPatrolScrub .firebrick (.uncorrectable syn)) s = .next t ∧ t.flt.class3 = true) ∧
  (∀ (s : State) (line : Option (Nat × Nat)) (syn : BitVec 8), s.drm.withdrawn = false → s.prof.dramSize ≠ 0 →
    ∃ t, exec (.hobPatrolScrub (.lpddr line) (.uncorrectable syn)) s = .next t ∧ (∀ e ∈ t.drm.l2, some (e.1, e.2.1) ≠ line) ∧
      t.drm.ue.head? = some s.time) ∧
  (∀ (s : State) (n : Fin 40) (host : List Byte) (d : Desc), Memory.wf s.hob.mem = true → (fluAt s n).active = some d →
    (fluAt s n).pause = false → (fluAt s n).inService = true → tableRuns s (fluAt s n) = true → blkEn s 4 = true →
    ∃ t, exec (.flueDescriptorDone n host) s = .next t ∧ (fluAt t n).done = (fluAt s n).done + 1 ∧
      (∀ e rest, (fluAt s n).rest = e :: rest → (fluAt t n).active = some e ∧ (fluAt t n).rest = rest) ∧
      memGet t.hob.mem (d.addr + 22) = 1 ∧
      (∀ x, x ≠ d.addr + 22 → memGet t.hob.mem x =
        if d.dstSpace = 0 ∧ d.dst ≤ x ∧ x < d.dst + d.len then (spaceRead s d.srcSpace d.src d.len host).getD (x - d.dst) 0
        else memGet s.hob.mem x) ∧
      (∀ m : Fin 40, m ≠ n → fluAt t m = fluAt s m) ∧
      t = { s with hob.mem := t.hob.mem, drm.mem := t.drm.mem, flu := t.flu, flt := t.flt }) ∧
  (∀ (s : State) (n : Fin 40) (dst : Bool) (left : Nat) (host : List Byte) (d : Desc), Memory.wf s.hob.mem = true →
    (fluAt s n).active = some d → (fluAt s n).pause = false → (fluAt s n).inService = true → tableRuns s (fluAt s n) = true → blkEn s 4 = true →
    let far := (if dst then d.dstSpace else d.srcSpace) = 2
    let part := descLeft d (min left d.len)
    ∃ t, exec (.flueBusError n dst left host) s = .next t ∧
      (far → (fluAt s n).cls = 1 → t.flu.events = satInc s.flu.events ∧ (fluAt t n).active = some part ∧
        (∀ r, s.flu.alone = some r → t.flu.stopped = false ∧ t.flu.alone = none) ∧
        (s.flu.alone = none → s.flu.stopped = false → t.flu.stopped = true ∧ t.flu.alone = none) ∧
        (s.flu.alone = none → s.flu.stopped = true → t.flu.stopped = true ∧ t.flu.alone = some 32)) ∧
      (¬ far → (fluAt s n).cls = 0 → (n.val, d) ∉ s.flu.again →
        ((∀ x ∈ (fluAt s n).fails, x + 1000000 ≤ s.time) → t.flu.again = s.flu.again ++ [(n.val, part)] ∧ (fluAt t n).fails = [s.time] ∧ (fluAt t n).descBad = true ∧ t.str = s.str) ∧
        ((∃ x ∈ (fluAt s n).fails, s.time < x + 1000000) → (fluAt t n).cls = 3 ∧ (fluAt t n).inService = false)) ∧
      (far → (fluAt s n).cls = 0 → memGet t.hob.mem (d.addr + 22) = (if dst then 3 else 2) ∧ (fluAt t n).descBad = true ∧
        ((n.val, d) ∉ s.flu.again → t.flu.again = s.flu.again ++ [(n.val, part)] ∧ t.host = s.host ∧
          (fluAt t n).active = ((fluAt s n).rest ++ [part]).head?) ∧
        ((n.val, d) ∈ s.flu.again → t.flu.again = s.flu.again.erase (n.val, d) ∧
          t.host.dataErr = s.host.dataErr ++ (fluAt s n).ctx.toList)))

/-- Each microword executes its nanoword and goes where its SEQ sends it; a full or empty stack is a sequencer fault; END reaches a quiet point (spec/11_sequencers.md R316, spec/11_sequencers.md R317, spec/11_sequencers.md R319, spec/11_sequencers.md R315, spec/11_sequencers.md R325). -/
def Obligations.MicrowordsRun : Prop :=
  (∀ (s : State) (n : Fin 5) (ce : Bool),
    let q := sqr s n
    let w := microAt q
    let nw := nanoOf q w
    let e := execNano q nw
    let only := fun (t : State) => t = { s with seq := t.seq } ∧ (∀ m : Fin 5, m ≠ n → sqr t m = sqr s m) ∧
      (sqr t n).storeCe = (if ce then satInc q.storeCe else q.storeCe) ∧ (sqr t n).store = q.store
    let data := fun (t : State) => (sqr t n).regs = e.regs ∧ (sqr t n).flags = e.flags ∧ (sqr t n).resume = e.resume ∧ (sqr t n).save = e.save
    (runsOp s n 0 = true → ∃ t, exec (.next n ce) s = .next t ∧ only t ∧ data t ∧ (sqr t n).loops = e.loops ∧
      (sqr t n).pc = q.pc + 1 ∧ (sqr t n).stack = q.stack ∧ (sqr t n).readFalse = false) ∧
    (runsOp s n 1 = true →
      let e' := { e with wdog := 0, waitFrom := (vget s.srv.loop q.serves {}).wedges, readFalse := false }
      ∃ t, exec (.wait n ce) s = .next t ∧ only t ∧ data t ∧
        if condTrue s e' (Config.condCode (BitVec.ofNat 6 (bitsOf w 9 4))) then (sqr t n).mode = .running ∧ (sqr t n).pc = q.pc + 1
        else (sqr t n).mode = .waiting ∧ (sqr t n).pc = q.pc) ∧
    (runsOp s n 2 = true → ∃ t, exec (.brt n ce) s = .next t ∧ only t ∧ data t ∧
      (sqr t n).pc = if readCond s q nw = true then branchTo q.pc w else q.pc + 1) ∧
    (runsOp s n 3 = true → ∃ t, exec (.brf n ce) s = .next t ∧ only t ∧ data t ∧
      (sqr t n).pc = if readCond s q nw = false then branchTo q.pc w else q.pc + 1) ∧
    (runsOp s n 4 = true → q.stack.length < 8 → ∃ t, exec (.call n ce) s = .next t ∧ only t ∧ data t ∧
      (sqr t n).stack = (q.pc + 1) :: q.stack ∧ (sqr t n).pc = BitVec.ofNat 14 (bitsOf nw 127 114)) ∧
    (runsOp s n 4 = true → 8 ≤ q.stack.length → q.serves < 4 → ∃ t, exec (.call n ce) s = .next t ∧ (sqr t n).serves = 6) ∧
    (runsOp s n 5 = true → ∀ r rs, q.stack = r :: rs → ∃ t, exec (.ret n ce) s = .next t ∧ only t ∧ data t ∧
      (sqr t n).stack = rs ∧ (sqr t n).pc = r) ∧
    (runsOp s n 5 = true → q.stack = [] → q.serves < 4 → ∃ t, exec (.ret n ce) s = .next t ∧ (sqr t n).serves = 6) ∧
    (runsOp s n 6 = true →
      let k := bitsOf nw 105 104
      let c := vget e.loops k 0 - 1
      ∃ t, exec (.loop n ce) s = .next t ∧ only t ∧ data t ∧ vget (sqr t n).loops k 0 = c ∧
        (∀ i, i < 4 → i ≠ k → vget (sqr t n).loops i 0 = vget e.loops i 0) ∧
        (sqr t n).pc = if c ≠ 0 then branchTo q.pc w else q.pc + 1) ∧
    (runsOp s n 7 = true →
      let holds := (s.seq.switchReq = true ∧ q.serves < 4) ∨ patchTurn s n = true
      -- the quiet point: the routine has ended, nothing is held yet
      let u := onSq (bgEnded s n) n fun q => { q with routine := none, mode := .quiet, handler := none }
      ∃ t, exec (.seqEnd n ce) s = .next t ∧ only t ∧ (sqr t n).ends = q.ends + 1 ∧
        (holds → (sqr t n).hold = true ∧ (sqr t n).mode = .quiet ∧ (sqr t n).routine = none ∧ startsOf t n = startsOf s n) ∧
        (¬ holds → (sqr t n).hold = false) ∧
        (¬ holds → seqPaused s = true ∨ (∀ x ∈ startsOf s n, shareHeld u q.serves x = true) →
          (sqr t n).mode = .quiet ∧ (sqr t n).routine = none ∧ startsOf t n = startsOf s n) ∧
        ∀ x, ¬ holds → seqPaused s = false → ((startsOf s n).find? fun x => ¬ shareHeld u q.serves x) = some x →
          (sqr t n).routine = some x ∧ (sqr t n).pc = x.entry ∧ (sqr t n).mode = .running ∧ startsOf t n = (startsOf s n).erase x) ∧
    (q.mode = .quiet → exec (.next n ce) s = .next s ∧ exec (.wait n ce) s = .next s ∧ exec (.brt n ce) s = .next s ∧
      exec (.brf n ce) s = .next s ∧ exec (.call n ce) s = .next s ∧ exec (.ret n ce) s = .next s ∧ exec (.loop n ce) s = .next s ∧
      exec (.seqEnd n ce) s = .next s)) ∧
  (∀ (s : State) (n : Fin 5) (ce : Bool), (sqr s n).mode = .waiting →
    let q := sqr s n
    let c := condTrue s q (Config.condCode (BitVec.ofNat 6 (bitsOf (microAt q) 9 4)))
    let k := bitsOf (microAt q) 3 0
    let late := k ≠ 0 ∧ q.waitFrom + 2 ^ (k - 1) ≤ (vget s.srv.loop q.serves {}).wedges
    (c = false → exec (.wait n ce) s = .next s) ∧
    (c = true → ∃ t, exec (.wait n ce) s = .next t ∧ sqr t n = { q with pc := q.pc + 1, mode := .running } ∧ t = { s with seq := t.seq }) ∧
    (late → ∃ t, exec (.waitTimeout n) s = .next t ∧ sqr t n = { q with pc := q.pc + 1, mode := .running, readFalse := true } ∧
      t = { s with seq := t.seq } ∧ ∀ m : Fin 5, m ≠ n → sqr t m = sqr s m) ∧
    (¬ late → exec (.waitTimeout n) s = .next s))

/-- A routine starts at once, or waits in the start register or with the hearth; a micro-trap saves and resumes; a faulty sequencer gives its role to SQ4 (spec/11_sequencers.md R315, spec/11_sequencers.md R318, spec/11_sequencers.md R321, spec/11_sequencers.md R322, spec/11_sequencers.md R323, spec/11_sequencers.md R332, spec/11_sequencers.md R333). -/
def Obligations.RoutinesTrapsAndSequencerFaults : Prop :=
  (∀ (s : State) (n : Fin 5) (u : RoutineStart), (sqr s n).serves < 4 →
    let q := sqr s n
    ∃ t, exec (.routineStart n u) s = .next t ∧ t = { s with seq := t.seq } ∧ (∀ m : Fin 5, m ≠ n → sqr t m = sqr s m) ∧
      (q.start ≠ none ∨ shareHeld s q.serves u = true → t.seq.kept = s.seq.kept ++ [(q.serves, u)] ∧ sqr t n = q) ∧
      (q.start = none → shareHeld s q.serves u = false → q.routine = none → q.hold = false → q.mode = .quiet → seqPaused s = false →
        (sqr t n).routine = some u ∧ (sqr t n).pc = u.entry ∧ (sqr t n).mode = .running ∧ (sqr t n).stack = [] ∧ t.seq.kept = s.seq.kept) ∧
      (q.start = none → shareHeld s q.serves u = false → q.routine ≠ none ∨ q.hold = true ∨ q.mode ≠ .quiet ∨ seqPaused s = true →
        sqr t n = { q with start := some u } ∧ t.seq.kept = s.seq.kept)) ∧
  (∀ (s : State) (n : Fin 5) (i : Nat), (sqr s n).handler = none → trapTop (sqr s n).trapPend = some i →
    let q := sqr s n
    let c := trapCause i
    ∃ t, exec (.microTrap n) s = .next t ∧ (sqr t n).handler = some c ∧ (sqr t n).mode = .trap ∧ (sqr t n).trapPend.getLsbD i = false ∧
      (∀ k, k < 8 → k ≠ i → (sqr t n).trapPend.getLsbD k = q.trapPend.getLsbD k) ∧
      (q.mode ≠ .trap → (sqr t n).save = some (saveRecord q)) ∧ (q.mode = .trap → c = .pause → q.lastCause = 7 → (sqr t n).save = q.save) ∧
      (q.mode = .trap → c ≠ .pause ∨ q.lastCause ≠ 7 → (sqr t n).save = q.save.map fun m => { m with pc := m.resume }) ∧
      (sqr t n).traps = satInc q.traps ∧
      (sqr t n).routine = (if c = .recall ∨ c = .abandon then none else q.routine) ∧
      (c = .recall → ∀ u, q.routine = some u → t.seq.kept = s.seq.kept ++ [(q.serves, u)]) ∧
      (c ≠ .pause → q.serves < 4 → (chanAt t q.serves).read = none) ∧
      (c = .recall → q.serves < 4 → (wrAt t q.serves).frame = none) ∧
      ∀ m : Fin 5, m ≠ n → sqr t m = { sqr s m with trapPend := (sqr t m).trapPend } ∧ (c ≠ .recall → sqr t m = sqr s m)) ∧
  (∀ (s : State) (n : Fin 5), (sqr s n).handler ≠ none ∨ (sqr s n).trapPend = 0 → exec (.microTrap n) s = .next s) ∧
  (∀ (s : State) (n : Fin 5) (c : TrapCause), (sqr s n).handler = some c →
    let q := sqr s n
    (mayResume s q.serves c = false → exec (.trapResume n) s = .next s) ∧
    (mayResume s q.serves c = true →
      ∃ t, exec (.trapResume n) s = .next t ∧ t = { s with seq := t.seq } ∧ (q.trapPend ≠ 0 → sqr t n = { q with handler := none }) ∧
        ∀ u m, q.trapPend = 0 → q.routine = some u → q.save = some m →
          (sqr t n).handler = none ∧ (sqr t n).mode = .running ∧ (sqr t n).pc = (if c = .pause then m.pc else m.resume) ∧
          (sqr t n).stack = m.stack ∧ (sqr t n).loops = m.loops ∧ (sqr t n).regs = m.regs ∧ (sqr t n).flags = m.flags)) ∧
  (∀ (s : State) (n : Fin 5) (nano : Bool) (addr : Nat),
    let q := sqr s n
    let again := q.dbl.any fun d => d.1 = nano ∧ d.2.1 = addr ∧ s.time < d.2.2 + 1000000
    ∃ t, exec (.controlStoreReload n nano addr) s = .next t ∧
      (again = false → t = { s with seq := t.seq } ∧
        (nano = true → lookupD (sqr t n).store.nano addr 0 = lookupD s.seq.master.nano addr 0 ∧ (sqr t n).store.micro = q.store.micro) ∧
        (nano = false → lookupD (sqr t n).store.micro addr 0 = lookupD s.seq.master.micro addr 0 ∧ (sqr t n).store.nano = q.store.nano)) ∧
      (again = true → q.serves < 4 → (sqr t n).serves = 6)) ∧
  (∀ (s : State) (n : Fin 5),
    let q := sqr s n
    let late := bitsOf s.reg.ck.seqCfg 15 0 * 1024 ≤ q.wdog ∧ q.mode = .running
    (¬ late → exec (.seqWatchdog n) s = .next s) ∧
    (late → q.serves < 4 → ∃ t, exec (.seqWatchdog n) s = .next t ∧ (sqr t n).serves = 6 ∧
      (s.str.seqLeft = true → (sqr s 4).serves = 7 → (sqr t 4).serves = q.serves ∧ t.str.seqLeft = false ∧
        ∀ u m, q.routine = some u → q.save = some m → (sqr t 4).routine = some u ∧ (sqr t 4).pc = m.resume ∧ (sqr t 4).mode = .running) ∧
      (s.str.seqLeft = false → vget t.str.actOut q.serves false = true))) ∧
  (∀ (s : State) (n : Fin 5) (pass : Bool),
    let q := sqr s n
    (q.routine ≠ none ∨ q.mode ≠ .quiet ∨ pass = true → exec (.sequencerKat n pass) s = .next s) ∧
    (q.routine = none → q.mode = .quiet → pass = false → q.serves < 4 ∨ q.serves = 7 →
      ∃ t, exec (.sequencerKat n pass) s = .next t ∧ (sqr t n).serves = 6))

/-- The tables switch once every in-service sequencer holds; a patch is checked, taken sequencer by sequencer at quiet points, and undone on a CRC mismatch (spec/11_sequencers.md R325, spec/11_sequencers.md R326, spec/11_sequencers.md R327, spec/11_sequencers.md R328, spec/11_sequencers.md R329, spec/11_sequencers.md R330, spec/11_sequencers.md R331). -/
def Obligations.SwitchesAndPatches : Prop :=
  (∀ (s : State),
    (s.pwr.banking = true → exec .tableSwitchRequest s = .next { s with pwr.switchRedo := true }) ∧
    (s.pwr.banking = false → ∃ t, exec .tableSwitchRequest s = .next t ∧ t.seq.switchReq = true ∧ t = { s with seq := t.seq } ∧
      ∀ n : Fin 5, let q := sqr s n
        sqr t n = { q with hold := q.hold || decide (q.serves < 4 ∧ q.routine.isNone ∧ q.mode = .quiet) })) ∧
  (∀ (s : State),
    let ready := s.seq.switchReq = true ∧ ∀ n : Fin 5, 4 ≤ (sqr s n).serves ∨ (sqr s n).hold = true
    (¬ ready → exec .tableSwitch s = .next s) ∧
    (ready → ∃ t, exec .tableSwitch s = .next t ∧ t.seq.switchReq = false ∧ t.seq.ringMapCopy = !s.seq.ringMapCopy ∧
      t.seq.switches = s.seq.switches + 1 ∧ t = { s with seq := t.seq } ∧
      ∀ n : Fin 5,
        let q := sqr s n
        (q.mode ≠ .quiet ∨ q.routine ≠ none → sqr t n = q) ∧
        (q.mode = .quiet → q.routine = none → (sqr t n).hold = patchTurn s n ∧
          ((∀ m : Fin 5, m ≠ n → (sqr s m).serves ≠ q.serves) →
            (patchTurn s n = true ∨ seqPaused s = true ∨ startsOf s n = [] → sqr t n = { q with hold := patchTurn s n }) ∧
            ∀ u rest, patchTurn s n = false → seqPaused s = false → startsOf s n = u :: rest → u.activity = 0 ∨ s.spn.draftQ = 0 →
              (sqr t n).routine = some u ∧ (sqr t n).pc = u.entry ∧ (sqr t n).mode = .running ∧ startsOf t n = rest)))) ∧
  (∀ (s : State) (image : List Byte),
    ∃ t, exec (.microcodePatch image) s = .next t ∧
      match Config.parsePatch image with
      | none => t = { s with seq.patchReason := 9 }
      | some p =>
        (Config.imageVerifies image = false ∨ p.base ≠ s.seq.masterBase → t = { s with seq.patchReason := 9 }) ∧
        (Config.imageVerifies image = true → p.base = s.seq.masterBase →
          (s.pwr.banking = true ∨ substituting s = true ∨ s.seq.patching.isSome = true → t = { s with seq.patchReason := 5 }) ∧
          (s.pwr.banking = false → substituting s = false → s.seq.patching = none → patchBanking p = true → t = { s with seq.patchReason := 0x0A }) ∧
          (s.pwr.banking = false → substituting s = false → s.seq.patching = none → patchBanking p = false →
            t.seq.patchReason = 0 ∧ t.seq.patching = some p ∧ t.seq.prevMaster = some s.seq.master ∧ t.seq.masterPatch = p.level ∧
            t.seq.master = patchStore s.seq.master p ∧ (∀ n : Fin 5, (sqr t n).store = (sqr s n).store) ∧
            (∀ n : Fin 5, (patchOrder s).head? = some n.val → (sqr s n).mode = .quiet → (sqr s n).routine = none → (sqr t n).hold = true) ∧
            t = { s with seq := t.seq, sec.meas := t.sec.meas }))) ∧
  (∀ (s : State) (n : Fin 5) (p : Patch) (old : Store), s.seq.patching = some p → s.seq.prevMaster = some old →
    let q := sqr s n
    let st := patchStore q.store p
    (q.routine ≠ none ∨ q.mode ≠ .quiet ∨ s.pwr.banking = true ∨ s.seq.patchCut = true ∨ patchTurn s n = false →
      exec (.patchApplySequencer n) s = .next s) ∧
    (q.routine = none → q.mode = .quiet → s.pwr.banking = false → s.seq.patchCut = false → s.seq.undoing = false →
      ((patchOrder s).find? fun i => !(sqr s i).partly) = some n.val →
      ∃ t, exec (.patchApplySequencer n) s = .next t ∧ t = { s with seq := t.seq } ∧ (sqr t n).store = st ∧ (sqr t n).crc = storeCrc st ∧
        (sqr t n).patch = p.level ∧ (∀ m : Fin 5, m ≠ n → (sqr t m).store = (sqr s m).store) ∧
        (storeCrc st = p.crc → t.seq.master = s.seq.master ∧ t.seq.undoing = false) ∧
        (storeCrc st ≠ p.crc → t.seq.master = old ∧ t.seq.masterPatch = s.seq.prevPatch ∧ t.seq.undoing = true)) ∧
    (q.routine = none → q.mode = .quiet → s.pwr.banking = false → s.seq.patchCut = false → s.seq.undoing = true → q.partly = true →
      ∃ t, exec (.patchApplySequencer n) s = .next t ∧ t = { s with seq := t.seq } ∧ (sqr t n).store = old ∧ (sqr t n).patch = s.seq.prevPatch ∧
        (sqr t n).partly = false ∧ ∀ m : Fin 5, m ≠ n → (sqr t m).store = (sqr s m).store))

/-- Pairs are judged on two clocks; a class 3 fault stops the block and outlives every reset but power-on; HEARTBEAT toggles; the writer takes the queue's head (spec/17_faults_and_ash_log.md R487, spec/17_faults_and_ash_log.md R488, spec/17_faults_and_ash_log.md R491, spec/17_faults_and_ash_log.md R493, spec/17_faults_and_ash_log.md R494, spec/17_faults_and_ash_log.md R496, spec/17_faults_and_ash_log.md R499, spec/12_host_transport.md R346). -/
def Obligations.FaultsAndAshLog : Prop :=
  (∀ (s : State) (ps : List PairSample), blkEn s 16 = false → exec (.errorPairReport ps) s = .next s) ∧
  (∀ (s : State) (p : PairSample), blkEn s 16 = true →
    ∃ t, exec (.errorPairReport [p]) s = .next t ∧ (s.flt.pairs[p.input].masked = true → t = s) ∧
      (s.flt.pairs[p.input].masked = false →
        (judgePair p = none → t = { s with flt.pairs := t.flt.pairs } ∧
          t.flt.pairs[p.input] = ⟨p.t2, p.c2, s.flt.pairs[p.input].judged, decide (s.flt.pairs[p.input].judged = .broken)⟩) ∧
        (judgePair p = some .noError → t = { s with flt.pairs := t.flt.pairs } ∧ t.flt.pairs[p.input] = ⟨p.t2, p.c2, .noError, false⟩) ∧
        (judgePair p = some .error → t.flt.pairs[p.input].judged = .error ∧
          (s.flt.pairs[p.input].judged ≠ .error →
            ((∃ n, Config.pairElement p.input.val = .lockstep n) ∨ Config.pairElement p.input.val = .hearthstone) → t.flt.class3 = true)) ∧
        (judgePair p = some .broken → t.flt.pairs[p.input] = ⟨p.t2, p.c2, .broken, true⟩ ∧
          ((∃ n, Config.pairElement p.input.val = .lockstep n) ∨ Config.pairElement p.input.val = .hearthstone ∨
            Config.pairElement p.input.val = .firebrick → t.flt.class3 = true)))) ∧
  (∀ (s : State) (n : Fin 2),
    (s.flt.lsRun[n] = false → exec (.lockstepWatchdogLate n) s = .next s) ∧
    (s.flt.lsRun[n] = true → s.flt.class3 = false →
      ∃ t, exec (.lockstepWatchdogLate n) s = .next t ∧ t.flt.class3 = true ∧ t.flt.cause3 = 1 ∧ t.flt.lsRun[n] = false ∧ t.flt.hbLevel = false ∧
        t.flt.faultPair = true ∧ t.host.cfs = true ∧ t.host.fetching = false ∧ t.pwr.banking = true ∧ t.sec.swk = none ∧ t.sec.drbg = none ∧
        hbRuns t = false ∧ t.flt.declaredAt = some s.time)) ∧
  (∀ (s : State) (u : Nat), s.flt.declaredAt = some u →
    (s.flt.class3 = true → s.pwr.banking = true →
      ∃ t, exec .failStopBankLimit s = .next t ∧ t.time = max s.time (u + 500000) ∧ t.pwr.banking = false ∧ t.pwr.endedAt = t.time ∧
        t.flt.bankLimitDone = true ∧
        (s.flt.bankLimitDone = false → t.flt.retracted = true ∧ ∀ a : Fin 4, t.srv.loop[a].mode = .unloaded ∧ (wrAt t a).frame = none) ∧
        (s.flt.bankLimitDone = true → t = { s with time := t.time, pwr := t.pwr })) ∧
    (s.pwr.banking = false ∨ s.flt.class3 = false → exec .failStopBankLimit s = .next s)) ∧
  (∀ (s : State) (i : Instr) (b : Boot) (isl : Fin 10), s.flt.class3 = true → s.host.cfs = true → s.host.en = true → s.host.link.up = true →
    s.pwr.powered = true → i ∈ [.ccEnClear, .functionLevelReset, .hotResetLinkDown, .perstAssert, .marginLost isl b] →
    ∃ t, exec i s = .next t ∧ t.flt.class3 = true ∧ t.host.cfs = true ∧ t.host.rdy = false ∧ hbRuns t = false) ∧
  (∀ (s : State),
    (hbRuns s = false → exec .heartbeatToggle s = .next s) ∧
    (hbRuns s = true → ∃ t, exec .heartbeatToggle s = .next t ∧ t.time = max s.time (s.flt.lastToggle + 500) ∧ t.flt.hbLevel = !s.flt.hbLevel ∧
      t.flt.lastToggle = t.time ∧ t = { s with time := t.time, flt.hbLevel := t.flt.hbLevel, flt.lastToggle := t.flt.lastToggle })) ∧
  (∀ (s : State), s.ash.queue = [] ∨ blkEn s 17 = false → exec .ashRecordWrite s = .next s) ∧
  (∀ (s : State) (r : AshRec) (rest : List AshRec), s.ash.queue = r :: rest → blkEn s 17 = true →
    ∃ t, exec .ashRecordWrite s = .next t ∧ t = { s with ash := t.ash } ∧ t.ash.queue = rest ∧ t.ash.nextSeq = s.ash.nextSeq + 1 ∧
      t.ash.dropSince = 0 ∧ t.ash.health = s.ash.health ∧
      t.ash.ring = ({ r with seq := s.ash.nextSeq, dropped := s.ash.dropSince } :: s.ash.ring).take 4096)

/-- Warnings and VMOT loss bank the dirty data; trials and Table 18.2 end the sequence; resets keep what they must; tamper wipes; fuses blow after an hour (spec/18_power_and_startup.md R515, spec/18_power_and_startup.md R516, spec/18_power_and_startup.md R517, spec/18_power_and_startup.md R511, spec/18_power_and_startup.md R521, spec/18_power_and_startup.md R526, spec/08_spindle.md R210, spec/16_security.md R480, spec/16_security.md R481, spec/16_security.md R464, spec/21_electrical.md R569, spec/17_faults_and_ash_log.md R495). -/
def Obligations.PowerAndBanking : Prop :=
  (∀ (s : State) (k : Fin 10), s.pwr.powered = true →
    ∃ t, exec (.marginWarn k) s = .next t ∧ t.pwr.warn = true ∧ t.pwr.warnIsl = BitVec.ofNat 4 k ∧
      (s.flt.class3 = false → s.pwr.banking = false → t.pwr.banking = true ∧ t.pwr.cause = some .marginWarn ∧ t.pwr.wrHeld = true ∧
        t.pwr.buckMotor = true ∧ t.pwr.startAt = s.time ∧ t.str.copy = none ∧ t.pwr.dest = bankDest s ∧
        (bankDest s = .mram → dirtyCount t = 0))) ∧
  (∀ (s : State), s.pwr.warn = true →
    exec .marginWarnClear s = .next { s with time := s.time + 1, pwr.warn := false, sec.opSince := s.time + 1 }) ∧
  (∀ (s : State) (k : Fin 10) (b : Boot), s.pwr.powered = true →
    ∃ t, exec (.marginLost k b) s = .next t ∧ t.host.ctxs = [] ∧ t.host.rdy = false ∧ t.pwr.resetType = 1 ∧
      ∀ a : Fin 4, t.srv.loop[a].mode = .unloaded) ∧
  (∀ (s : State), s.pwr.powered = true →
    ∃ t, exec .vmotLoss s = .next t ∧ t.pwr.vmotOk = false ∧
      (s.flt.class3 = false → s.pwr.banking = false → t.pwr.banking = true ∧ t.pwr.cause = some .vmotLoss ∧ t.pwr.wrHeld = true) ∧
      (s.spn.mode = .closedLoop → spnTurning s.spn.state = true → t.spn.mode = .regenerating)) ∧
  (∀ (s : State), s.pwr.powered = true → s.pwr.vmotOk = false →
    ∃ t, exec .vmotReturn s = .next t ∧ t.pwr.vmotOk = true ∧ t.pwr.vmotLostNow = false ∧ t = { s with pwr := t.pwr, spn.mode := t.spn.mode }) ∧
  (∀ (s : State), trialsRun s = true → s.pwr.trialAt = none → s.pwr.trialPassed = false →
    ∃ t, exec .vinTrial s = .next t ∧ t.time = max s.time s.pwr.trialNext ∧
      t = { s with time := t.time, pwr.buckMotor := false, pwr.trialAt := some t.time }) ∧
  (∀ (s : State) (u : Nat), s.pwr.trialAt = some u →
    (s.pwr.warn = true → exec .vinTrialPass s = .next s) ∧
    (s.pwr.warn = false → exec .vinTrialPass s = .next { s with
      time := max s.time (u + 10000), pwr.trialAt := none, pwr.trialPassed := true, pwr.passedOnce := true })) ∧
  (∀ (s : State), s.pwr.banking = true → s.pwr.cause ≠ some .failStop → s.pwr.passedOnce = false → s.pwr.notBack = false →
    ∃ t, exec .vinNotBack s = .next t ∧ t.time = max s.time (s.pwr.startAt + 500000) ∧ t.pwr.notBack = true ∧ t.stg = s.stg ∧
      (∀ j ∈ t.wrt.queue, j.leaf.kind ≠ .ember) ∧ ∀ a : Fin 4, ∀ j ∈ (wrAt t a).buffer, j.1.leaf.kind ≠ .ember) ∧
  (∀ (s : State) (lost : Bool),
    (s.pwr.banking = false → exec (.bankingSequenceEnd lost) s = .next s) ∧
    (s.pwr.banking = true → s.pwr.ending = true → allUnloaded s = true → s.spn.state = .banked →
      ∃ t, exec (.bankingSequenceEnd lost) s = .next t ∧ t.pwr.banking = false ∧ t.pwr.powered = false ∧ t.pwr.bucksOffAt = some s.time) ∧
    (s.pwr.banking = true → s.pwr.ending = false → s.pwr.cause = some .failStop →
      (dirtyCount s ≠ 0 → exec (.bankingSequenceEnd lost) s = .next s) ∧
      (dirtyCount s = 0 → ∃ t, exec (.bankingSequenceEnd lost) s = .next t ∧ t.pwr.banking = false ∧ t.flt.bankLimitDone = true)) ∧
    (s.pwr.banking = true → s.pwr.ending = false → s.pwr.cause ≠ some .failStop →
      (s.pwr.trialPassed = false → s.pwr.notBack = false → s.pwr.vmotOk = false → lost = true →
        (s.pwr.dest = .mram → dirtyCount s = 0 →
          ∃ t, exec (.bankingSequenceEnd lost) s = .next t ∧ t.pwr.banking = false ∧ t.pwr.vmotLostNow = true ∧ t.pwr.powered = s.pwr.powered) ∧
        (s.pwr.dest = .rings → s.spn.speed < 3600 → dirtyCount s ≠ 0 ∨ anyLoaded s = true →
          ∃ t, exec (.bankingSequenceEnd lost) s = .next t ∧ t.pwr.banking = false ∧ t.pwr.powered = false ∧
            ∀ a : Fin 4, t.srv.loop[a].mode = .unloaded)) ∧
      (s.pwr.trialPassed = false → s.pwr.notBack = false → lost = false → exec (.bankingSequenceEnd lost) s = .next s) ∧
      (s.pwr.trialPassed = true → s.pwr.vmotOk = true → ∃ t, exec (.bankingSequenceEnd lost) s = .next t ∧ t.pwr.banking = false ∧
        t.pwr.wrHeld = false ∧ t.pwr.buckMotor = false ∧ t.pwr.outcome = 1 ∧ t.pwr.dips = satInc s.pwr.dips ∧ t.pwr.powered = s.pwr.powered) ∧
      (s.pwr.trialPassed = true → s.pwr.vmotOk = false → dirtyCount s = 0 → ∃ t, exec (.bankingSequenceEnd lost) s = .next t ∧
        t.pwr.banking = false ∧ t.pwr.wrHeld = false ∧ t.pwr.outcome = 2 ∧ t.pwr.vmotLostNow = true) ∧
      (s.pwr.trialPassed = false → s.pwr.notBack = true → dirtyCount s = 0 → allUnloaded s = true → s.spn.state = .banked →
        ∃ t, exec (.bankingSequenceEnd lost) s = .next t ∧ t.pwr.banking = false ∧ t.pwr.powered = false ∧ t.pwr.bucksOffAt = some s.time))) ∧
  (∀ (s : State) (b : Boot),
    ∃ t, exec (.powerOnReset b) s = .next t ∧ t.pwr.cycles = s.pwr.cycles + 1 ∧ t.host.ctxs = [] ∧ t.host.accept = s.host.ceiling ∧
      t.media.frames = s.media.frames ∧ (∀ c, priorCause s.ash.ring = some c → t.flt.prior = c) ∧ (b.selfTest = false → t.flt.class3 = true)) ∧
  (∀ (s : State) (b : Boot) (u : Nat), s.pwr.bucksOffAt = some u → s.pwr.powered = false →
    ∃ t, exec (.buckRestart b) s = .next t ∧ exec (.powerOnReset b) (s.at (u + 100000)) = .next t) ∧
  (∀ (s : State) (gone : List (Nat × Nat)), s.pwr.restore = true → s.flt.class3 = false → s.pwr.restored = true →
    ((s.stg.leaves.any emberKept) = true → exec (.emberRestore gone) s = .next s) ∧
    ((s.stg.leaves.any emberKept) = false → ∃ t, exec (.emberRestore gone) s = .next t ∧ t.pwr.restore = false ∧ t.stg = s.stg ∧
      t.obj = s.obj)) ∧
  (∀ (s : State) (gone : List (Nat × Nat)), s.pwr.restore = true → s.flt.class3 = false → s.pwr.restored = false → reqBy s restoreTask = none →
    (∀ l ∈ s.ember.copies, l.emberCopies = []) →
    ∃ t, exec (.emberRestore gone) s = .next t ∧ t.pwr.restored = true ∧ t.ember.copies = []) ∧
  (∀ (s : State) (h l : Int), s.pwr.powered = true → s.ash.recent = [] → s.ash.queue = [] →
    let ok := decide (-40 ≤ h ∧ h ≤ 110 ∧ -40 ≤ l ∧ l ≤ 125)
    ∃ t, exec (.junctionSense h l) s = .next t ∧ t.time = max s.time (s.pwr.junctionAt + 10000) ∧ t.pwr.junctions = [h, l] ∧
      t.pwr.junctionLo = ok ∧ (ok = s.pwr.junctionLo → t.ash = s.ash) ∧
      (ok ≠ s.pwr.junctionLo → ∃ r, t.ash.queue = [r] ∧ r.trigger = 5 ∧ r.detail = [1])) ∧
  (∀ (s : State),
    exec (.tamperEdge true) s = .next { s with sec.tamperEdge := true } ∧
    (s.pwr.powered = false → exec (.tamperEdge false) s = .next s) ∧
    (s.pwr.powered = true → ∃ t, exec (.tamperEdge false) s = .next t ∧ t.sec.swk = none ∧ t.sec.drbg = none ∧ t.sec.identity = [] ∧
      (∀ r ∈ t.sec.ranges, r.slot = none) ∧ t.sec.latched = true ∧ t.sec.cause = 1 ∧ t.sec.count = satInc s.sec.count ∧
      t.sec.refusing = true ∧ t.sec.op = none ∧ t = { s with sec := t.sec, ash := t.ash, reg := t.reg })) ∧
  (∀ (s : State), s.sec.opRetry = true → s.pwr.warn = false → s.pwr.banking = false →
    exec .hearthstoneOpRetry s = .next { s with time := max s.time (s.sec.opSince + 10000), sec.opRetry := false }) ∧
  (∀ (s : State) (i : FwImage), s.fw.running = some i → s.sec.svnFuses < i.svn →
    (s.fw.runningSince + 16 ≤ s.hours → s.flt.class3 = false → exec .svnFuseBlow s = .next { s with sec.svnFuses := i.svn }) ∧
    (s.hours < s.fw.runningSince + 16 ∨ s.flt.class3 = true → exec .svnFuseBlow s = .next s))

/-- An entropy failure stops the DRBG and runs the start-up test again; a second failure within 1 h is class 3 (spec/16_security.md R483). -/
def Obligations.EntropyFailures : Prop :=
  ∀ (s : State) (pass : Bool),
    let second := ∃ u ∈ s.sec.entropyFails, s.time < u + 3600000000
    ∃ t, exec (.entropyTestFail pass) s = .next t ∧ s.time ∈ t.sec.entropyFails ∧
      (¬ second → pass = true → t = { s with sec := t.sec, freeCtr := t.freeCtr } ∧
        (s.sec.drbg = none → t.sec.drbg = none ∧ t.sec.drbgStopped = true) ∧
        (s.sec.drbg ≠ none → t.sec.drbgStopped = false ∧ t.freeCtr = s.freeCtr + 1 ∧
          t.sec.drbg = some (drbgInit (padTo 48 ((Config.entropy s.freeCtr).take 48))))) ∧
      (second ∨ pass = false → t.sec.drbgStopped = true ∧ t.flt.class3 = true ∧ (s.flt.class3 = false → t.flt.cause3 = 4))
end

