-- ==== Sys2Proof/Laws/Context.lean ====
section
/-! SUPPORT. Contexts: what reading one gives after it is changed, and what a command does when its turn has come. -/
namespace Sys2Proof.Machine
open Sys2Proof

theorem find_map_key {α : Type} (l : List (Nat × α)) (c d : Nat) (f : α → α) :
    ((l.map fun x => if x.1 = c then (x.1, f x.2) else x).find? fun x => x.1 = d).map (·.2) =
      if d = c then ((l.find? fun x => x.1 = d).map (·.2)).map f else (l.find? fun x => x.1 = d).map (·.2) := by
  induction l with
  | nil => simp
  | cons x l ih =>
    by_cases h : x.1 = c
    · by_cases g : x.1 = d
      · simp [h, ← g]
      · have : c ≠ d := fun e => g (h.trans e)
        simp [h, this] at ih ⊢
        simpa using ih
    · by_cases g : x.1 = d
      · have : d ≠ c := fun e => h (g.trans e)
        simp [g, this]
      · simp [h, g] at ih ⊢
        simpa using ih

/-- A context read after one is changed. -/
theorem ctxBy_onCtx (s : State) (c d : Nat) (f : Ctx → Ctx) :
    ctxBy (onCtx s c f) d = if d = c then (ctxBy s c).map f else ctxBy s d := by
  simp only [ctxBy, onCtx]
  rw [find_map_key]
  split
  · next h => subst h; rfl
  · rfl

/-- A submission queue read after one is changed. -/
theorem sqBy_onSubq (s : State) (q r : Nat) (f : SubQueue → SubQueue) :
    sqBy (onSubq s q f) r = if r = q then (sqBy s q).map f else sqBy s r := by
  simp only [sqBy, onSubq]
  rw [find_map_key]
  split
  · next h => subst h; rfl
  · rfl

/-- A completion queue read after one is changed. -/
theorem cqBy_onCompq (s : State) (q r : Nat) (f : CompQueue → CompQueue) :
    cqBy (onCompq s q f) r = if r = q then (cqBy s q).map f else cqBy s r := by
  simp only [cqBy, onCompq]
  rw [find_map_key]
  split
  · next h => subst h; rfl
  · rfl

/-- A ready command runs. -/
theorem onTurn_ready {s : State} {c : Nat} {is : Ctx → Bool} {x : Ctx} (h : Ready s c is x) (f : Ctx → State) :
    onTurn s c is f = f x := by
  obtain ⟨h1, h2, h3, h4⟩ := h
  simp [onTurn, h1, h2, h3, h4]

/-- A ready Security Send of a service runs it. -/
theorem onSend_ready {s : State} {c : Nat} {is : SqEntry → Bool} {x : Ctx} (h : Sends s c is x) (f : Ctx → State) :
    onSend s c is f = f x := by
  rw [onSend, onTurn_ready h.1]
  simp [h.2]

/-- A ready Security Receive of a service runs it. -/
theorem onRecv_ready {s : State} {c : Nat} {is : SqEntry → Bool} {x : Ctx} (h : Receives s c is x) (f : Ctx → State) :
    onRecv s c is f = f x := by
  rw [onRecv, onTurn_ready h.1]
  simp [h.2]

/-- A command that ends leaves its completion in its context. -/
theorem ended_finish {s : State} {c : Nat} {x : Ctx} (h : ctxBy s c = some x) (sct sc dw0 : Nat) (data : List Byte) :
    ended (finish s c sct sc dw0 data) c = some (endOf x sct sc dw0 data) := by
  simp [ended, finish, ctxBy_onCtx, h, endOf]

/-- A command that ends changes only its context. -/
theorem onlyCtx_finish (s : State) (c sct sc dw0 : Nat) (data : List Byte) : OnlyCtx s (finish s c sct sc dw0 data) c := by
  refine ⟨rfl, fun d h => ?_⟩
  simp [finish, ctxBy_onCtx, h]

end Sys2Proof.Machine
end

