-- ==== Sys2Proof/Laws/Memory.lean ====
section
/-! SUPPORT. Memory: reads after writes, and every operation keeps the canonical form. -/
namespace Sys2Proof.Machine
open Sys2Proof

/-- A canonical form above a bound is one above a lower bound. -/
theorem memWfFrom_mono {lo hi : Nat} (h : lo ≤ hi) : ∀ {m : Mem}, memWfFrom hi m = true → memWfFrom lo m = true
  | [], _ => rfl
  | (a, b) :: m, w => by
    simp only [memWfFrom, Bool.and_eq_true, decide_eq_true_eq] at w ⊢
    exact ⟨⟨le_trans h w.1.1, w.1.2⟩, w.2⟩

/-- Storing a byte keeps the canonical form. -/
theorem memSet_wfFrom (v : Byte) : ∀ (m : Mem) (lo x : Nat), lo ≤ x → memWfFrom lo m = true → memWfFrom lo (memSet m x v) = true
  | [], lo, x, hx, _ => by
    by_cases hv : v = 0#8 <;> simp [memSet, memWfFrom, hv, hx]
  | (a, b) :: m, lo, x, hx, w => by
    have w' := w
    simp only [memWfFrom, Bool.and_eq_true, decide_eq_true_eq] at w
    obtain ⟨⟨ha, hb⟩, hm⟩ := w
    have hb : ¬ b = 0#8 := hb
    simp only [memSet]
    split
    · next h =>
      split
      · exact w'
      · next hv =>
        have hv : ¬ v = 0#8 := hv
        simp [memWfFrom, hx, hv, hb, hm, Nat.succ_le_of_lt h]
    · split
      · next h1 h =>
        subst h
        split
        · exact memWfFrom_mono (by omega) hm
        · next hv =>
          have hv : ¬ v = 0#8 := hv
          simp [memWfFrom, hx, hv, hm]
      · next h1 h2 =>
        simp [memWfFrom, ha, hb, memSet_wfFrom v m (a + 1) x (by omega) hm]

/-- Storing a byte keeps a memory's canonical form. -/
theorem memSet_wf {m : Mem} (w : Memory.wf m = true) (x : Nat) (v : Byte) : Memory.wf (memSet m x v) = true :=
  memSet_wfFrom v m 0 x (Nat.zero_le _) w

/-- Storing bytes keeps a memory's canonical form. -/
theorem memWrite_wf : ∀ {m : Mem} (bs : List Byte) (a : Nat), Memory.wf m = true → Memory.wf (memWrite m a bs) = true
  | _, [], _, w => w
  | _, b :: bs, a, w => memWrite_wf bs (a + 1) (memSet_wf w a b)

/-- An address below every cell reads as zero. -/
theorem memGet_below : ∀ {m : Mem} {lo : Nat}, memWfFrom lo m = true → ∀ {x : Nat}, x < lo → memGet m x = 0
  | [], _, _, _, _ => rfl
  | (a, b) :: m, lo, w, x, h => by
    simp only [memWfFrom, Bool.and_eq_true, decide_eq_true_eq] at w
    rw [memGet, if_neg (by omega)]
    exact memGet_below w.2 (by omega)

/-- A read after a byte is stored, in a canonical memory. -/
theorem memGet_memSet (v : Byte) : ∀ (m : Mem) (lo x y : Nat), memWfFrom lo m = true →
    memGet (memSet m x v) y = if y = x then v else memGet m y
  | [], _, x, y, _ => by
    by_cases hv : v = 0#8 <;> by_cases h : y = x <;> simp [memSet, memGet, hv, h]
  | (a, b) :: m, lo, x, y, w => by
    simp only [memWfFrom, Bool.and_eq_true, decide_eq_true_eq] at w
    have below : ∀ z, z < a + 1 → memGet m z = 0 := fun z hz => memGet_below w.2 hz
    simp only [memSet]
    split
    · next h =>
      by_cases hv : v = 0#8
      · by_cases hy : y = x
        · subst hy; simp [hv, memGet, Nat.ne_of_lt h, below y (by omega)]
        · simp [hv, hy]
      · by_cases hy : y = x <;> simp [hv, hy, memGet]
    · split
      · next h1 h =>
        subst h
        by_cases hv : v = 0#8
        · by_cases hy : y = x
          · subst hy; simp [hv, below y (by omega)]
          · simp [hv, hy, memGet]
        · by_cases hy : y = x <;> simp [hv, hy, memGet]
      · next h1 h2 =>
        by_cases hy : y = a
        · subst hy; simp [memGet, Ne.symm h2]
        · simp [memGet, hy, memGet_memSet v m (a + 1) x y w.2]

/-- A byte stored reads back. -/
theorem memGet_memSet_same {m : Mem} (w : Memory.wf m = true) (x : Nat) (v : Byte) : memGet (memSet m x v) x = v := by
  rw [memGet_memSet v m 0 x x w, if_pos rfl]

/-- Every other byte is as before. -/
theorem memGet_memSet_other {m : Mem} (w : Memory.wf m = true) {x y : Nat} (v : Byte) (h : y ≠ x) :
    memGet (memSet m x v) y = memGet m y := by
  rw [memGet_memSet v m 0 x y w, if_neg h]

/-- A byte outside a stored string is as before. -/
theorem memGet_memWrite_other : ∀ {m : Mem} (bs : List Byte) (a y : Nat), Memory.wf m = true → (y < a ∨ a + bs.length ≤ y) →
    memGet (memWrite m a bs) y = memGet m y
  | _, [], _, _, _, _ => rfl
  | _, b :: bs, a, y, w, h => by
    simp only [List.length_cons] at h
    rw [memWrite, memGet_memWrite_other bs (a + 1) y (memSet_wf w a b) (by omega), memGet_memSet_other w b (by omega)]

/-- A stored string reads back. -/
theorem memRead_memWrite : ∀ {m : Mem} (bs : List Byte) (a : Nat), Memory.wf m = true →
    memRead (memWrite m a bs) a bs.length = bs
  | _, [], _, _ => rfl
  | m, b :: bs, a, w => by
    simp only [memWrite, List.length_cons, memRead]
    rw [memGet_memWrite_other bs (a + 1) a (memSet_wf w a b) (by omega), memGet_memSet_same w,
      memRead_memWrite bs (a + 1) (memSet_wf w a b)]

/-- Every memory of the reset state is in its canonical form. -/
theorem reset_memories : MemoriesWf State.reset := ⟨rfl, rfl, rfl, rfl⟩

end Sys2Proof.Machine
end

