-- ==== Sys2Proof/Laws/State.lean ====
section
/-! SUPPORT. What each named update leaves: one lemma per field, so that no proof unfolds a record update. -/
namespace Sys2Proof.Machine
open Sys2Proof

variable (s : State)

section
variable (t : Nat)
@[simp] theorem State.at_pending : (State.at s t).pending = s.pending := rfl
@[simp] theorem State.at_freeCtr : (State.at s t).freeCtr = s.freeCtr := rfl
@[simp] theorem State.at_reg : (State.at s t).reg = s.reg := rfl
@[simp] theorem State.at_flt : (State.at s t).flt = s.flt := rfl
@[simp] theorem State.at_ash : (State.at s t).ash = s.ash := rfl
@[simp] theorem State.at_pwr : (State.at s t).pwr = s.pwr := rfl
@[simp] theorem State.at_cal : (State.at s t).cal = s.cal := rfl
@[simp] theorem State.at_spn : (State.at s t).spn = s.spn := rfl
@[simp] theorem State.at_srv : (State.at s t).srv = s.srv := rfl
@[simp] theorem State.at_seq : (State.at s t).seq = s.seq := rfl
@[simp] theorem State.at_chan : (State.at s t).chan = s.chan := rfl
@[simp] theorem State.at_grt : (State.at s t).grt = s.grt := rfl
@[simp] theorem State.at_reqs : (State.at s t).reqs = s.reqs := rfl
@[simp] theorem State.at_wrt : (State.at s t).wrt = s.wrt := rfl
@[simp] theorem State.at_str : (State.at s t).str = s.str := rfl
@[simp] theorem State.at_media : (State.at s t).media = s.media := rfl
@[simp] theorem State.at_stg : (State.at s t).stg = s.stg := rfl
@[simp] theorem State.at_hob : (State.at s t).hob = s.hob := rfl
@[simp] theorem State.at_cch : (State.at s t).cch = s.cch := rfl
@[simp] theorem State.at_flu : (State.at s t).flu = s.flu := rfl
@[simp] theorem State.at_drm : (State.at s t).drm = s.drm := rfl
@[simp] theorem State.at_obj : (State.at s t).obj = s.obj := rfl
@[simp] theorem State.at_zns : (State.at s t).zns = s.zns := rfl
@[simp] theorem State.at_ember : (State.at s t).ember = s.ember := rfl
@[simp] theorem State.at_mop : (State.at s t).mop = s.mop := rfl
@[simp] theorem State.at_sec : (State.at s t).sec = s.sec := rfl
@[simp] theorem State.at_fw : (State.at s t).fw = s.fw := rfl
@[simp] theorem State.at_cyz : (State.at s t).cyz = s.cyz := rfl
@[simp] theorem State.at_host : (State.at s t).host = s.host := rfl
@[simp] theorem State.at_prof : (State.at s t).prof = s.prof := rfl
end

section
variable (e : HealthEvent)
@[simp] theorem noteHealth_pending : (noteHealth s e).pending = s.pending := rfl
@[simp] theorem noteHealth_time : (noteHealth s e).time = s.time := rfl
@[simp] theorem noteHealth_freeCtr : (noteHealth s e).freeCtr = s.freeCtr := rfl
@[simp] theorem noteHealth_reg : (noteHealth s e).reg = s.reg := rfl
@[simp] theorem noteHealth_flt : (noteHealth s e).flt = s.flt := rfl
@[simp] theorem noteHealth_pwr : (noteHealth s e).pwr = s.pwr := rfl
@[simp] theorem noteHealth_cal : (noteHealth s e).cal = s.cal := rfl
@[simp] theorem noteHealth_spn : (noteHealth s e).spn = s.spn := rfl
@[simp] theorem noteHealth_srv : (noteHealth s e).srv = s.srv := rfl
@[simp] theorem noteHealth_seq : (noteHealth s e).seq = s.seq := rfl
@[simp] theorem noteHealth_chan : (noteHealth s e).chan = s.chan := rfl
@[simp] theorem noteHealth_grt : (noteHealth s e).grt = s.grt := rfl
@[simp] theorem noteHealth_reqs : (noteHealth s e).reqs = s.reqs := rfl
@[simp] theorem noteHealth_wrt : (noteHealth s e).wrt = s.wrt := rfl
@[simp] theorem noteHealth_str : (noteHealth s e).str = s.str := rfl
@[simp] theorem noteHealth_media : (noteHealth s e).media = s.media := rfl
@[simp] theorem noteHealth_stg : (noteHealth s e).stg = s.stg := rfl
@[simp] theorem noteHealth_hob : (noteHealth s e).hob = s.hob := rfl
@[simp] theorem noteHealth_cch : (noteHealth s e).cch = s.cch := rfl
@[simp] theorem noteHealth_flu : (noteHealth s e).flu = s.flu := rfl
@[simp] theorem noteHealth_drm : (noteHealth s e).drm = s.drm := rfl
@[simp] theorem noteHealth_obj : (noteHealth s e).obj = s.obj := rfl
@[simp] theorem noteHealth_zns : (noteHealth s e).zns = s.zns := rfl
@[simp] theorem noteHealth_ember : (noteHealth s e).ember = s.ember := rfl
@[simp] theorem noteHealth_mop : (noteHealth s e).mop = s.mop := rfl
@[simp] theorem noteHealth_sec : (noteHealth s e).sec = s.sec := rfl
@[simp] theorem noteHealth_fw : (noteHealth s e).fw = s.fw := rfl
@[simp] theorem noteHealth_cyz : (noteHealth s e).cyz = s.cyz := rfl
@[simp] theorem noteHealth_host : (noteHealth s e).host = s.host := rfl
@[simp] theorem noteHealth_prof : (noteHealth s e).prof = s.prof := rfl
@[simp] theorem noteHealth_ash_ring : (noteHealth s e).ash.ring = s.ash.ring := rfl
@[simp] theorem noteHealth_ash_nextSeq : (noteHealth s e).ash.nextSeq = s.ash.nextSeq := rfl
@[simp] theorem noteHealth_ash_queue : (noteHealth s e).ash.queue = s.ash.queue := rfl
@[simp] theorem noteHealth_ash_dropped : (noteHealth s e).ash.dropped = s.ash.dropped := rfl
@[simp] theorem noteHealth_ash_suppressed : (noteHealth s e).ash.suppressed = s.ash.suppressed := rfl
@[simp] theorem noteHealth_ash_dropSince : (noteHealth s e).ash.dropSince = s.ash.dropSince := rfl
@[simp] theorem noteHealth_ash_supBy : (noteHealth s e).ash.supBy = s.ash.supBy := rfl
@[simp] theorem noteHealth_ash_recent : (noteHealth s e).ash.recent = s.ash.recent := rfl
end

section
@[simp] theorem ashDrop_pending : (ashDrop s).pending = s.pending := rfl
@[simp] theorem ashDrop_time : (ashDrop s).time = s.time := rfl
@[simp] theorem ashDrop_freeCtr : (ashDrop s).freeCtr = s.freeCtr := rfl
@[simp] theorem ashDrop_reg : (ashDrop s).reg = s.reg := rfl
@[simp] theorem ashDrop_flt : (ashDrop s).flt = s.flt := rfl
@[simp] theorem ashDrop_pwr : (ashDrop s).pwr = s.pwr := rfl
@[simp] theorem ashDrop_cal : (ashDrop s).cal = s.cal := rfl
@[simp] theorem ashDrop_spn : (ashDrop s).spn = s.spn := rfl
@[simp] theorem ashDrop_srv : (ashDrop s).srv = s.srv := rfl
@[simp] theorem ashDrop_seq : (ashDrop s).seq = s.seq := rfl
@[simp] theorem ashDrop_chan : (ashDrop s).chan = s.chan := rfl
@[simp] theorem ashDrop_grt : (ashDrop s).grt = s.grt := rfl
@[simp] theorem ashDrop_reqs : (ashDrop s).reqs = s.reqs := rfl
@[simp] theorem ashDrop_wrt : (ashDrop s).wrt = s.wrt := rfl
@[simp] theorem ashDrop_str : (ashDrop s).str = s.str := rfl
@[simp] theorem ashDrop_media : (ashDrop s).media = s.media := rfl
@[simp] theorem ashDrop_stg : (ashDrop s).stg = s.stg := rfl
@[simp] theorem ashDrop_hob : (ashDrop s).hob = s.hob := rfl
@[simp] theorem ashDrop_cch : (ashDrop s).cch = s.cch := rfl
@[simp] theorem ashDrop_flu : (ashDrop s).flu = s.flu := rfl
@[simp] theorem ashDrop_drm : (ashDrop s).drm = s.drm := rfl
@[simp] theorem ashDrop_obj : (ashDrop s).obj = s.obj := rfl
@[simp] theorem ashDrop_zns : (ashDrop s).zns = s.zns := rfl
@[simp] theorem ashDrop_ember : (ashDrop s).ember = s.ember := rfl
@[simp] theorem ashDrop_mop : (ashDrop s).mop = s.mop := rfl
@[simp] theorem ashDrop_sec : (ashDrop s).sec = s.sec := rfl
@[simp] theorem ashDrop_fw : (ashDrop s).fw = s.fw := rfl
@[simp] theorem ashDrop_cyz : (ashDrop s).cyz = s.cyz := rfl
@[simp] theorem ashDrop_host : (ashDrop s).host = s.host := rfl
@[simp] theorem ashDrop_prof : (ashDrop s).prof = s.prof := rfl
@[simp] theorem ashDrop_ash_ring : (ashDrop s).ash.ring = s.ash.ring := rfl
@[simp] theorem ashDrop_ash_nextSeq : (ashDrop s).ash.nextSeq = s.ash.nextSeq := rfl
@[simp] theorem ashDrop_ash_queue : (ashDrop s).ash.queue = s.ash.queue := rfl
@[simp] theorem ashDrop_ash_suppressed : (ashDrop s).ash.suppressed = s.ash.suppressed := rfl
@[simp] theorem ashDrop_ash_supBy : (ashDrop s).ash.supBy = s.ash.supBy := rfl
@[simp] theorem ashDrop_ash_recent : (ashDrop s).ash.recent = s.ash.recent := rfl
@[simp] theorem ashDrop_ash_health : (ashDrop s).ash.health = s.ash.health := rfl
end

section
@[simp] theorem fault0_pending : (fault0 s).pending = s.pending := rfl
@[simp] theorem fault0_time : (fault0 s).time = s.time := rfl
@[simp] theorem fault0_freeCtr : (fault0 s).freeCtr = s.freeCtr := rfl
@[simp] theorem fault0_reg : (fault0 s).reg = s.reg := rfl
@[simp] theorem fault0_ash : (fault0 s).ash = s.ash := rfl
@[simp] theorem fault0_pwr : (fault0 s).pwr = s.pwr := rfl
@[simp] theorem fault0_cal : (fault0 s).cal = s.cal := rfl
@[simp] theorem fault0_spn : (fault0 s).spn = s.spn := rfl
@[simp] theorem fault0_srv : (fault0 s).srv = s.srv := rfl
@[simp] theorem fault0_seq : (fault0 s).seq = s.seq := rfl
@[simp] theorem fault0_chan : (fault0 s).chan = s.chan := rfl
@[simp] theorem fault0_grt : (fault0 s).grt = s.grt := rfl
@[simp] theorem fault0_reqs : (fault0 s).reqs = s.reqs := rfl
@[simp] theorem fault0_wrt : (fault0 s).wrt = s.wrt := rfl
@[simp] theorem fault0_str : (fault0 s).str = s.str := rfl
@[simp] theorem fault0_media : (fault0 s).media = s.media := rfl
@[simp] theorem fault0_stg : (fault0 s).stg = s.stg := rfl
@[simp] theorem fault0_hob : (fault0 s).hob = s.hob := rfl
@[simp] theorem fault0_cch : (fault0 s).cch = s.cch := rfl
@[simp] theorem fault0_flu : (fault0 s).flu = s.flu := rfl
@[simp] theorem fault0_drm : (fault0 s).drm = s.drm := rfl
@[simp] theorem fault0_obj : (fault0 s).obj = s.obj := rfl
@[simp] theorem fault0_zns : (fault0 s).zns = s.zns := rfl
@[simp] theorem fault0_ember : (fault0 s).ember = s.ember := rfl
@[simp] theorem fault0_mop : (fault0 s).mop = s.mop := rfl
@[simp] theorem fault0_sec : (fault0 s).sec = s.sec := rfl
@[simp] theorem fault0_fw : (fault0 s).fw = s.fw := rfl
@[simp] theorem fault0_cyz : (fault0 s).cyz = s.cyz := rfl
@[simp] theorem fault0_host : (fault0 s).host = s.host := rfl
@[simp] theorem fault0_prof : (fault0 s).prof = s.prof := rfl
@[simp] theorem fault0_flt_class3 : (fault0 s).flt.class3 = s.flt.class3 := rfl
@[simp] theorem fault0_flt_cause3 : (fault0 s).flt.cause3 = s.flt.cause3 := rfl
@[simp] theorem fault0_flt_worst : (fault0 s).flt.worst = s.flt.worst := rfl
@[simp] theorem fault0_flt_faultPair : (fault0 s).flt.faultPair = s.flt.faultPair := rfl
@[simp] theorem fault0_flt_hbLevel : (fault0 s).flt.hbLevel = s.flt.hbLevel := rfl
@[simp] theorem fault0_flt_lastToggle : (fault0 s).flt.lastToggle = s.flt.lastToggle := rfl
@[simp] theorem fault0_flt_fwRunning : (fault0 s).flt.fwRunning = s.flt.fwRunning := rfl
@[simp] theorem fault0_flt_pairs : (fault0 s).flt.pairs = s.flt.pairs := rfl
@[simp] theorem fault0_flt_cnt1 : (fault0 s).flt.cnt1 = s.flt.cnt1 := rfl
@[simp] theorem fault0_flt_cnt2 : (fault0 s).flt.cnt2 = s.flt.cnt2 := rfl
@[simp] theorem fault0_flt_injEnd : (fault0 s).flt.injEnd = s.flt.injEnd := rfl
@[simp] theorem fault0_flt_lsRun : (fault0 s).flt.lsRun = s.flt.lsRun := rfl
@[simp] theorem fault0_flt_appRun : (fault0 s).flt.appRun = s.flt.appRun := rfl
@[simp] theorem fault0_flt_held : (fault0 s).flt.held = s.flt.held := rfl
@[simp] theorem fault0_flt_declaredAt : (fault0 s).flt.declaredAt = s.flt.declaredAt := rfl
@[simp] theorem fault0_flt_bankLimitDone : (fault0 s).flt.bankLimitDone = s.flt.bankLimitDone := rfl
@[simp] theorem fault0_flt_retracted : (fault0 s).flt.retracted = s.flt.retracted := rfl
@[simp] theorem fault0_flt_prior : (fault0 s).flt.prior = s.flt.prior := rfl
@[simp] theorem fault0_flt_extraCrcCheck : (fault0 s).flt.extraCrcCheck = s.flt.extraCrcCheck := rfl
end

section
variable (sf ring : Nat) (f : Ring → Ring)
@[simp] theorem onRing_pending : (onRing s sf ring f).pending = s.pending := rfl
@[simp] theorem onRing_time : (onRing s sf ring f).time = s.time := rfl
@[simp] theorem onRing_freeCtr : (onRing s sf ring f).freeCtr = s.freeCtr := rfl
@[simp] theorem onRing_reg : (onRing s sf ring f).reg = s.reg := rfl
@[simp] theorem onRing_flt : (onRing s sf ring f).flt = s.flt := rfl
@[simp] theorem onRing_ash : (onRing s sf ring f).ash = s.ash := rfl
@[simp] theorem onRing_pwr : (onRing s sf ring f).pwr = s.pwr := rfl
@[simp] theorem onRing_cal : (onRing s sf ring f).cal = s.cal := rfl
@[simp] theorem onRing_spn : (onRing s sf ring f).spn = s.spn := rfl
@[simp] theorem onRing_srv : (onRing s sf ring f).srv = s.srv := rfl
@[simp] theorem onRing_seq : (onRing s sf ring f).seq = s.seq := rfl
@[simp] theorem onRing_chan : (onRing s sf ring f).chan = s.chan := rfl
@[simp] theorem onRing_grt : (onRing s sf ring f).grt = s.grt := rfl
@[simp] theorem onRing_reqs : (onRing s sf ring f).reqs = s.reqs := rfl
@[simp] theorem onRing_wrt : (onRing s sf ring f).wrt = s.wrt := rfl
@[simp] theorem onRing_media : (onRing s sf ring f).media = s.media := rfl
@[simp] theorem onRing_stg : (onRing s sf ring f).stg = s.stg := rfl
@[simp] theorem onRing_hob : (onRing s sf ring f).hob = s.hob := rfl
@[simp] theorem onRing_cch : (onRing s sf ring f).cch = s.cch := rfl
@[simp] theorem onRing_flu : (onRing s sf ring f).flu = s.flu := rfl
@[simp] theorem onRing_drm : (onRing s sf ring f).drm = s.drm := rfl
@[simp] theorem onRing_obj : (onRing s sf ring f).obj = s.obj := rfl
@[simp] theorem onRing_zns : (onRing s sf ring f).zns = s.zns := rfl
@[simp] theorem onRing_ember : (onRing s sf ring f).ember = s.ember := rfl
@[simp] theorem onRing_mop : (onRing s sf ring f).mop = s.mop := rfl
@[simp] theorem onRing_sec : (onRing s sf ring f).sec = s.sec := rfl
@[simp] theorem onRing_fw : (onRing s sf ring f).fw = s.fw := rfl
@[simp] theorem onRing_cyz : (onRing s sf ring f).cyz = s.cyz := rfl
@[simp] theorem onRing_host : (onRing s sf ring f).host = s.host := rfl
@[simp] theorem onRing_prof : (onRing s sf ring f).prof = s.prof := rfl
@[simp] theorem onRing_str_heads : (onRing s sf ring f).str.heads = s.str.heads := rfl
@[simp] theorem onRing_str_groups : (onRing s sf ring f).str.groups = s.str.groups := rfl
@[simp] theorem onRing_str_newGroups : (onRing s sf ring f).str.newGroups = s.str.newGroups := rfl
@[simp] theorem onRing_str_nextGroup : (onRing s sf ring f).str.nextGroup = s.str.nextGroup := rfl
@[simp] theorem onRing_str_idxK : (onRing s sf ring f).str.idxK = s.str.idxK := rfl
@[simp] theorem onRing_str_idxM : (onRing s sf ring f).str.idxM = s.str.idxM := rfl
@[simp] theorem onRing_str_defects : (onRing s sf ring f).str.defects = s.str.defects := rfl
@[simp] theorem onRing_str_relocs : (onRing s sf ring f).str.relocs = s.str.relocs := rfl
@[simp] theorem onRing_str_relocPending : (onRing s sf ring f).str.relocPending = s.str.relocPending := rfl
@[simp] theorem onRing_str_copy : (onRing s sf ring f).str.copy = s.str.copy := rfl
@[simp] theorem onRing_str_reflowShort : (onRing s sf ring f).str.reflowShort = s.str.reflowShort := rfl
@[simp] theorem onRing_str_redundant : (onRing s sf ring f).str.redundant = s.str.redundant := rfl
@[simp] theorem onRing_str_reflowed : (onRing s sf ring f).str.reflowed = s.str.reflowed := rfl
@[simp] theorem onRing_str_spareMap : (onRing s sf ring f).str.spareMap = s.str.spareMap := rfl
@[simp] theorem onRing_str_lanesLeft : (onRing s sf ring f).str.lanesLeft = s.str.lanesLeft := rfl
@[simp] theorem onRing_str_gratesLeft : (onRing s sf ring f).str.gratesLeft = s.str.gratesLeft := rfl
@[simp] theorem onRing_str_seqLeft : (onRing s sf ring f).str.seqLeft = s.str.seqLeft := rfl
@[simp] theorem onRing_str_dmpLeft : (onRing s sf ring f).str.dmpLeft = s.str.dmpLeft := rfl
@[simp] theorem onRing_str_flueLeft : (onRing s sf ring f).str.flueLeft = s.str.flueLeft := rfl
@[simp] theorem onRing_str_actOut : (onRing s sf ring f).str.actOut = s.str.actOut := rfl
@[simp] theorem onRing_str_reloadAt : (onRing s sf ring f).str.reloadAt = s.str.reloadAt := rfl
@[simp] theorem onRing_str_retiring : (onRing s sf ring f).str.retiring = s.str.retiring := rfl
@[simp] theorem onRing_str_scrubFrom : (onRing s sf ring f).str.scrubFrom = s.str.scrubFrom := rfl
@[simp] theorem onRing_str_scrubDone : (onRing s sf ring f).str.scrubDone = s.str.scrubDone := rfl
@[simp] theorem onRing_str_scrubRated : (onRing s sf ring f).str.scrubRated = s.str.scrubRated := rfl
@[simp] theorem onRing_str_wseq : (onRing s sf ring f).str.wseq = s.str.wseq := rfl
@[simp] theorem onRing_str_corner : (onRing s sf ring f).str.corner = s.str.corner := rfl
@[simp] theorem onRing_str_stuck : (onRing s sf ring f).str.stuck = s.str.stuck := rfl
@[simp] theorem onRing_str_nextCkpt : (onRing s sf ring f).str.nextCkpt = s.str.nextCkpt := rfl
@[simp] theorem onRing_str_ckpt : (onRing s sf ring f).str.ckpt = s.str.ckpt := rfl
@[simp] theorem onRing_str_ckptAt : (onRing s sf ring f).str.ckptAt = s.str.ckptAt := rfl
@[simp] theorem onRing_str_rebuilds : (onRing s sf ring f).str.rebuilds = s.str.rebuilds := rfl
@[simp] theorem onRing_str_matrices : (onRing s sf ring f).str.matrices = s.str.matrices := rfl
end

section
variable (id : Nat) (f : Group → Group)
@[simp] theorem onGroup_pending : (onGroup s id f).pending = s.pending := rfl
@[simp] theorem onGroup_time : (onGroup s id f).time = s.time := rfl
@[simp] theorem onGroup_freeCtr : (onGroup s id f).freeCtr = s.freeCtr := rfl
@[simp] theorem onGroup_reg : (onGroup s id f).reg = s.reg := rfl
@[simp] theorem onGroup_flt : (onGroup s id f).flt = s.flt := rfl
@[simp] theorem onGroup_ash : (onGroup s id f).ash = s.ash := rfl
@[simp] theorem onGroup_pwr : (onGroup s id f).pwr = s.pwr := rfl
@[simp] theorem onGroup_cal : (onGroup s id f).cal = s.cal := rfl
@[simp] theorem onGroup_spn : (onGroup s id f).spn = s.spn := rfl
@[simp] theorem onGroup_srv : (onGroup s id f).srv = s.srv := rfl
@[simp] theorem onGroup_seq : (onGroup s id f).seq = s.seq := rfl
@[simp] theorem onGroup_chan : (onGroup s id f).chan = s.chan := rfl
@[simp] theorem onGroup_grt : (onGroup s id f).grt = s.grt := rfl
@[simp] theorem onGroup_reqs : (onGroup s id f).reqs = s.reqs := rfl
@[simp] theorem onGroup_wrt : (onGroup s id f).wrt = s.wrt := rfl
@[simp] theorem onGroup_media : (onGroup s id f).media = s.media := rfl
@[simp] theorem onGroup_stg : (onGroup s id f).stg = s.stg := rfl
@[simp] theorem onGroup_hob : (onGroup s id f).hob = s.hob := rfl
@[simp] theorem onGroup_cch : (onGroup s id f).cch = s.cch := rfl
@[simp] theorem onGroup_flu : (onGroup s id f).flu = s.flu := rfl
@[simp] theorem onGroup_drm : (onGroup s id f).drm = s.drm := rfl
@[simp] theorem onGroup_obj : (onGroup s id f).obj = s.obj := rfl
@[simp] theorem onGroup_zns : (onGroup s id f).zns = s.zns := rfl
@[simp] theorem onGroup_ember : (onGroup s id f).ember = s.ember := rfl
@[simp] theorem onGroup_mop : (onGroup s id f).mop = s.mop := rfl
@[simp] theorem onGroup_sec : (onGroup s id f).sec = s.sec := rfl
@[simp] theorem onGroup_fw : (onGroup s id f).fw = s.fw := rfl
@[simp] theorem onGroup_cyz : (onGroup s id f).cyz = s.cyz := rfl
@[simp] theorem onGroup_host : (onGroup s id f).host = s.host := rfl
@[simp] theorem onGroup_prof : (onGroup s id f).prof = s.prof := rfl
@[simp] theorem onGroup_str_heads : (onGroup s id f).str.heads = s.str.heads := rfl
@[simp] theorem onGroup_str_rings : (onGroup s id f).str.rings = s.str.rings := rfl
@[simp] theorem onGroup_str_newGroups : (onGroup s id f).str.newGroups = s.str.newGroups := rfl
@[simp] theorem onGroup_str_nextGroup : (onGroup s id f).str.nextGroup = s.str.nextGroup := rfl
@[simp] theorem onGroup_str_idxK : (onGroup s id f).str.idxK = s.str.idxK := rfl
@[simp] theorem onGroup_str_idxM : (onGroup s id f).str.idxM = s.str.idxM := rfl
@[simp] theorem onGroup_str_defects : (onGroup s id f).str.defects = s.str.defects := rfl
@[simp] theorem onGroup_str_relocs : (onGroup s id f).str.relocs = s.str.relocs := rfl
@[simp] theorem onGroup_str_relocPending : (onGroup s id f).str.relocPending = s.str.relocPending := rfl
@[simp] theorem onGroup_str_copy : (onGroup s id f).str.copy = s.str.copy := rfl
@[simp] theorem onGroup_str_reflowShort : (onGroup s id f).str.reflowShort = s.str.reflowShort := rfl
@[simp] theorem onGroup_str_redundant : (onGroup s id f).str.redundant = s.str.redundant := rfl
@[simp] theorem onGroup_str_reflowed : (onGroup s id f).str.reflowed = s.str.reflowed := rfl
@[simp] theorem onGroup_str_spareMap : (onGroup s id f).str.spareMap = s.str.spareMap := rfl
@[simp] theorem onGroup_str_lanesLeft : (onGroup s id f).str.lanesLeft = s.str.lanesLeft := rfl
@[simp] theorem onGroup_str_gratesLeft : (onGroup s id f).str.gratesLeft = s.str.gratesLeft := rfl
@[simp] theorem onGroup_str_seqLeft : (onGroup s id f).str.seqLeft = s.str.seqLeft := rfl
@[simp] theorem onGroup_str_dmpLeft : (onGroup s id f).str.dmpLeft = s.str.dmpLeft := rfl
@[simp] theorem onGroup_str_flueLeft : (onGroup s id f).str.flueLeft = s.str.flueLeft := rfl
@[simp] theorem onGroup_str_actOut : (onGroup s id f).str.actOut = s.str.actOut := rfl
@[simp] theorem onGroup_str_reloadAt : (onGroup s id f).str.reloadAt = s.str.reloadAt := rfl
@[simp] theorem onGroup_str_retiring : (onGroup s id f).str.retiring = s.str.retiring := rfl
@[simp] theorem onGroup_str_scrubFrom : (onGroup s id f).str.scrubFrom = s.str.scrubFrom := rfl
@[simp] theorem onGroup_str_scrubDone : (onGroup s id f).str.scrubDone = s.str.scrubDone := rfl
@[simp] theorem onGroup_str_scrubRated : (onGroup s id f).str.scrubRated = s.str.scrubRated := rfl
@[simp] theorem onGroup_str_wseq : (onGroup s id f).str.wseq = s.str.wseq := rfl
@[simp] theorem onGroup_str_corner : (onGroup s id f).str.corner = s.str.corner := rfl
@[simp] theorem onGroup_str_stuck : (onGroup s id f).str.stuck = s.str.stuck := rfl
@[simp] theorem onGroup_str_nextCkpt : (onGroup s id f).str.nextCkpt = s.str.nextCkpt := rfl
@[simp] theorem onGroup_str_ckpt : (onGroup s id f).str.ckpt = s.str.ckpt := rfl
@[simp] theorem onGroup_str_ckptAt : (onGroup s id f).str.ckptAt = s.str.ckptAt := rfl
@[simp] theorem onGroup_str_rebuilds : (onGroup s id f).str.rebuilds = s.str.rebuilds := rfl
@[simp] theorem onGroup_str_matrices : (onGroup s id f).str.matrices = s.str.matrices := rfl
end

section
variable (i : Nat) (c : TrapCause)
@[simp] theorem trapSq_pending : (trapSq s i c).pending = s.pending := rfl
@[simp] theorem trapSq_time : (trapSq s i c).time = s.time := rfl
@[simp] theorem trapSq_freeCtr : (trapSq s i c).freeCtr = s.freeCtr := rfl
@[simp] theorem trapSq_reg : (trapSq s i c).reg = s.reg := rfl
@[simp] theorem trapSq_flt : (trapSq s i c).flt = s.flt := rfl
@[simp] theorem trapSq_ash : (trapSq s i c).ash = s.ash := rfl
@[simp] theorem trapSq_pwr : (trapSq s i c).pwr = s.pwr := rfl
@[simp] theorem trapSq_cal : (trapSq s i c).cal = s.cal := rfl
@[simp] theorem trapSq_spn : (trapSq s i c).spn = s.spn := rfl
@[simp] theorem trapSq_srv : (trapSq s i c).srv = s.srv := rfl
@[simp] theorem trapSq_chan : (trapSq s i c).chan = s.chan := rfl
@[simp] theorem trapSq_grt : (trapSq s i c).grt = s.grt := rfl
@[simp] theorem trapSq_reqs : (trapSq s i c).reqs = s.reqs := rfl
@[simp] theorem trapSq_wrt : (trapSq s i c).wrt = s.wrt := rfl
@[simp] theorem trapSq_str : (trapSq s i c).str = s.str := rfl
@[simp] theorem trapSq_media : (trapSq s i c).media = s.media := rfl
@[simp] theorem trapSq_stg : (trapSq s i c).stg = s.stg := rfl
@[simp] theorem trapSq_hob : (trapSq s i c).hob = s.hob := rfl
@[simp] theorem trapSq_cch : (trapSq s i c).cch = s.cch := rfl
@[simp] theorem trapSq_flu : (trapSq s i c).flu = s.flu := rfl
@[simp] theorem trapSq_drm : (trapSq s i c).drm = s.drm := rfl
@[simp] theorem trapSq_obj : (trapSq s i c).obj = s.obj := rfl
@[simp] theorem trapSq_zns : (trapSq s i c).zns = s.zns := rfl
@[simp] theorem trapSq_ember : (trapSq s i c).ember = s.ember := rfl
@[simp] theorem trapSq_mop : (trapSq s i c).mop = s.mop := rfl
@[simp] theorem trapSq_sec : (trapSq s i c).sec = s.sec := rfl
@[simp] theorem trapSq_fw : (trapSq s i c).fw = s.fw := rfl
@[simp] theorem trapSq_cyz : (trapSq s i c).cyz = s.cyz := rfl
@[simp] theorem trapSq_host : (trapSq s i c).host = s.host := rfl
@[simp] theorem trapSq_prof : (trapSq s i c).prof = s.prof := rfl
@[simp] theorem trapSq_seq_switchReq : (trapSq s i c).seq.switchReq = s.seq.switchReq := rfl
@[simp] theorem trapSq_seq_switches : (trapSq s i c).seq.switches = s.seq.switches := rfl
@[simp] theorem trapSq_seq_ringMapCopy : (trapSq s i c).seq.ringMapCopy = s.seq.ringMapCopy := rfl
@[simp] theorem trapSq_seq_master : (trapSq s i c).seq.master = s.seq.master := rfl
@[simp] theorem trapSq_seq_prevMaster : (trapSq s i c).seq.prevMaster = s.seq.prevMaster := rfl
@[simp] theorem trapSq_seq_masterBase : (trapSq s i c).seq.masterBase = s.seq.masterBase := rfl
@[simp] theorem trapSq_seq_masterPatch : (trapSq s i c).seq.masterPatch = s.seq.masterPatch := rfl
@[simp] theorem trapSq_seq_prevPatch : (trapSq s i c).seq.prevPatch = s.seq.prevPatch := rfl
@[simp] theorem trapSq_seq_patching : (trapSq s i c).seq.patching = s.seq.patching := rfl
@[simp] theorem trapSq_seq_undoing : (trapSq s i c).seq.undoing = s.seq.undoing := rfl
@[simp] theorem trapSq_seq_patchCut : (trapSq s i c).seq.patchCut = s.seq.patchCut := rfl
@[simp] theorem trapSq_seq_patchReason : (trapSq s i c).seq.patchReason = s.seq.patchReason := rfl
@[simp] theorem trapSq_seq_kept : (trapSq s i c).seq.kept = s.seq.kept := rfl
@[simp] theorem trapSq_seq_bgTime : (trapSq s i c).seq.bgTime = s.seq.bgTime := rfl
end

section
variable (w a : Nat)
@[simp] theorem unloadAct_pending : (unloadAct s w a).pending = s.pending := rfl
@[simp] theorem unloadAct_time : (unloadAct s w a).time = s.time := rfl
@[simp] theorem unloadAct_freeCtr : (unloadAct s w a).freeCtr = s.freeCtr := rfl
@[simp] theorem unloadAct_reg : (unloadAct s w a).reg = s.reg := rfl
@[simp] theorem unloadAct_flt : (unloadAct s w a).flt = s.flt := rfl
@[simp] theorem unloadAct_ash : (unloadAct s w a).ash = s.ash := rfl
@[simp] theorem unloadAct_pwr : (unloadAct s w a).pwr = s.pwr := rfl
@[simp] theorem unloadAct_cal : (unloadAct s w a).cal = s.cal := rfl
@[simp] theorem unloadAct_spn : (unloadAct s w a).spn = s.spn := rfl
@[simp] theorem unloadAct_seq : (unloadAct s w a).seq = s.seq := rfl
@[simp] theorem unloadAct_chan : (unloadAct s w a).chan = s.chan := rfl
@[simp] theorem unloadAct_grt : (unloadAct s w a).grt = s.grt := rfl
@[simp] theorem unloadAct_reqs : (unloadAct s w a).reqs = s.reqs := rfl
@[simp] theorem unloadAct_wrt : (unloadAct s w a).wrt = s.wrt := rfl
@[simp] theorem unloadAct_str : (unloadAct s w a).str = s.str := rfl
@[simp] theorem unloadAct_media : (unloadAct s w a).media = s.media := rfl
@[simp] theorem unloadAct_stg : (unloadAct s w a).stg = s.stg := rfl
@[simp] theorem unloadAct_hob : (unloadAct s w a).hob = s.hob := rfl
@[simp] theorem unloadAct_cch : (unloadAct s w a).cch = s.cch := rfl
@[simp] theorem unloadAct_flu : (unloadAct s w a).flu = s.flu := rfl
@[simp] theorem unloadAct_drm : (unloadAct s w a).drm = s.drm := rfl
@[simp] theorem unloadAct_obj : (unloadAct s w a).obj = s.obj := rfl
@[simp] theorem unloadAct_zns : (unloadAct s w a).zns = s.zns := rfl
@[simp] theorem unloadAct_ember : (unloadAct s w a).ember = s.ember := rfl
@[simp] theorem unloadAct_mop : (unloadAct s w a).mop = s.mop := rfl
@[simp] theorem unloadAct_sec : (unloadAct s w a).sec = s.sec := rfl
@[simp] theorem unloadAct_fw : (unloadAct s w a).fw = s.fw := rfl
@[simp] theorem unloadAct_cyz : (unloadAct s w a).cyz = s.cyz := rfl
@[simp] theorem unloadAct_host : (unloadAct s w a).host = s.host := rfl
@[simp] theorem unloadAct_prof : (unloadAct s w a).prof = s.prof := rfl
@[simp] theorem unloadAct_srv_serves : (unloadAct s w a).srv.serves = s.srv.serves := rfl
@[simp] theorem unloadAct_srv_stale : (unloadAct s w a).srv.stale = s.srv.stale := rfl
@[simp] theorem unloadAct_srv_missed : (unloadAct s w a).srv.missed = s.srv.missed := rfl
@[simp] theorem unloadAct_srv_lostCnt : (unloadAct s w a).srv.lostCnt = s.srv.lostCnt := rfl
@[simp] theorem unloadAct_srv_shockCnt : (unloadAct s w a).srv.shockCnt = s.srv.shockCnt := rfl
@[simp] theorem unloadAct_srv_meanOver : (unloadAct s w a).srv.meanOver = s.srv.meanOver := rfl
@[simp] theorem unloadAct_srv_mirrorN : (unloadAct s w a).srv.mirrorN = s.srv.mirrorN := rfl
@[simp] theorem unloadAct_srv_mirror : (unloadAct s w a).srv.mirror = s.srv.mirror := rfl
@[simp] theorem unloadAct_srv_mirrorSpn : (unloadAct s w a).srv.mirrorSpn = s.srv.mirrorSpn := rfl
@[simp] theorem unloadAct_srv_coefs : (unloadAct s w a).srv.coefs = s.srv.coefs := rfl
@[simp] theorem unloadAct_srv_shock : (unloadAct s w a).srv.shock = s.srv.shock := rfl
@[simp] theorem unloadAct_srv_calmSince : (unloadAct s w a).srv.calmSince = s.srv.calmSince := rfl
@[simp] theorem unloadAct_srv_accOut : (unloadAct s w a).srv.accOut = s.srv.accOut := rfl
@[simp] theorem unloadAct_srv_accFull : (unloadAct s w a).srv.accFull = s.srv.accFull := rfl
@[simp] theorem unloadAct_srv_accCal : (unloadAct s w a).srv.accCal = s.srv.accCal := rfl
@[simp] theorem unloadAct_srv_alphaSq : (unloadAct s w a).srv.alphaSq = s.srv.alphaSq := rfl
@[simp] theorem unloadAct_srv_alpha : (unloadAct s w a).srv.alpha = s.srv.alpha := rfl
@[simp] theorem unloadAct_srv_rvRms : (unloadAct s w a).srv.rvRms = s.srv.rvRms := rfl
@[simp] theorem unloadAct_srv_rvStale : (unloadAct s w a).srv.rvStale = s.srv.rvStale := rfl
end

section
variable (g : Frame)
@[simp] theorem mediaPut_pending : (mediaPut s g).pending = s.pending := rfl
@[simp] theorem mediaPut_time : (mediaPut s g).time = s.time := rfl
@[simp] theorem mediaPut_freeCtr : (mediaPut s g).freeCtr = s.freeCtr := rfl
@[simp] theorem mediaPut_reg : (mediaPut s g).reg = s.reg := rfl
@[simp] theorem mediaPut_flt : (mediaPut s g).flt = s.flt := rfl
@[simp] theorem mediaPut_ash : (mediaPut s g).ash = s.ash := rfl
@[simp] theorem mediaPut_pwr : (mediaPut s g).pwr = s.pwr := rfl
@[simp] theorem mediaPut_cal : (mediaPut s g).cal = s.cal := rfl
@[simp] theorem mediaPut_spn : (mediaPut s g).spn = s.spn := rfl
@[simp] theorem mediaPut_srv : (mediaPut s g).srv = s.srv := rfl
@[simp] theorem mediaPut_seq : (mediaPut s g).seq = s.seq := rfl
@[simp] theorem mediaPut_chan : (mediaPut s g).chan = s.chan := rfl
@[simp] theorem mediaPut_grt : (mediaPut s g).grt = s.grt := rfl
@[simp] theorem mediaPut_reqs : (mediaPut s g).reqs = s.reqs := rfl
@[simp] theorem mediaPut_wrt : (mediaPut s g).wrt = s.wrt := rfl
@[simp] theorem mediaPut_str : (mediaPut s g).str = s.str := rfl
@[simp] theorem mediaPut_stg : (mediaPut s g).stg = s.stg := rfl
@[simp] theorem mediaPut_hob : (mediaPut s g).hob = s.hob := rfl
@[simp] theorem mediaPut_cch : (mediaPut s g).cch = s.cch := rfl
@[simp] theorem mediaPut_flu : (mediaPut s g).flu = s.flu := rfl
@[simp] theorem mediaPut_drm : (mediaPut s g).drm = s.drm := rfl
@[simp] theorem mediaPut_obj : (mediaPut s g).obj = s.obj := rfl
@[simp] theorem mediaPut_zns : (mediaPut s g).zns = s.zns := rfl
@[simp] theorem mediaPut_ember : (mediaPut s g).ember = s.ember := rfl
@[simp] theorem mediaPut_mop : (mediaPut s g).mop = s.mop := rfl
@[simp] theorem mediaPut_sec : (mediaPut s g).sec = s.sec := rfl
@[simp] theorem mediaPut_fw : (mediaPut s g).fw = s.fw := rfl
@[simp] theorem mediaPut_cyz : (mediaPut s g).cyz = s.cyz := rfl
@[simp] theorem mediaPut_host : (mediaPut s g).host = s.host := rfl
@[simp] theorem mediaPut_prof : (mediaPut s g).prof = s.prof := rfl
@[simp] theorem mediaPut_media_surfaces : (mediaPut s g).media.surfaces = s.media.surfaces := rfl
@[simp] theorem mediaPut_media_nT : (mediaPut s g).media.nT = s.media.nT := rfl
@[simp] theorem mediaPut_media_dataK : (mediaPut s g).media.dataK = s.media.dataK := rfl
@[simp] theorem mediaPut_media_dataM : (mediaPut s g).media.dataM = s.media.dataM := rfl
@[simp] theorem mediaPut_media_wseq : (mediaPut s g).media.wseq = s.media.wseq := rfl
@[simp] theorem mediaPut_media_hours : (mediaPut s g).media.hours = s.media.hours := rfl
@[simp] theorem mediaPut_media_zones : (mediaPut s g).media.zones = s.media.zones := rfl
end

section
variable (c : Nat) (f : Ctx → Ctx)
@[simp] theorem onCtx_pending : (onCtx s c f).pending = s.pending := rfl
@[simp] theorem onCtx_time : (onCtx s c f).time = s.time := rfl
@[simp] theorem onCtx_freeCtr : (onCtx s c f).freeCtr = s.freeCtr := rfl
@[simp] theorem onCtx_reg : (onCtx s c f).reg = s.reg := rfl
@[simp] theorem onCtx_flt : (onCtx s c f).flt = s.flt := rfl
@[simp] theorem onCtx_ash : (onCtx s c f).ash = s.ash := rfl
@[simp] theorem onCtx_pwr : (onCtx s c f).pwr = s.pwr := rfl
@[simp] theorem onCtx_cal : (onCtx s c f).cal = s.cal := rfl
@[simp] theorem onCtx_spn : (onCtx s c f).spn = s.spn := rfl
@[simp] theorem onCtx_srv : (onCtx s c f).srv = s.srv := rfl
@[simp] theorem onCtx_seq : (onCtx s c f).seq = s.seq := rfl
@[simp] theorem onCtx_chan : (onCtx s c f).chan = s.chan := rfl
@[simp] theorem onCtx_grt : (onCtx s c f).grt = s.grt := rfl
@[simp] theorem onCtx_reqs : (onCtx s c f).reqs = s.reqs := rfl
@[simp] theorem onCtx_wrt : (onCtx s c f).wrt = s.wrt := rfl
@[simp] theorem onCtx_str : (onCtx s c f).str = s.str := rfl
@[simp] theorem onCtx_media : (onCtx s c f).media = s.media := rfl
@[simp] theorem onCtx_stg : (onCtx s c f).stg = s.stg := rfl
@[simp] theorem onCtx_hob : (onCtx s c f).hob = s.hob := rfl
@[simp] theorem onCtx_cch : (onCtx s c f).cch = s.cch := rfl
@[simp] theorem onCtx_flu : (onCtx s c f).flu = s.flu := rfl
@[simp] theorem onCtx_drm : (onCtx s c f).drm = s.drm := rfl
@[simp] theorem onCtx_obj : (onCtx s c f).obj = s.obj := rfl
@[simp] theorem onCtx_zns : (onCtx s c f).zns = s.zns := rfl
@[simp] theorem onCtx_ember : (onCtx s c f).ember = s.ember := rfl
@[simp] theorem onCtx_mop : (onCtx s c f).mop = s.mop := rfl
@[simp] theorem onCtx_sec : (onCtx s c f).sec = s.sec := rfl
@[simp] theorem onCtx_fw : (onCtx s c f).fw = s.fw := rfl
@[simp] theorem onCtx_cyz : (onCtx s c f).cyz = s.cyz := rfl
@[simp] theorem onCtx_prof : (onCtx s c f).prof = s.prof := rfl
@[simp] theorem onCtx_host_link : (onCtx s c f).host.link = s.host.link := rfl
@[simp] theorem onCtx_host_perst : (onCtx s c f).host.perst = s.host.perst := rfl
@[simp] theorem onCtx_host_fundamental : (onCtx s c f).host.fundamental = s.host.fundamental := rfl
@[simp] theorem onCtx_host_en : (onCtx s c f).host.en = s.host.en := rfl
@[simp] theorem onCtx_host_ams : (onCtx s c f).host.ams = s.host.ams := rfl
@[simp] theorem onCtx_host_rdy : (onCtx s c f).host.rdy = s.host.rdy := rfl
@[simp] theorem onCtx_host_cfs : (onCtx s c f).host.cfs = s.host.cfs := rfl
@[simp] theorem onCtx_host_shst : (onCtx s c f).host.shst = s.host.shst := rfl
@[simp] theorem onCtx_host_pp : (onCtx s c f).host.pp = s.host.pp := rfl
@[simp] theorem onCtx_host_shutting : (onCtx s c f).host.shutting = s.host.shutting := rfl
@[simp] theorem onCtx_host_fetching : (onCtx s c f).host.fetching = s.host.fetching := rfl
@[simp] theorem onCtx_host_sqs : (onCtx s c f).host.sqs = s.host.sqs := rfl
@[simp] theorem onCtx_host_cqs : (onCtx s c f).host.cqs = s.host.cqs := rfl
@[simp] theorem onCtx_host_accept : (onCtx s c f).host.accept = s.host.accept := rfl
@[simp] theorem onCtx_host_ceiling : (onCtx s c f).host.ceiling = s.host.ceiling := rfl
@[simp] theorem onCtx_host_peak : (onCtx s c f).host.peak = s.host.peak := rfl
@[simp] theorem onCtx_host_feats : (onCtx s c f).host.feats = s.host.feats := rfl
@[simp] theorem onCtx_host_events : (onCtx s c f).host.events = s.host.events := rfl
@[simp] theorem onCtx_host_errs : (onCtx s c f).host.errs = s.host.errs := rfl
@[simp] theorem onCtx_host_errCount : (onCtx s c f).host.errCount = s.host.errCount := rfl
@[simp] theorem onCtx_host_agg : (onCtx s c f).host.agg = s.host.agg := rfl
@[simp] theorem onCtx_host_msix : (onCtx s c f).host.msix = s.host.msix := rfl
@[simp] theorem onCtx_host_dataErr : (onCtx s c f).host.dataErr = s.host.dataErr := rfl
@[simp] theorem onCtx_host_sanitizeStatus : (onCtx s c f).host.sanitizeStatus = s.host.sanitizeStatus := rfl
@[simp] theorem onCtx_host_mps : (onCtx s c f).host.mps = s.host.mps := rfl
@[simp] theorem onCtx_host_grant : (onCtx s c f).host.grant = s.host.grant := rfl
@[simp] theorem onCtx_host_credits : (onCtx s c f).host.credits = s.host.credits := rfl
end

section
variable (c sct sc dw0 : Nat) (d : List Byte)
@[simp] theorem finish_pending : (finish s c sct sc dw0 d).pending = s.pending := rfl
@[simp] theorem finish_time : (finish s c sct sc dw0 d).time = s.time := rfl
@[simp] theorem finish_freeCtr : (finish s c sct sc dw0 d).freeCtr = s.freeCtr := rfl
@[simp] theorem finish_reg : (finish s c sct sc dw0 d).reg = s.reg := rfl
@[simp] theorem finish_flt : (finish s c sct sc dw0 d).flt = s.flt := rfl
@[simp] theorem finish_ash : (finish s c sct sc dw0 d).ash = s.ash := rfl
@[simp] theorem finish_pwr : (finish s c sct sc dw0 d).pwr = s.pwr := rfl
@[simp] theorem finish_cal : (finish s c sct sc dw0 d).cal = s.cal := rfl
@[simp] theorem finish_spn : (finish s c sct sc dw0 d).spn = s.spn := rfl
@[simp] theorem finish_srv : (finish s c sct sc dw0 d).srv = s.srv := rfl
@[simp] theorem finish_seq : (finish s c sct sc dw0 d).seq = s.seq := rfl
@[simp] theorem finish_chan : (finish s c sct sc dw0 d).chan = s.chan := rfl
@[simp] theorem finish_grt : (finish s c sct sc dw0 d).grt = s.grt := rfl
@[simp] theorem finish_reqs : (finish s c sct sc dw0 d).reqs = s.reqs := rfl
@[simp] theorem finish_wrt : (finish s c sct sc dw0 d).wrt = s.wrt := rfl
@[simp] theorem finish_str : (finish s c sct sc dw0 d).str = s.str := rfl
@[simp] theorem finish_media : (finish s c sct sc dw0 d).media = s.media := rfl
@[simp] theorem finish_stg : (finish s c sct sc dw0 d).stg = s.stg := rfl
@[simp] theorem finish_hob : (finish s c sct sc dw0 d).hob = s.hob := rfl
@[simp] theorem finish_cch : (finish s c sct sc dw0 d).cch = s.cch := rfl
@[simp] theorem finish_flu : (finish s c sct sc dw0 d).flu = s.flu := rfl
@[simp] theorem finish_drm : (finish s c sct sc dw0 d).drm = s.drm := rfl
@[simp] theorem finish_obj : (finish s c sct sc dw0 d).obj = s.obj := rfl
@[simp] theorem finish_zns : (finish s c sct sc dw0 d).zns = s.zns := rfl
@[simp] theorem finish_ember : (finish s c sct sc dw0 d).ember = s.ember := rfl
@[simp] theorem finish_mop : (finish s c sct sc dw0 d).mop = s.mop := rfl
@[simp] theorem finish_sec : (finish s c sct sc dw0 d).sec = s.sec := rfl
@[simp] theorem finish_fw : (finish s c sct sc dw0 d).fw = s.fw := rfl
@[simp] theorem finish_cyz : (finish s c sct sc dw0 d).cyz = s.cyz := rfl
@[simp] theorem finish_prof : (finish s c sct sc dw0 d).prof = s.prof := rfl
@[simp] theorem finish_host_link : (finish s c sct sc dw0 d).host.link = s.host.link := rfl
@[simp] theorem finish_host_perst : (finish s c sct sc dw0 d).host.perst = s.host.perst := rfl
@[simp] theorem finish_host_fundamental : (finish s c sct sc dw0 d).host.fundamental = s.host.fundamental := rfl
@[simp] theorem finish_host_en : (finish s c sct sc dw0 d).host.en = s.host.en := rfl
@[simp] theorem finish_host_ams : (finish s c sct sc dw0 d).host.ams = s.host.ams := rfl
@[simp] theorem finish_host_rdy : (finish s c sct sc dw0 d).host.rdy = s.host.rdy := rfl
@[simp] theorem finish_host_cfs : (finish s c sct sc dw0 d).host.cfs = s.host.cfs := rfl
@[simp] theorem finish_host_shst : (finish s c sct sc dw0 d).host.shst = s.host.shst := rfl
@[simp] theorem finish_host_pp : (finish s c sct sc dw0 d).host.pp = s.host.pp := rfl
@[simp] theorem finish_host_shutting : (finish s c sct sc dw0 d).host.shutting = s.host.shutting := rfl
@[simp] theorem finish_host_fetching : (finish s c sct sc dw0 d).host.fetching = s.host.fetching := rfl
@[simp] theorem finish_host_sqs : (finish s c sct sc dw0 d).host.sqs = s.host.sqs := rfl
@[simp] theorem finish_host_cqs : (finish s c sct sc dw0 d).host.cqs = s.host.cqs := rfl
@[simp] theorem finish_host_accept : (finish s c sct sc dw0 d).host.accept = s.host.accept := rfl
@[simp] theorem finish_host_ceiling : (finish s c sct sc dw0 d).host.ceiling = s.host.ceiling := rfl
@[simp] theorem finish_host_peak : (finish s c sct sc dw0 d).host.peak = s.host.peak := rfl
@[simp] theorem finish_host_feats : (finish s c sct sc dw0 d).host.feats = s.host.feats := rfl
@[simp] theorem finish_host_events : (finish s c sct sc dw0 d).host.events = s.host.events := rfl
@[simp] theorem finish_host_errs : (finish s c sct sc dw0 d).host.errs = s.host.errs := rfl
@[simp] theorem finish_host_errCount : (finish s c sct sc dw0 d).host.errCount = s.host.errCount := rfl
@[simp] theorem finish_host_agg : (finish s c sct sc dw0 d).host.agg = s.host.agg := rfl
@[simp] theorem finish_host_msix : (finish s c sct sc dw0 d).host.msix = s.host.msix := rfl
@[simp] theorem finish_host_dataErr : (finish s c sct sc dw0 d).host.dataErr = s.host.dataErr := rfl
@[simp] theorem finish_host_sanitizeStatus : (finish s c sct sc dw0 d).host.sanitizeStatus = s.host.sanitizeStatus := rfl
@[simp] theorem finish_host_mps : (finish s c sct sc dw0 d).host.mps = s.host.mps := rfl
@[simp] theorem finish_host_grant : (finish s c sct sc dw0 d).host.grant = s.host.grant := rfl
@[simp] theorem finish_host_credits : (finish s c sct sc dw0 d).host.credits = s.host.credits := rfl
end

section
variable (q : Nat) (f : SubQueue → SubQueue)
@[simp] theorem onSubq_pending : (onSubq s q f).pending = s.pending := rfl
@[simp] theorem onSubq_time : (onSubq s q f).time = s.time := rfl
@[simp] theorem onSubq_freeCtr : (onSubq s q f).freeCtr = s.freeCtr := rfl
@[simp] theorem onSubq_reg : (onSubq s q f).reg = s.reg := rfl
@[simp] theorem onSubq_flt : (onSubq s q f).flt = s.flt := rfl
@[simp] theorem onSubq_ash : (onSubq s q f).ash = s.ash := rfl
@[simp] theorem onSubq_pwr : (onSubq s q f).pwr = s.pwr := rfl
@[simp] theorem onSubq_cal : (onSubq s q f).cal = s.cal := rfl
@[simp] theorem onSubq_spn : (onSubq s q f).spn = s.spn := rfl
@[simp] theorem onSubq_srv : (onSubq s q f).srv = s.srv := rfl
@[simp] theorem onSubq_seq : (onSubq s q f).seq = s.seq := rfl
@[simp] theorem onSubq_chan : (onSubq s q f).chan = s.chan := rfl
@[simp] theorem onSubq_grt : (onSubq s q f).grt = s.grt := rfl
@[simp] theorem onSubq_reqs : (onSubq s q f).reqs = s.reqs := rfl
@[simp] theorem onSubq_wrt : (onSubq s q f).wrt = s.wrt := rfl
@[simp] theorem onSubq_str : (onSubq s q f).str = s.str := rfl
@[simp] theorem onSubq_media : (onSubq s q f).media = s.media := rfl
@[simp] theorem onSubq_stg : (onSubq s q f).stg = s.stg := rfl
@[simp] theorem onSubq_hob : (onSubq s q f).hob = s.hob := rfl
@[simp] theorem onSubq_cch : (onSubq s q f).cch = s.cch := rfl
@[simp] theorem onSubq_flu : (onSubq s q f).flu = s.flu := rfl
@[simp] theorem onSubq_drm : (onSubq s q f).drm = s.drm := rfl
@[simp] theorem onSubq_obj : (onSubq s q f).obj = s.obj := rfl
@[simp] theorem onSubq_zns : (onSubq s q f).zns = s.zns := rfl
@[simp] theorem onSubq_ember : (onSubq s q f).ember = s.ember := rfl
@[simp] theorem onSubq_mop : (onSubq s q f).mop = s.mop := rfl
@[simp] theorem onSubq_sec : (onSubq s q f).sec = s.sec := rfl
@[simp] theorem onSubq_fw : (onSubq s q f).fw = s.fw := rfl
@[simp] theorem onSubq_cyz : (onSubq s q f).cyz = s.cyz := rfl
@[simp] theorem onSubq_prof : (onSubq s q f).prof = s.prof := rfl
@[simp] theorem onSubq_host_link : (onSubq s q f).host.link = s.host.link := rfl
@[simp] theorem onSubq_host_perst : (onSubq s q f).host.perst = s.host.perst := rfl
@[simp] theorem onSubq_host_fundamental : (onSubq s q f).host.fundamental = s.host.fundamental := rfl
@[simp] theorem onSubq_host_en : (onSubq s q f).host.en = s.host.en := rfl
@[simp] theorem onSubq_host_ams : (onSubq s q f).host.ams = s.host.ams := rfl
@[simp] theorem onSubq_host_rdy : (onSubq s q f).host.rdy = s.host.rdy := rfl
@[simp] theorem onSubq_host_cfs : (onSubq s q f).host.cfs = s.host.cfs := rfl
@[simp] theorem onSubq_host_shst : (onSubq s q f).host.shst = s.host.shst := rfl
@[simp] theorem onSubq_host_pp : (onSubq s q f).host.pp = s.host.pp := rfl
@[simp] theorem onSubq_host_shutting : (onSubq s q f).host.shutting = s.host.shutting := rfl
@[simp] theorem onSubq_host_fetching : (onSubq s q f).host.fetching = s.host.fetching := rfl
@[simp] theorem onSubq_host_cqs : (onSubq s q f).host.cqs = s.host.cqs := rfl
@[simp] theorem onSubq_host_ctxs : (onSubq s q f).host.ctxs = s.host.ctxs := rfl
@[simp] theorem onSubq_host_accept : (onSubq s q f).host.accept = s.host.accept := rfl
@[simp] theorem onSubq_host_ceiling : (onSubq s q f).host.ceiling = s.host.ceiling := rfl
@[simp] theorem onSubq_host_peak : (onSubq s q f).host.peak = s.host.peak := rfl
@[simp] theorem onSubq_host_feats : (onSubq s q f).host.feats = s.host.feats := rfl
@[simp] theorem onSubq_host_events : (onSubq s q f).host.events = s.host.events := rfl
@[simp] theorem onSubq_host_errs : (onSubq s q f).host.errs = s.host.errs := rfl
@[simp] theorem onSubq_host_errCount : (onSubq s q f).host.errCount = s.host.errCount := rfl
@[simp] theorem onSubq_host_agg : (onSubq s q f).host.agg = s.host.agg := rfl
@[simp] theorem onSubq_host_msix : (onSubq s q f).host.msix = s.host.msix := rfl
@[simp] theorem onSubq_host_dataErr : (onSubq s q f).host.dataErr = s.host.dataErr := rfl
@[simp] theorem onSubq_host_sanitizeStatus : (onSubq s q f).host.sanitizeStatus = s.host.sanitizeStatus := rfl
@[simp] theorem onSubq_host_mps : (onSubq s q f).host.mps = s.host.mps := rfl
@[simp] theorem onSubq_host_grant : (onSubq s q f).host.grant = s.host.grant := rfl
@[simp] theorem onSubq_host_credits : (onSubq s q f).host.credits = s.host.credits := rfl
end

section
variable (q : Nat) (f : CompQueue → CompQueue)
@[simp] theorem onCompq_pending : (onCompq s q f).pending = s.pending := rfl
@[simp] theorem onCompq_time : (onCompq s q f).time = s.time := rfl
@[simp] theorem onCompq_freeCtr : (onCompq s q f).freeCtr = s.freeCtr := rfl
@[simp] theorem onCompq_reg : (onCompq s q f).reg = s.reg := rfl
@[simp] theorem onCompq_flt : (onCompq s q f).flt = s.flt := rfl
@[simp] theorem onCompq_ash : (onCompq s q f).ash = s.ash := rfl
@[simp] theorem onCompq_pwr : (onCompq s q f).pwr = s.pwr := rfl
@[simp] theorem onCompq_cal : (onCompq s q f).cal = s.cal := rfl
@[simp] theorem onCompq_spn : (onCompq s q f).spn = s.spn := rfl
@[simp] theorem onCompq_srv : (onCompq s q f).srv = s.srv := rfl
@[simp] theorem onCompq_seq : (onCompq s q f).seq = s.seq := rfl
@[simp] theorem onCompq_chan : (onCompq s q f).chan = s.chan := rfl
@[simp] theorem onCompq_grt : (onCompq s q f).grt = s.grt := rfl
@[simp] theorem onCompq_reqs : (onCompq s q f).reqs = s.reqs := rfl
@[simp] theorem onCompq_wrt : (onCompq s q f).wrt = s.wrt := rfl
@[simp] theorem onCompq_str : (onCompq s q f).str = s.str := rfl
@[simp] theorem onCompq_media : (onCompq s q f).media = s.media := rfl
@[simp] theorem onCompq_stg : (onCompq s q f).stg = s.stg := rfl
@[simp] theorem onCompq_hob : (onCompq s q f).hob = s.hob := rfl
@[simp] theorem onCompq_cch : (onCompq s q f).cch = s.cch := rfl
@[simp] theorem onCompq_flu : (onCompq s q f).flu = s.flu := rfl
@[simp] theorem onCompq_drm : (onCompq s q f).drm = s.drm := rfl
@[simp] theorem onCompq_obj : (onCompq s q f).obj = s.obj := rfl
@[simp] theorem onCompq_zns : (onCompq s q f).zns = s.zns := rfl
@[simp] theorem onCompq_ember : (onCompq s q f).ember = s.ember := rfl
@[simp] theorem onCompq_mop : (onCompq s q f).mop = s.mop := rfl
@[simp] theorem onCompq_sec : (onCompq s q f).sec = s.sec := rfl
@[simp] theorem onCompq_fw : (onCompq s q f).fw = s.fw := rfl
@[simp] theorem onCompq_cyz : (onCompq s q f).cyz = s.cyz := rfl
@[simp] theorem onCompq_prof : (onCompq s q f).prof = s.prof := rfl
@[simp] theorem onCompq_host_link : (onCompq s q f).host.link = s.host.link := rfl
@[simp] theorem onCompq_host_perst : (onCompq s q f).host.perst = s.host.perst := rfl
@[simp] theorem onCompq_host_fundamental : (onCompq s q f).host.fundamental = s.host.fundamental := rfl
@[simp] theorem onCompq_host_en : (onCompq s q f).host.en = s.host.en := rfl
@[simp] theorem onCompq_host_ams : (onCompq s q f).host.ams = s.host.ams := rfl
@[simp] theorem onCompq_host_rdy : (onCompq s q f).host.rdy = s.host.rdy := rfl
@[simp] theorem onCompq_host_cfs : (onCompq s q f).host.cfs = s.host.cfs := rfl
@[simp] theorem onCompq_host_shst : (onCompq s q f).host.shst = s.host.shst := rfl
@[simp] theorem onCompq_host_pp : (onCompq s q f).host.pp = s.host.pp := rfl
@[simp] theorem onCompq_host_shutting : (onCompq s q f).host.shutting = s.host.shutting := rfl
@[simp] theorem onCompq_host_fetching : (onCompq s q f).host.fetching = s.host.fetching := rfl
@[simp] theorem onCompq_host_sqs : (onCompq s q f).host.sqs = s.host.sqs := rfl
@[simp] theorem onCompq_host_ctxs : (onCompq s q f).host.ctxs = s.host.ctxs := rfl
@[simp] theorem onCompq_host_accept : (onCompq s q f).host.accept = s.host.accept := rfl
@[simp] theorem onCompq_host_ceiling : (onCompq s q f).host.ceiling = s.host.ceiling := rfl
@[simp] theorem onCompq_host_peak : (onCompq s q f).host.peak = s.host.peak := rfl
@[simp] theorem onCompq_host_feats : (onCompq s q f).host.feats = s.host.feats := rfl
@[simp] theorem onCompq_host_events : (onCompq s q f).host.events = s.host.events := rfl
@[simp] theorem onCompq_host_errs : (onCompq s q f).host.errs = s.host.errs := rfl
@[simp] theorem onCompq_host_errCount : (onCompq s q f).host.errCount = s.host.errCount := rfl
@[simp] theorem onCompq_host_agg : (onCompq s q f).host.agg = s.host.agg := rfl
@[simp] theorem onCompq_host_msix : (onCompq s q f).host.msix = s.host.msix := rfl
@[simp] theorem onCompq_host_dataErr : (onCompq s q f).host.dataErr = s.host.dataErr := rfl
@[simp] theorem onCompq_host_sanitizeStatus : (onCompq s q f).host.sanitizeStatus = s.host.sanitizeStatus := rfl
@[simp] theorem onCompq_host_mps : (onCompq s q f).host.mps = s.host.mps := rfl
@[simp] theorem onCompq_host_grant : (onCompq s q f).host.grant = s.host.grant := rfl
@[simp] theorem onCompq_host_credits : (onCompq s q f).host.credits = s.host.credits := rfl
end

section
variable (n : Nat) (f : SessSlot → SessSlot)
@[simp] theorem onSlot_pending : (onSlot s n f).pending = s.pending := rfl
@[simp] theorem onSlot_time : (onSlot s n f).time = s.time := rfl
@[simp] theorem onSlot_freeCtr : (onSlot s n f).freeCtr = s.freeCtr := rfl
@[simp] theorem onSlot_reg : (onSlot s n f).reg = s.reg := rfl
@[simp] theorem onSlot_flt : (onSlot s n f).flt = s.flt := rfl
@[simp] theorem onSlot_ash : (onSlot s n f).ash = s.ash := rfl
@[simp] theorem onSlot_pwr : (onSlot s n f).pwr = s.pwr := rfl
@[simp] theorem onSlot_cal : (onSlot s n f).cal = s.cal := rfl
@[simp] theorem onSlot_spn : (onSlot s n f).spn = s.spn := rfl
@[simp] theorem onSlot_srv : (onSlot s n f).srv = s.srv := rfl
@[simp] theorem onSlot_seq : (onSlot s n f).seq = s.seq := rfl
@[simp] theorem onSlot_chan : (onSlot s n f).chan = s.chan := rfl
@[simp] theorem onSlot_grt : (onSlot s n f).grt = s.grt := rfl
@[simp] theorem onSlot_reqs : (onSlot s n f).reqs = s.reqs := rfl
@[simp] theorem onSlot_wrt : (onSlot s n f).wrt = s.wrt := rfl
@[simp] theorem onSlot_str : (onSlot s n f).str = s.str := rfl
@[simp] theorem onSlot_media : (onSlot s n f).media = s.media := rfl
@[simp] theorem onSlot_stg : (onSlot s n f).stg = s.stg := rfl
@[simp] theorem onSlot_hob : (onSlot s n f).hob = s.hob := rfl
@[simp] theorem onSlot_cch : (onSlot s n f).cch = s.cch := rfl
@[simp] theorem onSlot_flu : (onSlot s n f).flu = s.flu := rfl
@[simp] theorem onSlot_drm : (onSlot s n f).drm = s.drm := rfl
@[simp] theorem onSlot_zns : (onSlot s n f).zns = s.zns := rfl
@[simp] theorem onSlot_ember : (onSlot s n f).ember = s.ember := rfl
@[simp] theorem onSlot_mop : (onSlot s n f).mop = s.mop := rfl
@[simp] theorem onSlot_sec : (onSlot s n f).sec = s.sec := rfl
@[simp] theorem onSlot_fw : (onSlot s n f).fw = s.fw := rfl
@[simp] theorem onSlot_cyz : (onSlot s n f).cyz = s.cyz := rfl
@[simp] theorem onSlot_host : (onSlot s n f).host = s.host := rfl
@[simp] theorem onSlot_prof : (onSlot s n f).prof = s.prof := rfl
@[simp] theorem onSlot_obj_objs : (onSlot s n f).obj.objs = s.obj.objs := rfl
@[simp] theorem onSlot_obj_nextId : (onSlot s n f).obj.nextId = s.obj.nextId := rfl
@[simp] theorem onSlot_obj_streams : (onSlot s n f).obj.streams = s.obj.streams := rfl
@[simp] theorem onSlot_obj_clock : (onSlot s n f).obj.clock = s.obj.clock := rfl
@[simp] theorem onSlot_obj_damage : (onSlot s n f).obj.damage = s.obj.damage := rfl
@[simp] theorem onSlot_obj_damagedLeaves : (onSlot s n f).obj.damagedLeaves = s.obj.damagedLeaves := rfl
end

section
variable (z : Nat) (f : Zone → Zone)
@[simp] theorem onZone_pending : (onZone s z f).pending = s.pending := rfl
@[simp] theorem onZone_time : (onZone s z f).time = s.time := rfl
@[simp] theorem onZone_freeCtr : (onZone s z f).freeCtr = s.freeCtr := rfl
@[simp] theorem onZone_reg : (onZone s z f).reg = s.reg := rfl
@[simp] theorem onZone_flt : (onZone s z f).flt = s.flt := rfl
@[simp] theorem onZone_ash : (onZone s z f).ash = s.ash := rfl
@[simp] theorem onZone_pwr : (onZone s z f).pwr = s.pwr := rfl
@[simp] theorem onZone_cal : (onZone s z f).cal = s.cal := rfl
@[simp] theorem onZone_spn : (onZone s z f).spn = s.spn := rfl
@[simp] theorem onZone_srv : (onZone s z f).srv = s.srv := rfl
@[simp] theorem onZone_seq : (onZone s z f).seq = s.seq := rfl
@[simp] theorem onZone_chan : (onZone s z f).chan = s.chan := rfl
@[simp] theorem onZone_grt : (onZone s z f).grt = s.grt := rfl
@[simp] theorem onZone_reqs : (onZone s z f).reqs = s.reqs := rfl
@[simp] theorem onZone_wrt : (onZone s z f).wrt = s.wrt := rfl
@[simp] theorem onZone_str : (onZone s z f).str = s.str := rfl
@[simp] theorem onZone_media : (onZone s z f).media = s.media := rfl
@[simp] theorem onZone_stg : (onZone s z f).stg = s.stg := rfl
@[simp] theorem onZone_hob : (onZone s z f).hob = s.hob := rfl
@[simp] theorem onZone_cch : (onZone s z f).cch = s.cch := rfl
@[simp] theorem onZone_flu : (onZone s z f).flu = s.flu := rfl
@[simp] theorem onZone_drm : (onZone s z f).drm = s.drm := rfl
@[simp] theorem onZone_obj : (onZone s z f).obj = s.obj := rfl
@[simp] theorem onZone_ember : (onZone s z f).ember = s.ember := rfl
@[simp] theorem onZone_mop : (onZone s z f).mop = s.mop := rfl
@[simp] theorem onZone_sec : (onZone s z f).sec = s.sec := rfl
@[simp] theorem onZone_fw : (onZone s z f).fw = s.fw := rfl
@[simp] theorem onZone_cyz : (onZone s z f).cyz = s.cyz := rfl
@[simp] theorem onZone_host : (onZone s z f).host = s.host := rfl
@[simp] theorem onZone_prof : (onZone s z f).prof = s.prof := rfl
@[simp] theorem onZone_zns_damage : (onZone s z f).zns.damage = s.zns.damage := rfl
end

section
variable (k : List Byte) (f : Obj → Obj)
@[simp] theorem onObj_pending : (onObj s k f).pending = s.pending := rfl
@[simp] theorem onObj_time : (onObj s k f).time = s.time := rfl
@[simp] theorem onObj_freeCtr : (onObj s k f).freeCtr = s.freeCtr := rfl
@[simp] theorem onObj_reg : (onObj s k f).reg = s.reg := rfl
@[simp] theorem onObj_flt : (onObj s k f).flt = s.flt := rfl
@[simp] theorem onObj_ash : (onObj s k f).ash = s.ash := rfl
@[simp] theorem onObj_pwr : (onObj s k f).pwr = s.pwr := rfl
@[simp] theorem onObj_cal : (onObj s k f).cal = s.cal := rfl
@[simp] theorem onObj_spn : (onObj s k f).spn = s.spn := rfl
@[simp] theorem onObj_srv : (onObj s k f).srv = s.srv := rfl
@[simp] theorem onObj_seq : (onObj s k f).seq = s.seq := rfl
@[simp] theorem onObj_chan : (onObj s k f).chan = s.chan := rfl
@[simp] theorem onObj_grt : (onObj s k f).grt = s.grt := rfl
@[simp] theorem onObj_reqs : (onObj s k f).reqs = s.reqs := rfl
@[simp] theorem onObj_wrt : (onObj s k f).wrt = s.wrt := rfl
@[simp] theorem onObj_str : (onObj s k f).str = s.str := rfl
@[simp] theorem onObj_media : (onObj s k f).media = s.media := rfl
@[simp] theorem onObj_stg : (onObj s k f).stg = s.stg := rfl
@[simp] theorem onObj_hob : (onObj s k f).hob = s.hob := rfl
@[simp] theorem onObj_cch : (onObj s k f).cch = s.cch := rfl
@[simp] theorem onObj_flu : (onObj s k f).flu = s.flu := rfl
@[simp] theorem onObj_drm : (onObj s k f).drm = s.drm := rfl
@[simp] theorem onObj_zns : (onObj s k f).zns = s.zns := rfl
@[simp] theorem onObj_ember : (onObj s k f).ember = s.ember := rfl
@[simp] theorem onObj_mop : (onObj s k f).mop = s.mop := rfl
@[simp] theorem onObj_sec : (onObj s k f).sec = s.sec := rfl
@[simp] theorem onObj_fw : (onObj s k f).fw = s.fw := rfl
@[simp] theorem onObj_cyz : (onObj s k f).cyz = s.cyz := rfl
@[simp] theorem onObj_host : (onObj s k f).host = s.host := rfl
@[simp] theorem onObj_prof : (onObj s k f).prof = s.prof := rfl
@[simp] theorem onObj_obj_nextId : (onObj s k f).obj.nextId = s.obj.nextId := rfl
@[simp] theorem onObj_obj_slots : (onObj s k f).obj.slots = s.obj.slots := rfl
@[simp] theorem onObj_obj_streams : (onObj s k f).obj.streams = s.obj.streams := rfl
@[simp] theorem onObj_obj_clock : (onObj s k f).obj.clock = s.obj.clock := rfl
@[simp] theorem onObj_obj_damage : (onObj s k f).obj.damage = s.obj.damage := rfl
@[simp] theorem onObj_obj_damagedLeaves : (onObj s k f).obj.damagedLeaves = s.obj.damagedLeaves := rfl
end

section
variable (n : Nat) (f : FluCh → FluCh)
@[simp] theorem onFlu_pending : (onFlu s n f).pending = s.pending := rfl
@[simp] theorem onFlu_time : (onFlu s n f).time = s.time := rfl
@[simp] theorem onFlu_freeCtr : (onFlu s n f).freeCtr = s.freeCtr := rfl
@[simp] theorem onFlu_reg : (onFlu s n f).reg = s.reg := rfl
@[simp] theorem onFlu_flt : (onFlu s n f).flt = s.flt := rfl
@[simp] theorem onFlu_ash : (onFlu s n f).ash = s.ash := rfl
@[simp] theorem onFlu_pwr : (onFlu s n f).pwr = s.pwr := rfl
@[simp] theorem onFlu_cal : (onFlu s n f).cal = s.cal := rfl
@[simp] theorem onFlu_spn : (onFlu s n f).spn = s.spn := rfl
@[simp] theorem onFlu_srv : (onFlu s n f).srv = s.srv := rfl
@[simp] theorem onFlu_seq : (onFlu s n f).seq = s.seq := rfl
@[simp] theorem onFlu_chan : (onFlu s n f).chan = s.chan := rfl
@[simp] theorem onFlu_grt : (onFlu s n f).grt = s.grt := rfl
@[simp] theorem onFlu_reqs : (onFlu s n f).reqs = s.reqs := rfl
@[simp] theorem onFlu_wrt : (onFlu s n f).wrt = s.wrt := rfl
@[simp] theorem onFlu_str : (onFlu s n f).str = s.str := rfl
@[simp] theorem onFlu_media : (onFlu s n f).media = s.media := rfl
@[simp] theorem onFlu_stg : (onFlu s n f).stg = s.stg := rfl
@[simp] theorem onFlu_hob : (onFlu s n f).hob = s.hob := rfl
@[simp] theorem onFlu_cch : (onFlu s n f).cch = s.cch := rfl
@[simp] theorem onFlu_drm : (onFlu s n f).drm = s.drm := rfl
@[simp] theorem onFlu_obj : (onFlu s n f).obj = s.obj := rfl
@[simp] theorem onFlu_zns : (onFlu s n f).zns = s.zns := rfl
@[simp] theorem onFlu_ember : (onFlu s n f).ember = s.ember := rfl
@[simp] theorem onFlu_mop : (onFlu s n f).mop = s.mop := rfl
@[simp] theorem onFlu_sec : (onFlu s n f).sec = s.sec := rfl
@[simp] theorem onFlu_fw : (onFlu s n f).fw = s.fw := rfl
@[simp] theorem onFlu_cyz : (onFlu s n f).cyz = s.cyz := rfl
@[simp] theorem onFlu_host : (onFlu s n f).host = s.host := rfl
@[simp] theorem onFlu_prof : (onFlu s n f).prof = s.prof := rfl
@[simp] theorem onFlu_flu_stopped : (onFlu s n f).flu.stopped = s.flu.stopped := rfl
@[simp] theorem onFlu_flu_events : (onFlu s n f).flu.events = s.flu.events := rfl
@[simp] theorem onFlu_flu_alone : (onFlu s n f).flu.alone = s.flu.alone := rfl
@[simp] theorem onFlu_flu_again : (onFlu s n f).flu.again = s.flu.again := rfl
end

section
variable (g : Nat) (f : Grate → Grate)
@[simp] theorem onGrate_pending : (onGrate s g f).pending = s.pending := rfl
@[simp] theorem onGrate_time : (onGrate s g f).time = s.time := rfl
@[simp] theorem onGrate_freeCtr : (onGrate s g f).freeCtr = s.freeCtr := rfl
@[simp] theorem onGrate_reg : (onGrate s g f).reg = s.reg := rfl
@[simp] theorem onGrate_flt : (onGrate s g f).flt = s.flt := rfl
@[simp] theorem onGrate_ash : (onGrate s g f).ash = s.ash := rfl
@[simp] theorem onGrate_pwr : (onGrate s g f).pwr = s.pwr := rfl
@[simp] theorem onGrate_cal : (onGrate s g f).cal = s.cal := rfl
@[simp] theorem onGrate_spn : (onGrate s g f).spn = s.spn := rfl
@[simp] theorem onGrate_srv : (onGrate s g f).srv = s.srv := rfl
@[simp] theorem onGrate_seq : (onGrate s g f).seq = s.seq := rfl
@[simp] theorem onGrate_chan : (onGrate s g f).chan = s.chan := rfl
@[simp] theorem onGrate_reqs : (onGrate s g f).reqs = s.reqs := rfl
@[simp] theorem onGrate_wrt : (onGrate s g f).wrt = s.wrt := rfl
@[simp] theorem onGrate_str : (onGrate s g f).str = s.str := rfl
@[simp] theorem onGrate_media : (onGrate s g f).media = s.media := rfl
@[simp] theorem onGrate_stg : (onGrate s g f).stg = s.stg := rfl
@[simp] theorem onGrate_hob : (onGrate s g f).hob = s.hob := rfl
@[simp] theorem onGrate_cch : (onGrate s g f).cch = s.cch := rfl
@[simp] theorem onGrate_flu : (onGrate s g f).flu = s.flu := rfl
@[simp] theorem onGrate_drm : (onGrate s g f).drm = s.drm := rfl
@[simp] theorem onGrate_obj : (onGrate s g f).obj = s.obj := rfl
@[simp] theorem onGrate_zns : (onGrate s g f).zns = s.zns := rfl
@[simp] theorem onGrate_ember : (onGrate s g f).ember = s.ember := rfl
@[simp] theorem onGrate_mop : (onGrate s g f).mop = s.mop := rfl
@[simp] theorem onGrate_sec : (onGrate s g f).sec = s.sec := rfl
@[simp] theorem onGrate_fw : (onGrate s g f).fw = s.fw := rfl
@[simp] theorem onGrate_cyz : (onGrate s g f).cyz = s.cyz := rfl
@[simp] theorem onGrate_host : (onGrate s g f).host = s.host := rfl
@[simp] theorem onGrate_prof : (onGrate s g f).prof = s.prof := rfl
@[simp] theorem onGrate_grt_queue : (onGrate s g f).grt.queue = s.grt.queue := rfl
@[simp] theorem onGrate_grt_last : (onGrate s g f).grt.last = s.grt.last := rfl
@[simp] theorem onGrate_grt_enter1 : (onGrate s g f).grt.enter1 = s.grt.enter1 := rfl
@[simp] theorem onGrate_grt_enter2 : (onGrate s g f).grt.enter2 = s.grt.enter2 := rfl
@[simp] theorem onGrate_grt_enter3 : (onGrate s g f).grt.enter3 = s.grt.enter3 := rfl
@[simp] theorem onGrate_grt_enter4 : (onGrate s g f).grt.enter4 = s.grt.enter4 := rfl
@[simp] theorem onGrate_grt_miscor : (onGrate s g f).grt.miscor = s.grt.miscor := rfl
@[simp] theorem onGrate_grt_ceCnt : (onGrate s g f).grt.ceCnt = s.grt.ceCnt := rfl
@[simp] theorem onGrate_grt_ceLog : (onGrate s g f).grt.ceLog = s.grt.ceLog := rfl
@[simp] theorem onGrate_grt_busy : (onGrate s g f).grt.busy = s.grt.busy := rfl
@[simp] theorem onGrate_grt_flipRes : (onGrate s g f).grt.flipRes = s.grt.flipRes := rfl
@[simp] theorem onGrate_grt_flipNext : (onGrate s g f).grt.flipNext = s.grt.flipNext := rfl
@[simp] theorem onGrate_grt_flipRepeat : (onGrate s g f).grt.flipRepeat = s.grt.flipRepeat := rfl
end

section
variable (id : ReqId) (i : Nat) (f : ReqLeaf → ReqLeaf)
@[simp] theorem onLeaf_pending : (onLeaf s id i f).pending = s.pending := rfl
@[simp] theorem onLeaf_time : (onLeaf s id i f).time = s.time := rfl
@[simp] theorem onLeaf_freeCtr : (onLeaf s id i f).freeCtr = s.freeCtr := rfl
@[simp] theorem onLeaf_reg : (onLeaf s id i f).reg = s.reg := rfl
@[simp] theorem onLeaf_flt : (onLeaf s id i f).flt = s.flt := rfl
@[simp] theorem onLeaf_ash : (onLeaf s id i f).ash = s.ash := rfl
@[simp] theorem onLeaf_pwr : (onLeaf s id i f).pwr = s.pwr := rfl
@[simp] theorem onLeaf_cal : (onLeaf s id i f).cal = s.cal := rfl
@[simp] theorem onLeaf_spn : (onLeaf s id i f).spn = s.spn := rfl
@[simp] theorem onLeaf_srv : (onLeaf s id i f).srv = s.srv := rfl
@[simp] theorem onLeaf_seq : (onLeaf s id i f).seq = s.seq := rfl
@[simp] theorem onLeaf_chan : (onLeaf s id i f).chan = s.chan := rfl
@[simp] theorem onLeaf_grt : (onLeaf s id i f).grt = s.grt := rfl
@[simp] theorem onLeaf_wrt : (onLeaf s id i f).wrt = s.wrt := rfl
@[simp] theorem onLeaf_str : (onLeaf s id i f).str = s.str := rfl
@[simp] theorem onLeaf_media : (onLeaf s id i f).media = s.media := rfl
@[simp] theorem onLeaf_stg : (onLeaf s id i f).stg = s.stg := rfl
@[simp] theorem onLeaf_hob : (onLeaf s id i f).hob = s.hob := rfl
@[simp] theorem onLeaf_cch : (onLeaf s id i f).cch = s.cch := rfl
@[simp] theorem onLeaf_flu : (onLeaf s id i f).flu = s.flu := rfl
@[simp] theorem onLeaf_drm : (onLeaf s id i f).drm = s.drm := rfl
@[simp] theorem onLeaf_obj : (onLeaf s id i f).obj = s.obj := rfl
@[simp] theorem onLeaf_zns : (onLeaf s id i f).zns = s.zns := rfl
@[simp] theorem onLeaf_ember : (onLeaf s id i f).ember = s.ember := rfl
@[simp] theorem onLeaf_mop : (onLeaf s id i f).mop = s.mop := rfl
@[simp] theorem onLeaf_sec : (onLeaf s id i f).sec = s.sec := rfl
@[simp] theorem onLeaf_fw : (onLeaf s id i f).fw = s.fw := rfl
@[simp] theorem onLeaf_cyz : (onLeaf s id i f).cyz = s.cyz := rfl
@[simp] theorem onLeaf_host : (onLeaf s id i f).host = s.host := rfl
@[simp] theorem onLeaf_prof : (onLeaf s id i f).prof = s.prof := rfl
end

section
variable (f : MediaProgress → MediaProgress)
@[simp] theorem onMop_pending : (onMop s f).pending = s.pending := rfl
@[simp] theorem onMop_time : (onMop s f).time = s.time := rfl
@[simp] theorem onMop_freeCtr : (onMop s f).freeCtr = s.freeCtr := rfl
@[simp] theorem onMop_reg : (onMop s f).reg = s.reg := rfl
@[simp] theorem onMop_flt : (onMop s f).flt = s.flt := rfl
@[simp] theorem onMop_ash : (onMop s f).ash = s.ash := rfl
@[simp] theorem onMop_pwr : (onMop s f).pwr = s.pwr := rfl
@[simp] theorem onMop_cal : (onMop s f).cal = s.cal := rfl
@[simp] theorem onMop_spn : (onMop s f).spn = s.spn := rfl
@[simp] theorem onMop_srv : (onMop s f).srv = s.srv := rfl
@[simp] theorem onMop_seq : (onMop s f).seq = s.seq := rfl
@[simp] theorem onMop_chan : (onMop s f).chan = s.chan := rfl
@[simp] theorem onMop_grt : (onMop s f).grt = s.grt := rfl
@[simp] theorem onMop_reqs : (onMop s f).reqs = s.reqs := rfl
@[simp] theorem onMop_wrt : (onMop s f).wrt = s.wrt := rfl
@[simp] theorem onMop_str : (onMop s f).str = s.str := rfl
@[simp] theorem onMop_media : (onMop s f).media = s.media := rfl
@[simp] theorem onMop_stg : (onMop s f).stg = s.stg := rfl
@[simp] theorem onMop_hob : (onMop s f).hob = s.hob := rfl
@[simp] theorem onMop_cch : (onMop s f).cch = s.cch := rfl
@[simp] theorem onMop_flu : (onMop s f).flu = s.flu := rfl
@[simp] theorem onMop_drm : (onMop s f).drm = s.drm := rfl
@[simp] theorem onMop_obj : (onMop s f).obj = s.obj := rfl
@[simp] theorem onMop_zns : (onMop s f).zns = s.zns := rfl
@[simp] theorem onMop_ember : (onMop s f).ember = s.ember := rfl
@[simp] theorem onMop_sec : (onMop s f).sec = s.sec := rfl
@[simp] theorem onMop_fw : (onMop s f).fw = s.fw := rfl
@[simp] theorem onMop_cyz : (onMop s f).cyz = s.cyz := rfl
@[simp] theorem onMop_host : (onMop s f).host = s.host := rfl
@[simp] theorem onMop_prof : (onMop s f).prof = s.prof := rfl
@[simp] theorem onMop_mop_erase : (onMop s f).mop.erase = s.mop.erase := rfl
@[simp] theorem onMop_mop_sanitize : (onMop s f).mop.sanitize = s.mop.sanitize := rfl
end

section
variable (a : Nat) (f : ChanAct → ChanAct)
@[simp] theorem onChan_pending : (onChan s a f).pending = s.pending := rfl
@[simp] theorem onChan_time : (onChan s a f).time = s.time := rfl
@[simp] theorem onChan_freeCtr : (onChan s a f).freeCtr = s.freeCtr := rfl
@[simp] theorem onChan_reg : (onChan s a f).reg = s.reg := rfl
@[simp] theorem onChan_flt : (onChan s a f).flt = s.flt := rfl
@[simp] theorem onChan_ash : (onChan s a f).ash = s.ash := rfl
@[simp] theorem onChan_pwr : (onChan s a f).pwr = s.pwr := rfl
@[simp] theorem onChan_cal : (onChan s a f).cal = s.cal := rfl
@[simp] theorem onChan_spn : (onChan s a f).spn = s.spn := rfl
@[simp] theorem onChan_srv : (onChan s a f).srv = s.srv := rfl
@[simp] theorem onChan_seq : (onChan s a f).seq = s.seq := rfl
@[simp] theorem onChan_grt : (onChan s a f).grt = s.grt := rfl
@[simp] theorem onChan_reqs : (onChan s a f).reqs = s.reqs := rfl
@[simp] theorem onChan_wrt : (onChan s a f).wrt = s.wrt := rfl
@[simp] theorem onChan_str : (onChan s a f).str = s.str := rfl
@[simp] theorem onChan_media : (onChan s a f).media = s.media := rfl
@[simp] theorem onChan_stg : (onChan s a f).stg = s.stg := rfl
@[simp] theorem onChan_hob : (onChan s a f).hob = s.hob := rfl
@[simp] theorem onChan_cch : (onChan s a f).cch = s.cch := rfl
@[simp] theorem onChan_flu : (onChan s a f).flu = s.flu := rfl
@[simp] theorem onChan_drm : (onChan s a f).drm = s.drm := rfl
@[simp] theorem onChan_obj : (onChan s a f).obj = s.obj := rfl
@[simp] theorem onChan_zns : (onChan s a f).zns = s.zns := rfl
@[simp] theorem onChan_ember : (onChan s a f).ember = s.ember := rfl
@[simp] theorem onChan_mop : (onChan s a f).mop = s.mop := rfl
@[simp] theorem onChan_sec : (onChan s a f).sec = s.sec := rfl
@[simp] theorem onChan_fw : (onChan s a f).fw = s.fw := rfl
@[simp] theorem onChan_cyz : (onChan s a f).cyz = s.cyz := rfl
@[simp] theorem onChan_host : (onChan s a f).host = s.host := rfl
@[simp] theorem onChan_prof : (onChan s a f).prof = s.prof := rfl
@[simp] theorem onChan_chan_lane : (onChan s a f).chan.lane = s.chan.lane := rfl
@[simp] theorem onChan_chan_spare : (onChan s a f).chan.spare = s.chan.spare := rfl
@[simp] theorem onChan_chan_saved : (onChan s a f).chan.saved = s.chan.saved := rfl
@[simp] theorem onChan_chan_badReader : (onChan s a f).chan.badReader = s.chan.badReader := rfl
@[simp] theorem onChan_chan_lostAt : (onChan s a f).chan.lostAt = s.chan.lostAt := rfl
@[simp] theorem onChan_chan_spans : (onChan s a f).chan.spans = s.chan.spans := rfl
@[simp] theorem onChan_chan_nextCal : (onChan s a f).chan.nextCal = s.chan.nextCal := rfl
@[simp] theorem onChan_chan_spinOn : (onChan s a f).chan.spinOn = s.chan.spinOn := rfl
end

section
variable (j : Nat) (f : SpareLane → SpareLane)
@[simp] theorem onSpare_pending : (onSpare s j f).pending = s.pending := rfl
@[simp] theorem onSpare_time : (onSpare s j f).time = s.time := rfl
@[simp] theorem onSpare_freeCtr : (onSpare s j f).freeCtr = s.freeCtr := rfl
@[simp] theorem onSpare_reg : (onSpare s j f).reg = s.reg := rfl
@[simp] theorem onSpare_flt : (onSpare s j f).flt = s.flt := rfl
@[simp] theorem onSpare_ash : (onSpare s j f).ash = s.ash := rfl
@[simp] theorem onSpare_pwr : (onSpare s j f).pwr = s.pwr := rfl
@[simp] theorem onSpare_cal : (onSpare s j f).cal = s.cal := rfl
@[simp] theorem onSpare_spn : (onSpare s j f).spn = s.spn := rfl
@[simp] theorem onSpare_srv : (onSpare s j f).srv = s.srv := rfl
@[simp] theorem onSpare_seq : (onSpare s j f).seq = s.seq := rfl
@[simp] theorem onSpare_grt : (onSpare s j f).grt = s.grt := rfl
@[simp] theorem onSpare_reqs : (onSpare s j f).reqs = s.reqs := rfl
@[simp] theorem onSpare_wrt : (onSpare s j f).wrt = s.wrt := rfl
@[simp] theorem onSpare_str : (onSpare s j f).str = s.str := rfl
@[simp] theorem onSpare_media : (onSpare s j f).media = s.media := rfl
@[simp] theorem onSpare_stg : (onSpare s j f).stg = s.stg := rfl
@[simp] theorem onSpare_hob : (onSpare s j f).hob = s.hob := rfl
@[simp] theorem onSpare_cch : (onSpare s j f).cch = s.cch := rfl
@[simp] theorem onSpare_flu : (onSpare s j f).flu = s.flu := rfl
@[simp] theorem onSpare_drm : (onSpare s j f).drm = s.drm := rfl
@[simp] theorem onSpare_obj : (onSpare s j f).obj = s.obj := rfl
@[simp] theorem onSpare_zns : (onSpare s j f).zns = s.zns := rfl
@[simp] theorem onSpare_ember : (onSpare s j f).ember = s.ember := rfl
@[simp] theorem onSpare_mop : (onSpare s j f).mop = s.mop := rfl
@[simp] theorem onSpare_sec : (onSpare s j f).sec = s.sec := rfl
@[simp] theorem onSpare_fw : (onSpare s j f).fw = s.fw := rfl
@[simp] theorem onSpare_cyz : (onSpare s j f).cyz = s.cyz := rfl
@[simp] theorem onSpare_host : (onSpare s j f).host = s.host := rfl
@[simp] theorem onSpare_prof : (onSpare s j f).prof = s.prof := rfl
@[simp] theorem onSpare_chan_act : (onSpare s j f).chan.act = s.chan.act := rfl
@[simp] theorem onSpare_chan_lane : (onSpare s j f).chan.lane = s.chan.lane := rfl
@[simp] theorem onSpare_chan_saved : (onSpare s j f).chan.saved = s.chan.saved := rfl
@[simp] theorem onSpare_chan_badReader : (onSpare s j f).chan.badReader = s.chan.badReader := rfl
@[simp] theorem onSpare_chan_lostAt : (onSpare s j f).chan.lostAt = s.chan.lostAt := rfl
@[simp] theorem onSpare_chan_spans : (onSpare s j f).chan.spans = s.chan.spans := rfl
@[simp] theorem onSpare_chan_nextCal : (onSpare s j f).chan.nextCal = s.chan.nextCal := rfl
@[simp] theorem onSpare_chan_spinOn : (onSpare s j f).chan.spinOn = s.chan.spinOn := rfl
end

section
variable (n : Nat) (f : Lane → Lane)
@[simp] theorem onLane_pending : (onLane s n f).pending = s.pending := rfl
@[simp] theorem onLane_time : (onLane s n f).time = s.time := rfl
@[simp] theorem onLane_freeCtr : (onLane s n f).freeCtr = s.freeCtr := rfl
@[simp] theorem onLane_reg : (onLane s n f).reg = s.reg := rfl
@[simp] theorem onLane_flt : (onLane s n f).flt = s.flt := rfl
@[simp] theorem onLane_ash : (onLane s n f).ash = s.ash := rfl
@[simp] theorem onLane_pwr : (onLane s n f).pwr = s.pwr := rfl
@[simp] theorem onLane_cal : (onLane s n f).cal = s.cal := rfl
@[simp] theorem onLane_spn : (onLane s n f).spn = s.spn := rfl
@[simp] theorem onLane_srv : (onLane s n f).srv = s.srv := rfl
@[simp] theorem onLane_seq : (onLane s n f).seq = s.seq := rfl
@[simp] theorem onLane_grt : (onLane s n f).grt = s.grt := rfl
@[simp] theorem onLane_reqs : (onLane s n f).reqs = s.reqs := rfl
@[simp] theorem onLane_wrt : (onLane s n f).wrt = s.wrt := rfl
@[simp] theorem onLane_str : (onLane s n f).str = s.str := rfl
@[simp] theorem onLane_media : (onLane s n f).media = s.media := rfl
@[simp] theorem onLane_stg : (onLane s n f).stg = s.stg := rfl
@[simp] theorem onLane_hob : (onLane s n f).hob = s.hob := rfl
@[simp] theorem onLane_cch : (onLane s n f).cch = s.cch := rfl
@[simp] theorem onLane_flu : (onLane s n f).flu = s.flu := rfl
@[simp] theorem onLane_drm : (onLane s n f).drm = s.drm := rfl
@[simp] theorem onLane_obj : (onLane s n f).obj = s.obj := rfl
@[simp] theorem onLane_zns : (onLane s n f).zns = s.zns := rfl
@[simp] theorem onLane_ember : (onLane s n f).ember = s.ember := rfl
@[simp] theorem onLane_mop : (onLane s n f).mop = s.mop := rfl
@[simp] theorem onLane_sec : (onLane s n f).sec = s.sec := rfl
@[simp] theorem onLane_fw : (onLane s n f).fw = s.fw := rfl
@[simp] theorem onLane_cyz : (onLane s n f).cyz = s.cyz := rfl
@[simp] theorem onLane_host : (onLane s n f).host = s.host := rfl
@[simp] theorem onLane_prof : (onLane s n f).prof = s.prof := rfl
@[simp] theorem onLane_chan_act : (onLane s n f).chan.act = s.chan.act := rfl
@[simp] theorem onLane_chan_spare : (onLane s n f).chan.spare = s.chan.spare := rfl
@[simp] theorem onLane_chan_saved : (onLane s n f).chan.saved = s.chan.saved := rfl
@[simp] theorem onLane_chan_badReader : (onLane s n f).chan.badReader = s.chan.badReader := rfl
@[simp] theorem onLane_chan_lostAt : (onLane s n f).chan.lostAt = s.chan.lostAt := rfl
@[simp] theorem onLane_chan_spans : (onLane s n f).chan.spans = s.chan.spans := rfl
@[simp] theorem onLane_chan_nextCal : (onLane s n f).chan.nextCal = s.chan.nextCal := rfl
@[simp] theorem onLane_chan_spinOn : (onLane s n f).chan.spinOn = s.chan.spinOn := rfl
end

section
variable (b : Nat) (f : BlkCtl → BlkCtl)
@[simp] theorem onBlk_pending : (onBlk s b f).pending = s.pending := rfl
@[simp] theorem onBlk_time : (onBlk s b f).time = s.time := rfl
@[simp] theorem onBlk_freeCtr : (onBlk s b f).freeCtr = s.freeCtr := rfl
@[simp] theorem onBlk_flt : (onBlk s b f).flt = s.flt := rfl
@[simp] theorem onBlk_ash : (onBlk s b f).ash = s.ash := rfl
@[simp] theorem onBlk_pwr : (onBlk s b f).pwr = s.pwr := rfl
@[simp] theorem onBlk_cal : (onBlk s b f).cal = s.cal := rfl
@[simp] theorem onBlk_spn : (onBlk s b f).spn = s.spn := rfl
@[simp] theorem onBlk_srv : (onBlk s b f).srv = s.srv := rfl
@[simp] theorem onBlk_seq : (onBlk s b f).seq = s.seq := rfl
@[simp] theorem onBlk_chan : (onBlk s b f).chan = s.chan := rfl
@[simp] theorem onBlk_grt : (onBlk s b f).grt = s.grt := rfl
@[simp] theorem onBlk_reqs : (onBlk s b f).reqs = s.reqs := rfl
@[simp] theorem onBlk_wrt : (onBlk s b f).wrt = s.wrt := rfl
@[simp] theorem onBlk_str : (onBlk s b f).str = s.str := rfl
@[simp] theorem onBlk_media : (onBlk s b f).media = s.media := rfl
@[simp] theorem onBlk_stg : (onBlk s b f).stg = s.stg := rfl
@[simp] theorem onBlk_hob : (onBlk s b f).hob = s.hob := rfl
@[simp] theorem onBlk_cch : (onBlk s b f).cch = s.cch := rfl
@[simp] theorem onBlk_flu : (onBlk s b f).flu = s.flu := rfl
@[simp] theorem onBlk_drm : (onBlk s b f).drm = s.drm := rfl
@[simp] theorem onBlk_obj : (onBlk s b f).obj = s.obj := rfl
@[simp] theorem onBlk_zns : (onBlk s b f).zns = s.zns := rfl
@[simp] theorem onBlk_ember : (onBlk s b f).ember = s.ember := rfl
@[simp] theorem onBlk_mop : (onBlk s b f).mop = s.mop := rfl
@[simp] theorem onBlk_sec : (onBlk s b f).sec = s.sec := rfl
@[simp] theorem onBlk_fw : (onBlk s b f).fw = s.fw := rfl
@[simp] theorem onBlk_cyz : (onBlk s b f).cyz = s.cyz := rfl
@[simp] theorem onBlk_host : (onBlk s b f).host = s.host := rfl
@[simp] theorem onBlk_prof : (onBlk s b f).prof = s.prof := rfl
@[simp] theorem onBlk_reg_ck : (onBlk s b f).reg.ck = s.reg.ck := rfl
@[simp] theorem onBlk_reg_flipCtl : (onBlk s b f).reg.flipCtl = s.reg.flipCtl := rfl
@[simp] theorem onBlk_reg_flipPos : (onBlk s b f).reg.flipPos = s.reg.flipPos := rfl
@[simp] theorem onBlk_reg_hobFlip : (onBlk s b f).reg.hobFlip = s.reg.hobFlip := rfl
@[simp] theorem onBlk_reg_hobMlo : (onBlk s b f).reg.hobMlo = s.reg.hobMlo := rfl
@[simp] theorem onBlk_reg_hobMhi : (onBlk s b f).reg.hobMhi = s.reg.hobMhi := rfl
@[simp] theorem onBlk_reg_inj : (onBlk s b f).reg.inj = s.reg.inj := rfl
@[simp] theorem onBlk_reg_crcRef : (onBlk s b f).reg.crcRef = s.reg.crcRef := rfl
@[simp] theorem onBlk_reg_overlay : (onBlk s b f).reg.overlay = s.reg.overlay := rfl
@[simp] theorem onBlk_reg_profCk : (onBlk s b f).reg.profCk = s.reg.profCk := rfl
@[simp] theorem onBlk_reg_editEnd : (onBlk s b f).reg.editEnd = s.reg.editEnd := rfl
@[simp] theorem onBlk_reg_reloads : (onBlk s b f).reg.reloads = s.reg.reloads := rfl
@[simp] theorem onBlk_reg_lastCompare : (onBlk s b f).reg.lastCompare = s.reg.lastCompare := rfl
@[simp] theorem onBlk_reg_caps : (onBlk s b f).reg.caps = s.reg.caps := rfl
@[simp] theorem onBlk_reg_rdata : (onBlk s b f).reg.rdata = s.reg.rdata := rfl
end

section
variable (n : Nat) (f : Sqr → Sqr)
@[simp] theorem onSq_pending : (onSq s n f).pending = s.pending := rfl
@[simp] theorem onSq_time : (onSq s n f).time = s.time := rfl
@[simp] theorem onSq_freeCtr : (onSq s n f).freeCtr = s.freeCtr := rfl
@[simp] theorem onSq_reg : (onSq s n f).reg = s.reg := rfl
@[simp] theorem onSq_flt : (onSq s n f).flt = s.flt := rfl
@[simp] theorem onSq_ash : (onSq s n f).ash = s.ash := rfl
@[simp] theorem onSq_pwr : (onSq s n f).pwr = s.pwr := rfl
@[simp] theorem onSq_cal : (onSq s n f).cal = s.cal := rfl
@[simp] theorem onSq_spn : (onSq s n f).spn = s.spn := rfl
@[simp] theorem onSq_srv : (onSq s n f).srv = s.srv := rfl
@[simp] theorem onSq_chan : (onSq s n f).chan = s.chan := rfl
@[simp] theorem onSq_grt : (onSq s n f).grt = s.grt := rfl
@[simp] theorem onSq_reqs : (onSq s n f).reqs = s.reqs := rfl
@[simp] theorem onSq_wrt : (onSq s n f).wrt = s.wrt := rfl
@[simp] theorem onSq_str : (onSq s n f).str = s.str := rfl
@[simp] theorem onSq_media : (onSq s n f).media = s.media := rfl
@[simp] theorem onSq_stg : (onSq s n f).stg = s.stg := rfl
@[simp] theorem onSq_hob : (onSq s n f).hob = s.hob := rfl
@[simp] theorem onSq_cch : (onSq s n f).cch = s.cch := rfl
@[simp] theorem onSq_flu : (onSq s n f).flu = s.flu := rfl
@[simp] theorem onSq_drm : (onSq s n f).drm = s.drm := rfl
@[simp] theorem onSq_obj : (onSq s n f).obj = s.obj := rfl
@[simp] theorem onSq_zns : (onSq s n f).zns = s.zns := rfl
@[simp] theorem onSq_ember : (onSq s n f).ember = s.ember := rfl
@[simp] theorem onSq_mop : (onSq s n f).mop = s.mop := rfl
@[simp] theorem onSq_sec : (onSq s n f).sec = s.sec := rfl
@[simp] theorem onSq_fw : (onSq s n f).fw = s.fw := rfl
@[simp] theorem onSq_cyz : (onSq s n f).cyz = s.cyz := rfl
@[simp] theorem onSq_host : (onSq s n f).host = s.host := rfl
@[simp] theorem onSq_prof : (onSq s n f).prof = s.prof := rfl
@[simp] theorem onSq_seq_switchReq : (onSq s n f).seq.switchReq = s.seq.switchReq := rfl
@[simp] theorem onSq_seq_switches : (onSq s n f).seq.switches = s.seq.switches := rfl
@[simp] theorem onSq_seq_ringMapCopy : (onSq s n f).seq.ringMapCopy = s.seq.ringMapCopy := rfl
@[simp] theorem onSq_seq_master : (onSq s n f).seq.master = s.seq.master := rfl
@[simp] theorem onSq_seq_prevMaster : (onSq s n f).seq.prevMaster = s.seq.prevMaster := rfl
@[simp] theorem onSq_seq_masterBase : (onSq s n f).seq.masterBase = s.seq.masterBase := rfl
@[simp] theorem onSq_seq_masterPatch : (onSq s n f).seq.masterPatch = s.seq.masterPatch := rfl
@[simp] theorem onSq_seq_prevPatch : (onSq s n f).seq.prevPatch = s.seq.prevPatch := rfl
@[simp] theorem onSq_seq_patching : (onSq s n f).seq.patching = s.seq.patching := rfl
@[simp] theorem onSq_seq_undoing : (onSq s n f).seq.undoing = s.seq.undoing := rfl
@[simp] theorem onSq_seq_patchCut : (onSq s n f).seq.patchCut = s.seq.patchCut := rfl
@[simp] theorem onSq_seq_patchReason : (onSq s n f).seq.patchReason = s.seq.patchReason := rfl
@[simp] theorem onSq_seq_kept : (onSq s n f).seq.kept = s.seq.kept := rfl
@[simp] theorem onSq_seq_bgTime : (onSq s n f).seq.bgTime = s.seq.bgTime := rfl
end

section
variable (a : Nat) (f : Loop → Loop)
@[simp] theorem onLoop_pending : (onLoop s a f).pending = s.pending := rfl
@[simp] theorem onLoop_time : (onLoop s a f).time = s.time := rfl
@[simp] theorem onLoop_freeCtr : (onLoop s a f).freeCtr = s.freeCtr := rfl
@[simp] theorem onLoop_reg : (onLoop s a f).reg = s.reg := rfl
@[simp] theorem onLoop_flt : (onLoop s a f).flt = s.flt := rfl
@[simp] theorem onLoop_ash : (onLoop s a f).ash = s.ash := rfl
@[simp] theorem onLoop_pwr : (onLoop s a f).pwr = s.pwr := rfl
@[simp] theorem onLoop_cal : (onLoop s a f).cal = s.cal := rfl
@[simp] theorem onLoop_spn : (onLoop s a f).spn = s.spn := rfl
@[simp] theorem onLoop_seq : (onLoop s a f).seq = s.seq := rfl
@[simp] theorem onLoop_chan : (onLoop s a f).chan = s.chan := rfl
@[simp] theorem onLoop_grt : (onLoop s a f).grt = s.grt := rfl
@[simp] theorem onLoop_reqs : (onLoop s a f).reqs = s.reqs := rfl
@[simp] theorem onLoop_wrt : (onLoop s a f).wrt = s.wrt := rfl
@[simp] theorem onLoop_str : (onLoop s a f).str = s.str := rfl
@[simp] theorem onLoop_media : (onLoop s a f).media = s.media := rfl
@[simp] theorem onLoop_stg : (onLoop s a f).stg = s.stg := rfl
@[simp] theorem onLoop_hob : (onLoop s a f).hob = s.hob := rfl
@[simp] theorem onLoop_cch : (onLoop s a f).cch = s.cch := rfl
@[simp] theorem onLoop_flu : (onLoop s a f).flu = s.flu := rfl
@[simp] theorem onLoop_drm : (onLoop s a f).drm = s.drm := rfl
@[simp] theorem onLoop_obj : (onLoop s a f).obj = s.obj := rfl
@[simp] theorem onLoop_zns : (onLoop s a f).zns = s.zns := rfl
@[simp] theorem onLoop_ember : (onLoop s a f).ember = s.ember := rfl
@[simp] theorem onLoop_mop : (onLoop s a f).mop = s.mop := rfl
@[simp] theorem onLoop_sec : (onLoop s a f).sec = s.sec := rfl
@[simp] theorem onLoop_fw : (onLoop s a f).fw = s.fw := rfl
@[simp] theorem onLoop_cyz : (onLoop s a f).cyz = s.cyz := rfl
@[simp] theorem onLoop_host : (onLoop s a f).host = s.host := rfl
@[simp] theorem onLoop_prof : (onLoop s a f).prof = s.prof := rfl
@[simp] theorem onLoop_srv_serves : (onLoop s a f).srv.serves = s.srv.serves := rfl
@[simp] theorem onLoop_srv_stale : (onLoop s a f).srv.stale = s.srv.stale := rfl
@[simp] theorem onLoop_srv_missed : (onLoop s a f).srv.missed = s.srv.missed := rfl
@[simp] theorem onLoop_srv_lostCnt : (onLoop s a f).srv.lostCnt = s.srv.lostCnt := rfl
@[simp] theorem onLoop_srv_shockCnt : (onLoop s a f).srv.shockCnt = s.srv.shockCnt := rfl
@[simp] theorem onLoop_srv_meanOver : (onLoop s a f).srv.meanOver = s.srv.meanOver := rfl
@[simp] theorem onLoop_srv_mirrorN : (onLoop s a f).srv.mirrorN = s.srv.mirrorN := rfl
@[simp] theorem onLoop_srv_mirror : (onLoop s a f).srv.mirror = s.srv.mirror := rfl
@[simp] theorem onLoop_srv_mirrorSpn : (onLoop s a f).srv.mirrorSpn = s.srv.mirrorSpn := rfl
@[simp] theorem onLoop_srv_coefs : (onLoop s a f).srv.coefs = s.srv.coefs := rfl
@[simp] theorem onLoop_srv_shock : (onLoop s a f).srv.shock = s.srv.shock := rfl
@[simp] theorem onLoop_srv_calmSince : (onLoop s a f).srv.calmSince = s.srv.calmSince := rfl
@[simp] theorem onLoop_srv_accOut : (onLoop s a f).srv.accOut = s.srv.accOut := rfl
@[simp] theorem onLoop_srv_accFull : (onLoop s a f).srv.accFull = s.srv.accFull := rfl
@[simp] theorem onLoop_srv_accCal : (onLoop s a f).srv.accCal = s.srv.accCal := rfl
@[simp] theorem onLoop_srv_alphaSq : (onLoop s a f).srv.alphaSq = s.srv.alphaSq := rfl
@[simp] theorem onLoop_srv_alpha : (onLoop s a f).srv.alpha = s.srv.alpha := rfl
@[simp] theorem onLoop_srv_rvRms : (onLoop s a f).srv.rvRms = s.srv.rvRms := rfl
@[simp] theorem onLoop_srv_rvStale : (onLoop s a f).srv.rvStale = s.srv.rvStale := rfl
end

section
variable (u : Nat) (f : StagedLeaf → StagedLeaf)
@[simp] theorem onStaged_pending : (onStaged s u f).pending = s.pending := rfl
@[simp] theorem onStaged_time : (onStaged s u f).time = s.time := rfl
@[simp] theorem onStaged_freeCtr : (onStaged s u f).freeCtr = s.freeCtr := rfl
@[simp] theorem onStaged_reg : (onStaged s u f).reg = s.reg := rfl
@[simp] theorem onStaged_flt : (onStaged s u f).flt = s.flt := rfl
@[simp] theorem onStaged_ash : (onStaged s u f).ash = s.ash := rfl
@[simp] theorem onStaged_pwr : (onStaged s u f).pwr = s.pwr := rfl
@[simp] theorem onStaged_cal : (onStaged s u f).cal = s.cal := rfl
@[simp] theorem onStaged_spn : (onStaged s u f).spn = s.spn := rfl
@[simp] theorem onStaged_srv : (onStaged s u f).srv = s.srv := rfl
@[simp] theorem onStaged_seq : (onStaged s u f).seq = s.seq := rfl
@[simp] theorem onStaged_chan : (onStaged s u f).chan = s.chan := rfl
@[simp] theorem onStaged_grt : (onStaged s u f).grt = s.grt := rfl
@[simp] theorem onStaged_reqs : (onStaged s u f).reqs = s.reqs := rfl
@[simp] theorem onStaged_wrt : (onStaged s u f).wrt = s.wrt := rfl
@[simp] theorem onStaged_str : (onStaged s u f).str = s.str := rfl
@[simp] theorem onStaged_media : (onStaged s u f).media = s.media := rfl
@[simp] theorem onStaged_hob : (onStaged s u f).hob = s.hob := rfl
@[simp] theorem onStaged_cch : (onStaged s u f).cch = s.cch := rfl
@[simp] theorem onStaged_flu : (onStaged s u f).flu = s.flu := rfl
@[simp] theorem onStaged_drm : (onStaged s u f).drm = s.drm := rfl
@[simp] theorem onStaged_obj : (onStaged s u f).obj = s.obj := rfl
@[simp] theorem onStaged_zns : (onStaged s u f).zns = s.zns := rfl
@[simp] theorem onStaged_ember : (onStaged s u f).ember = s.ember := rfl
@[simp] theorem onStaged_mop : (onStaged s u f).mop = s.mop := rfl
@[simp] theorem onStaged_sec : (onStaged s u f).sec = s.sec := rfl
@[simp] theorem onStaged_fw : (onStaged s u f).fw = s.fw := rfl
@[simp] theorem onStaged_cyz : (onStaged s u f).cyz = s.cyz := rfl
@[simp] theorem onStaged_host : (onStaged s u f).host = s.host := rfl
@[simp] theorem onStaged_prof : (onStaged s u f).prof = s.prof := rfl
@[simp] theorem onStaged_stg_slots : (onStaged s u f).stg.slots = s.stg.slots := rfl
@[simp] theorem onStaged_stg_slotsCopy : (onStaged s u f).stg.slotsCopy = s.stg.slotsCopy := rfl
@[simp] theorem onStaged_stg_parity : (onStaged s u f).stg.parity = s.stg.parity := rfl
@[simp] theorem onStaged_stg_nextUid : (onStaged s u f).stg.nextUid = s.stg.nextUid := rfl
@[simp] theorem onStaged_stg_nextOrder : (onStaged s u f).stg.nextOrder = s.stg.nextOrder := rfl
end

section
variable (i w : Nat) (f : Line → Line)
@[simp] theorem onLine_pending : (onLine s i w f).pending = s.pending := rfl
@[simp] theorem onLine_time : (onLine s i w f).time = s.time := rfl
@[simp] theorem onLine_freeCtr : (onLine s i w f).freeCtr = s.freeCtr := rfl
@[simp] theorem onLine_reg : (onLine s i w f).reg = s.reg := rfl
@[simp] theorem onLine_flt : (onLine s i w f).flt = s.flt := rfl
@[simp] theorem onLine_ash : (onLine s i w f).ash = s.ash := rfl
@[simp] theorem onLine_pwr : (onLine s i w f).pwr = s.pwr := rfl
@[simp] theorem onLine_cal : (onLine s i w f).cal = s.cal := rfl
@[simp] theorem onLine_spn : (onLine s i w f).spn = s.spn := rfl
@[simp] theorem onLine_srv : (onLine s i w f).srv = s.srv := rfl
@[simp] theorem onLine_seq : (onLine s i w f).seq = s.seq := rfl
@[simp] theorem onLine_chan : (onLine s i w f).chan = s.chan := rfl
@[simp] theorem onLine_grt : (onLine s i w f).grt = s.grt := rfl
@[simp] theorem onLine_reqs : (onLine s i w f).reqs = s.reqs := rfl
@[simp] theorem onLine_wrt : (onLine s i w f).wrt = s.wrt := rfl
@[simp] theorem onLine_str : (onLine s i w f).str = s.str := rfl
@[simp] theorem onLine_media : (onLine s i w f).media = s.media := rfl
@[simp] theorem onLine_stg : (onLine s i w f).stg = s.stg := rfl
@[simp] theorem onLine_hob : (onLine s i w f).hob = s.hob := rfl
@[simp] theorem onLine_flu : (onLine s i w f).flu = s.flu := rfl
@[simp] theorem onLine_drm : (onLine s i w f).drm = s.drm := rfl
@[simp] theorem onLine_obj : (onLine s i w f).obj = s.obj := rfl
@[simp] theorem onLine_zns : (onLine s i w f).zns = s.zns := rfl
@[simp] theorem onLine_ember : (onLine s i w f).ember = s.ember := rfl
@[simp] theorem onLine_mop : (onLine s i w f).mop = s.mop := rfl
@[simp] theorem onLine_sec : (onLine s i w f).sec = s.sec := rfl
@[simp] theorem onLine_fw : (onLine s i w f).fw = s.fw := rfl
@[simp] theorem onLine_cyz : (onLine s i w f).cyz = s.cyz := rfl
@[simp] theorem onLine_host : (onLine s i w f).host = s.host := rfl
@[simp] theorem onLine_prof : (onLine s i w f).prof = s.prof := rfl
@[simp] theorem onLine_cch_wayOff : (onLine s i w f).cch.wayOff = s.cch.wayOff := rfl
@[simp] theorem onLine_cch_lineOff : (onLine s i w f).cch.lineOff = s.cch.lineOff := rfl
@[simp] theorem onLine_cch_wayCe : (onLine s i w f).cch.wayCe = s.cch.wayCe := rfl
@[simp] theorem onLine_cch_lockNext : (onLine s i w f).cch.lockNext = s.cch.lockNext := rfl
@[simp] theorem onLine_cch_ceLog : (onLine s i w f).cch.ceLog = s.cch.ceLog := rfl
end

section
variable (a : Nat) (f : WrAct → WrAct)
@[simp] theorem onWr_pending : (onWr s a f).pending = s.pending := rfl
@[simp] theorem onWr_time : (onWr s a f).time = s.time := rfl
@[simp] theorem onWr_freeCtr : (onWr s a f).freeCtr = s.freeCtr := rfl
@[simp] theorem onWr_reg : (onWr s a f).reg = s.reg := rfl
@[simp] theorem onWr_flt : (onWr s a f).flt = s.flt := rfl
@[simp] theorem onWr_ash : (onWr s a f).ash = s.ash := rfl
@[simp] theorem onWr_pwr : (onWr s a f).pwr = s.pwr := rfl
@[simp] theorem onWr_cal : (onWr s a f).cal = s.cal := rfl
@[simp] theorem onWr_spn : (onWr s a f).spn = s.spn := rfl
@[simp] theorem onWr_srv : (onWr s a f).srv = s.srv := rfl
@[simp] theorem onWr_seq : (onWr s a f).seq = s.seq := rfl
@[simp] theorem onWr_chan : (onWr s a f).chan = s.chan := rfl
@[simp] theorem onWr_grt : (onWr s a f).grt = s.grt := rfl
@[simp] theorem onWr_reqs : (onWr s a f).reqs = s.reqs := rfl
@[simp] theorem onWr_str : (onWr s a f).str = s.str := rfl
@[simp] theorem onWr_media : (onWr s a f).media = s.media := rfl
@[simp] theorem onWr_stg : (onWr s a f).stg = s.stg := rfl
@[simp] theorem onWr_hob : (onWr s a f).hob = s.hob := rfl
@[simp] theorem onWr_cch : (onWr s a f).cch = s.cch := rfl
@[simp] theorem onWr_flu : (onWr s a f).flu = s.flu := rfl
@[simp] theorem onWr_drm : (onWr s a f).drm = s.drm := rfl
@[simp] theorem onWr_obj : (onWr s a f).obj = s.obj := rfl
@[simp] theorem onWr_zns : (onWr s a f).zns = s.zns := rfl
@[simp] theorem onWr_ember : (onWr s a f).ember = s.ember := rfl
@[simp] theorem onWr_mop : (onWr s a f).mop = s.mop := rfl
@[simp] theorem onWr_sec : (onWr s a f).sec = s.sec := rfl
@[simp] theorem onWr_fw : (onWr s a f).fw = s.fw := rfl
@[simp] theorem onWr_cyz : (onWr s a f).cyz = s.cyz := rfl
@[simp] theorem onWr_host : (onWr s a f).host = s.host := rfl
@[simp] theorem onWr_prof : (onWr s a f).prof = s.prof := rfl
@[simp] theorem onWr_wrt_queue : (onWr s a f).wrt.queue = s.wrt.queue := rfl
end

section
variable (m : Bool) (t st r : Nat) (b : List Byte) (l : Bool)
@[simp] theorem cyzUpdate_pending : (cyzUpdate s m t st r b l).pending = s.pending := rfl
@[simp] theorem cyzUpdate_time : (cyzUpdate s m t st r b l).time = s.time := rfl
@[simp] theorem cyzUpdate_freeCtr : (cyzUpdate s m t st r b l).freeCtr = s.freeCtr := rfl
@[simp] theorem cyzUpdate_reg : (cyzUpdate s m t st r b l).reg = s.reg := rfl
@[simp] theorem cyzUpdate_flt : (cyzUpdate s m t st r b l).flt = s.flt := rfl
@[simp] theorem cyzUpdate_ash : (cyzUpdate s m t st r b l).ash = s.ash := rfl
@[simp] theorem cyzUpdate_pwr : (cyzUpdate s m t st r b l).pwr = s.pwr := rfl
@[simp] theorem cyzUpdate_cal : (cyzUpdate s m t st r b l).cal = s.cal := rfl
@[simp] theorem cyzUpdate_spn : (cyzUpdate s m t st r b l).spn = s.spn := rfl
@[simp] theorem cyzUpdate_srv : (cyzUpdate s m t st r b l).srv = s.srv := rfl
@[simp] theorem cyzUpdate_seq : (cyzUpdate s m t st r b l).seq = s.seq := rfl
@[simp] theorem cyzUpdate_chan : (cyzUpdate s m t st r b l).chan = s.chan := rfl
@[simp] theorem cyzUpdate_grt : (cyzUpdate s m t st r b l).grt = s.grt := rfl
@[simp] theorem cyzUpdate_reqs : (cyzUpdate s m t st r b l).reqs = s.reqs := rfl
@[simp] theorem cyzUpdate_wrt : (cyzUpdate s m t st r b l).wrt = s.wrt := rfl
@[simp] theorem cyzUpdate_str : (cyzUpdate s m t st r b l).str = s.str := rfl
@[simp] theorem cyzUpdate_media : (cyzUpdate s m t st r b l).media = s.media := rfl
@[simp] theorem cyzUpdate_stg : (cyzUpdate s m t st r b l).stg = s.stg := rfl
@[simp] theorem cyzUpdate_hob : (cyzUpdate s m t st r b l).hob = s.hob := rfl
@[simp] theorem cyzUpdate_cch : (cyzUpdate s m t st r b l).cch = s.cch := rfl
@[simp] theorem cyzUpdate_flu : (cyzUpdate s m t st r b l).flu = s.flu := rfl
@[simp] theorem cyzUpdate_drm : (cyzUpdate s m t st r b l).drm = s.drm := rfl
@[simp] theorem cyzUpdate_obj : (cyzUpdate s m t st r b l).obj = s.obj := rfl
@[simp] theorem cyzUpdate_zns : (cyzUpdate s m t st r b l).zns = s.zns := rfl
@[simp] theorem cyzUpdate_ember : (cyzUpdate s m t st r b l).ember = s.ember := rfl
@[simp] theorem cyzUpdate_mop : (cyzUpdate s m t st r b l).mop = s.mop := rfl
@[simp] theorem cyzUpdate_sec : (cyzUpdate s m t st r b l).sec = s.sec := rfl
@[simp] theorem cyzUpdate_fw : (cyzUpdate s m t st r b l).fw = s.fw := rfl
@[simp] theorem cyzUpdate_host : (cyzUpdate s m t st r b l).host = s.host := rfl
@[simp] theorem cyzUpdate_prof : (cyzUpdate s m t st r b l).prof = s.prof := rfl
@[simp] theorem cyzUpdate_cyz_open_ : (cyzUpdate s m t st r b l).cyz.open_ = s.cyz.open_ := rfl
@[simp] theorem cyzUpdate_cyz_stage : (cyzUpdate s m t st r b l).cyz.stage = s.cyz.stage := rfl
@[simp] theorem cyzUpdate_cyz_slots : (cyzUpdate s m t st r b l).cyz.slots = s.cyz.slots := rfl
@[simp] theorem cyzUpdate_cyz_slot : (cyzUpdate s m t st r b l).cyz.slot = s.cyz.slot := rfl
@[simp] theorem cyzUpdate_cyz_loaded : (cyzUpdate s m t st r b l).cyz.loaded = s.cyz.loaded := rfl
@[simp] theorem cyzUpdate_cyz_held : (cyzUpdate s m t st r b l).cyz.held = s.cyz.held := rfl
@[simp] theorem cyzUpdate_cyz_audit : (cyzUpdate s m t st r b l).cyz.audit = s.cyz.audit := rfl
@[simp] theorem cyzUpdate_cyz_summaries : (cyzUpdate s m t st r b l).cyz.summaries = s.cyz.summaries := rfl
@[simp] theorem cyzUpdate_cyz_ended : (cyzUpdate s m t st r b l).cyz.ended = s.cyz.ended := rfl
@[simp] theorem cyzUpdate_cyz_scrub : (cyzUpdate s m t st r b l).cyz.scrub = s.cyz.scrub := rfl
@[simp] theorem cyzUpdate_cyz_sent : (cyzUpdate s m t st r b l).cyz.sent = s.cyz.sent := rfl
@[simp] theorem cyzUpdate_cyz_tests : (cyzUpdate s m t st r b l).cyz.tests = s.cyz.tests := rfl
@[simp] theorem cyzUpdate_cyz_exp : (cyzUpdate s m t st r b l).cyz.exp = s.cyz.exp := rfl
@[simp] theorem cyzUpdate_cyz_sideband : (cyzUpdate s m t st r b l).cyz.sideband = s.cyz.sideband := rfl
end

section
variable (p : CPin)
@[simp] theorem cpinPut_pending : (cpinPut s p).pending = s.pending := rfl
@[simp] theorem cpinPut_time : (cpinPut s p).time = s.time := rfl
@[simp] theorem cpinPut_freeCtr : (cpinPut s p).freeCtr = s.freeCtr := rfl
@[simp] theorem cpinPut_reg : (cpinPut s p).reg = s.reg := rfl
@[simp] theorem cpinPut_flt : (cpinPut s p).flt = s.flt := rfl
@[simp] theorem cpinPut_ash : (cpinPut s p).ash = s.ash := rfl
@[simp] theorem cpinPut_pwr : (cpinPut s p).pwr = s.pwr := rfl
@[simp] theorem cpinPut_cal : (cpinPut s p).cal = s.cal := rfl
@[simp] theorem cpinPut_spn : (cpinPut s p).spn = s.spn := rfl
@[simp] theorem cpinPut_srv : (cpinPut s p).srv = s.srv := rfl
@[simp] theorem cpinPut_seq : (cpinPut s p).seq = s.seq := rfl
@[simp] theorem cpinPut_chan : (cpinPut s p).chan = s.chan := rfl
@[simp] theorem cpinPut_grt : (cpinPut s p).grt = s.grt := rfl
@[simp] theorem cpinPut_reqs : (cpinPut s p).reqs = s.reqs := rfl
@[simp] theorem cpinPut_wrt : (cpinPut s p).wrt = s.wrt := rfl
@[simp] theorem cpinPut_str : (cpinPut s p).str = s.str := rfl
@[simp] theorem cpinPut_media : (cpinPut s p).media = s.media := rfl
@[simp] theorem cpinPut_stg : (cpinPut s p).stg = s.stg := rfl
@[simp] theorem cpinPut_hob : (cpinPut s p).hob = s.hob := rfl
@[simp] theorem cpinPut_cch : (cpinPut s p).cch = s.cch := rfl
@[simp] theorem cpinPut_flu : (cpinPut s p).flu = s.flu := rfl
@[simp] theorem cpinPut_drm : (cpinPut s p).drm = s.drm := rfl
@[simp] theorem cpinPut_obj : (cpinPut s p).obj = s.obj := rfl
@[simp] theorem cpinPut_zns : (cpinPut s p).zns = s.zns := rfl
@[simp] theorem cpinPut_ember : (cpinPut s p).ember = s.ember := rfl
@[simp] theorem cpinPut_mop : (cpinPut s p).mop = s.mop := rfl
@[simp] theorem cpinPut_fw : (cpinPut s p).fw = s.fw := rfl
@[simp] theorem cpinPut_cyz : (cpinPut s p).cyz = s.cyz := rfl
@[simp] theorem cpinPut_host : (cpinPut s p).host = s.host := rfl
@[simp] theorem cpinPut_prof : (cpinPut s p).prof = s.prof := rfl
@[simp] theorem cpinPut_sec_lc : (cpinPut s p).sec.lc = s.sec.lc := rfl
@[simp] theorem cpinPut_sec_fuseLc : (cpinPut s p).sec.fuseLc = s.sec.fuseLc := rfl
@[simp] theorem cpinPut_sec_straps : (cpinPut s p).sec.straps = s.sec.straps := rfl
@[simp] theorem cpinPut_sec_diagTrips : (cpinPut s p).sec.diagTrips = s.sec.diagTrips := rfl
@[simp] theorem cpinPut_sec_svnFuses : (cpinPut s p).sec.svnFuses = s.sec.svnFuses := rfl
@[simp] theorem cpinPut_sec_svnShown : (cpinPut s p).sec.svnShown = s.sec.svnShown := rfl
@[simp] theorem cpinPut_sec_zeroFuse : (cpinPut s p).sec.zeroFuse = s.sec.zeroFuse := rfl
@[simp] theorem cpinPut_sec_zeroized : (cpinPut s p).sec.zeroized = s.sec.zeroized := rfl
@[simp] theorem cpinPut_sec_eval : (cpinPut s p).sec.eval = s.sec.eval := rfl
@[simp] theorem cpinPut_sec_latched : (cpinPut s p).sec.latched = s.sec.latched := rfl
@[simp] theorem cpinPut_sec_cause : (cpinPut s p).sec.cause = s.sec.cause := rfl
@[simp] theorem cpinPut_sec_count : (cpinPut s p).sec.count = s.sec.count := rfl
@[simp] theorem cpinPut_sec_refusing : (cpinPut s p).sec.refusing = s.sec.refusing := rfl
@[simp] theorem cpinPut_sec_dus : (cpinPut s p).sec.dus = s.sec.dus := rfl
@[simp] theorem cpinPut_sec_tamperEdge : (cpinPut s p).sec.tamperEdge = s.sec.tamperEdge := rfl
@[simp] theorem cpinPut_sec_swk : (cpinPut s p).sec.swk = s.sec.swk := rfl
@[simp] theorem cpinPut_sec_drbg : (cpinPut s p).sec.drbg = s.sec.drbg := rfl
@[simp] theorem cpinPut_sec_drbgStopped : (cpinPut s p).sec.drbgStopped = s.sec.drbgStopped := rfl
@[simp] theorem cpinPut_sec_entropyFails : (cpinPut s p).sec.entropyFails = s.sec.entropyFails := rfl
@[simp] theorem cpinPut_sec_meas : (cpinPut s p).sec.meas = s.sec.meas := rfl
@[simp] theorem cpinPut_sec_wipe : (cpinPut s p).sec.wipe = s.sec.wipe := rfl
@[simp] theorem cpinPut_sec_serial : (cpinPut s p).sec.serial = s.sec.serial := rfl
@[simp] theorem cpinPut_sec_wrappedId : (cpinPut s p).sec.wrappedId = s.sec.wrappedId := rfl
@[simp] theorem cpinPut_sec_identity : (cpinPut s p).sec.identity = s.sec.identity := rfl
@[simp] theorem cpinPut_sec_identityPub : (cpinPut s p).sec.identityPub = s.sec.identityPub := rfl
@[simp] theorem cpinPut_sec_certs : (cpinPut s p).sec.certs = s.sec.certs := rfl
@[simp] theorem cpinPut_sec_integrator : (cpinPut s p).sec.integrator = s.sec.integrator := rfl
@[simp] theorem cpinPut_sec_authSeq : (cpinPut s p).sec.authSeq = s.sec.authSeq := rfl
@[simp] theorem cpinPut_sec_challenge : (cpinPut s p).sec.challenge = s.sec.challenge := rfl
@[simp] theorem cpinPut_sec_nonce : (cpinPut s p).sec.nonce = s.sec.nonce := rfl
@[simp] theorem cpinPut_sec_ranges : (cpinPut s p).sec.ranges = s.sec.ranges := rfl
@[simp] theorem cpinPut_sec_lockingActive : (cpinPut s p).sec.lockingActive = s.sec.lockingActive := rfl
@[simp] theorem cpinPut_sec_rangeUsers : (cpinPut s p).sec.rangeUsers = s.sec.rangeUsers := rfl
@[simp] theorem cpinPut_sec_token : (cpinPut s p).sec.token = s.sec.token := rfl
@[simp] theorem cpinPut_sec_session : (cpinPut s p).sec.session = s.sec.session := rfl
@[simp] theorem cpinPut_sec_reply : (cpinPut s p).sec.reply = s.sec.reply := rfl
@[simp] theorem cpinPut_sec_op : (cpinPut s p).sec.op = s.sec.op := rfl
@[simp] theorem cpinPut_sec_opRetry : (cpinPut s p).sec.opRetry = s.sec.opRetry := rfl
@[simp] theorem cpinPut_sec_opSince : (cpinPut s p).sec.opSince = s.sec.opSince := rfl
end

end Sys2Proof.Machine
end

