-- ==== Sys2Proof/Laws/Ops.lean ====
section
/-! SUPPORT. What each shared operation can change: one frame lemma for each, cited in place of unfolding it. -/
namespace Sys2Proof.Machine
open Sys2Proof

/-! ## Reads of the window and the ash log -/

/-- A read of a register changes only what it captures (R545) and the contention counters, which grow at a read (R308). -/
theorem regRead_frame (s : State) (b o : Nat) :
    ∃ c n f, (regRead s b o).1 = { s with reg.caps := c, freeCtr := n, hob.conf := f } := by
  simp only [regRead, confTake]
  split
  · exact ⟨_, _, _, rfl⟩
  · exact ⟨_, s.freeCtr, s.hob.conf, rfl⟩

/-- Several reads change no more than one. -/
theorem regReads_frame (l : List (Nat × Nat)) : ∀ (s : State) (ws : List Word),
    ∃ c n f, (l.foldl (fun (a : State × List Word) e => ((regRead a.1 e.1 e.2).1, a.2 ++ [(regRead a.1 e.1 e.2).2])) (s, ws)).1 =
      { s with reg.caps := c, freeCtr := n, hob.conf := f } := by
  induction l with
  | nil => exact fun s ws => ⟨s.reg.caps, s.freeCtr, s.hob.conf, rfl⟩
  | cons e l ih =>
    intro s ws
    obtain ⟨c, n, f, h⟩ := ih (regRead s e.1 e.2).1 (ws ++ [(regRead s e.1 e.2).2])
    obtain ⟨c', n', f', g⟩ := regRead_frame s e.1 e.2
    exact ⟨c, n, f, by rw [List.foldl_cons, h, g]⟩

/-- A record put into the queue changes only the ash log. -/
theorem ashEnqueue_frame (s : State) (r : AshRec) : ∃ a, ashEnqueue s r = { s with ash := a } := by
  unfold ashEnqueue
  repeat' split
  all_goals exact ⟨_, rfl⟩

/-- A triggered event changes only the ash log and what the reads of its snapshots change. -/
theorem ashRecord_frame (s : State) (t c : Nat) (e : Element) (d : List Nat) :
    ∃ a r n f, ashRecord s t c e d = { s with ash := a, reg.caps := r, freeCtr := n, hob.conf := f } := by
  simp only [ashRecord]
  split
  · exact ⟨_, s.reg.caps, s.freeCtr, s.hob.conf, rfl⟩
  · obtain ⟨c, n, f, h⟩ := regReads_frame ((lookupD s.prof.ashList t []).take 48) s []
    obtain ⟨a, g⟩ := ashEnqueue_frame _ _
    refine ⟨a, c, n, f, g.trans ?_⟩
    rw [h]

/-- A second report of an element enters the ash log alone (R489). -/
theorem ashAlso_frame (s : State) (e : Element) (i : Nat) : ∃ a, ashAlso s e i = { s with ash := a } := by
  simp only [ashAlso]
  split
  · exact ⟨s.ash, rfl⟩
  · exact ⟨_, rfl⟩

/-- A class 0 fault counts itself and changes nothing else. -/
theorem fault0_frame (s : State) : fault0 s = { s with flt.cnt0 := satInc s.flt.cnt0 } := rfl

/-- WORST raised changes nothing else. -/
theorem worstUp_frame (s : State) (c : Nat) : ∃ w, worstUp s c = { s with flt.worst := w } := by
  unfold worstUp
  split
  · exact ⟨_, rfl⟩
  · exact ⟨s.flt.worst, rfl⟩

/-- A class 1 fault changes its count, WORST, the logs and what the snapshots read (R490). -/
theorem fault1_frame (s : State) (e : Element) (t : Nat) (d : List Nat) (h : HealthEvent) :
    ∃ w a r n f, fault1 s e t d h =
      { s with flt.cnt1 := satInc s.flt.cnt1, flt.worst := w, ash := a, reg.caps := r, freeCtr := n, hob.conf := f } := by
  unfold fault1
  obtain ⟨w, g⟩ := worstUp_frame { s with flt.cnt1 := satInc s.flt.cnt1 } 1
  obtain ⟨a, r, n, f, k⟩ := ashRecord_frame (noteHealth (worstUp { s with flt.cnt1 := satInc s.flt.cnt1 } 1) h) t 1 e d
  exact ⟨w, a, r, n, f, by rw [k, g]; rfl⟩

/-- A class 2 fault changes its count, WORST, the logs and what the snapshots read (R490). -/
theorem fault2_frame (s : State) (e : Element) (t : Nat) (d : List Nat) (h : HealthEvent) :
    ∃ w a r n f, fault2 s e t d h =
      { s with flt.cnt2 := satInc s.flt.cnt2, flt.worst := w, ash := a, reg.caps := r, freeCtr := n, hob.conf := f } := by
  unfold fault2
  obtain ⟨w, g⟩ := worstUp_frame { s with flt.cnt2 := satInc s.flt.cnt2 } 2
  obtain ⟨a, r, n, f, k⟩ := ashRecord_frame (noteHealth (worstUp { s with flt.cnt2 := satInc s.flt.cnt2 } 2) h) t 2 e d
  exact ⟨w, a, r, n, f, by rw [k, g]; rfl⟩

/-! ## Micro-traps, frame aborts and unloading -/

/-- A cause sent to an actuator's sequencer changes only sequencers. -/
theorem trapAct_frame (s : State) (a : Nat) (c : TrapCause) : ∃ q, trapAct s a c = { s with seq.sq := q } := by
  unfold trapAct
  split
  · split
    · exact ⟨_, rfl⟩
    · exact ⟨s.seq.sq, rfl⟩
  · exact ⟨s.seq.sq, rfl⟩

/-- What a fold of an operation that changes only some fields changes. -/
theorem foldl_frame {α : Type} (P : State → State → Prop) (h0 : ∀ s, P s s) (ht : ∀ s t u, P s t → P t u → P s u)
    (f : State → α → State) (hf : ∀ s a, P s (f s a)) : ∀ (l : List α) (s : State), P s (l.foldl f s)
  | [], s => h0 s
  | a :: l, s => ht _ _ _ (hf s a) (foldl_frame P h0 ht f hf l (f s a))

/-- A cause sent to every sequencer in service changes only sequencers. -/
theorem trapAll_frame (s : State) (c : TrapCause) : ∃ q, trapAll s c = { s with seq.sq := q } := by
  refine foldl_frame (fun s t => ∃ q, t = { s with seq.sq := q }) (fun s => ⟨s.seq.sq, rfl⟩) ?_ _ ?_ _ s
  · rintro s t u ⟨q, rfl⟩ ⟨r, rfl⟩
    exact ⟨r, rfl⟩
  · intro s a
    split
    · exact ⟨_, rfl⟩
    · exact ⟨s.seq.sq, rfl⟩

/-- An abandoned frame changes the write path of its actuator, the media at its slot and sequencers (R148). -/
theorem frameAbort_frame (s : State) (a : Nat) :
    ∃ w f q, frameAbort s a = { s with wrt.act := w, media.frames := f, seq.sq := q } := by
  unfold frameAbort
  split
  · exact ⟨_, s.media.frames, s.seq.sq, rfl⟩
  · next j _ =>
    obtain ⟨q, h⟩ := trapAct_frame (mediaPut { s with wrt.act := vmod s.wrt.act a fun w =>
      { w with frame := none, gate := false, pulses := [], abort := satInc w.abort, buffer := j :: w.buffer } }
      ⟨j.1.pos, default, [], false⟩) a .writeAbort
    exact ⟨_, _, q, h⟩

/-- Without a frame in progress nothing is abandoned: write gate falls. -/
theorem frameAbort_none {s : State} {a : Nat} (h : (vget s.wrt.act a {}).frame = none) : frameAbort s a = gateFall s a := by
  unfold frameAbort
  rw [h]

/-- Abandoning every frame changes write paths, media and sequencers. -/
theorem frameAbortAll_frame (s : State) :
    ∃ w f q, frameAbortAll s = { s with wrt.act := w, media.frames := f, seq.sq := q } := by
  refine foldl_frame (fun s t => ∃ w f q, t = { s with wrt.act := w, media.frames := f, seq.sq := q })
    (fun s => ⟨_, _, _, rfl⟩) ?_ _ frameAbort_frame _ s
  rintro s t u ⟨w, f, q, rfl⟩ ⟨w', f', q', rfl⟩
  exact ⟨w', f', q', rfl⟩

/-- Raising write inhibit changes loops, write paths, media and sequencers (R172). -/
theorem writeInhibit_frame (s : State) (a : Nat) :
    ∃ l w f q, writeInhibit s a = { s with srv.loop := l, wrt.act := w, media.frames := f, seq.sq := q } := by
  obtain ⟨w, f, q, h⟩ := frameAbort_frame { s with srv.loop := vmod s.srv.loop a fun l =>
    { l with inhibit := true, wrPermit := false } } a
  exact ⟨_, w, f, q, h⟩

/-- Telling every actuator to unload changes only loops (R181). -/
theorem unloadAll_frame (s : State) (why : Nat) : ∃ l, unloadAll s why = { s with srv.loop := l } := by
  refine foldl_frame (fun s t => ∃ l, t = { s with srv.loop := l }) (fun s => ⟨s.srv.loop, rfl⟩) ?_ _
    (fun s a => ⟨_, rfl⟩) _ s
  rintro s t u ⟨l, rfl⟩ ⟨k, rfl⟩
  exact ⟨k, rfl⟩

/-- The bellows retract of an actuator changes loops, write paths, media and sequencers (R182). -/
theorem retractAct_frame (s : State) (a : Nat) :
    ∃ l w f q, retractAct s a = { s with srv.loop := l, wrt.act := w, media.frames := f, seq.sq := q } := by
  obtain ⟨w, f, q, h⟩ := frameAbort_frame s a
  exact ⟨_, w, f, q, by rw [retractAct, h]⟩

/-- The bellows retract of all actuators changes loops, write paths, media, sequencers and its own flag. -/
theorem retractAll_frame (s : State) : ∃ l w f q,
    retractAll s = { s with srv.loop := l, wrt.act := w, media.frames := f, seq.sq := q, flt.retracted := true } := by
  have : ∃ l w f q, (List.range 4).foldl retractAct s =
      { s with srv.loop := l, wrt.act := w, media.frames := f, seq.sq := q } := by
    refine foldl_frame (fun s t => ∃ l w f q, t = { s with srv.loop := l, wrt.act := w, media.frames := f, seq.sq := q })
      (fun s => ⟨_, _, _, _, rfl⟩) ?_ _ retractAct_frame _ s
    rintro s t u ⟨l, w, f, q, rfl⟩ ⟨l', w', f', q', rfl⟩
    exact ⟨l', w', f', q', rfl⟩
  obtain ⟨l, w, f, q, h⟩ := this
  exact ⟨l, w, f, q, by rw [retractAll, h]⟩

/-! ## The fail-stop and hearthstone -/

/-- A spindle told to halt changes only the spindle (R493). -/
theorem spindleHalt_frame (s : State) : ∃ p, spindleHalt s = { s with spn := p } := by
  unfold spindleHalt
  split
  · exact ⟨s.spn, rfl⟩
  · exact ⟨_, rfl⟩

/-- An operation of hearthstone is begun, ended with its effect, or waits (R583). -/
theorem hsStep_cases (s : State) (o : HsOp) (f : State → State) :
    hsStep s o f = s ∨ (s.sec.op = none ∧ s.pwr.banking = false ∧ hsStep s o f = { s with sec.op := some o }) ∨
      (s.sec.op = some o ∧ s.sec.opRetry = false ∧ hsStep s o f = f { s with sec.op := none }) := by
  unfold hsStep
  split
  · next h =>
    split
    · exact .inl rfl
    · next g => exact .inr (.inl ⟨h, by simpa using g, rfl⟩)
  · next p h =>
    split
    · next g => exact .inr (.inr ⟨g.1 ▸ h, by simpa using g.2, rfl⟩)
    · exact .inl rfl

end Sys2Proof.Machine
end

