-- ==== Sys2Proof/Laws/PerInstr.lean ====
section
/-! SUPPORT. Statements about commands as syntax, one lemma for each constructor. -/
namespace Sys2Proof.Laws.Bounded

/-- The Cyzon packet among a command's operands; the empty one where it has none. -/
def packet : Instr → List Byte
  | .result _ pkt => pkt
  | .identifyCyzon _ pkt => pkt
  | .health _ pkt => pkt
  | .irateMeasure _ pkt => pkt
  | .checkerTest _ pkt => pkt
  | .profileLoad _ pkt => pkt
  | .profileActivate _ pkt => pkt
  | .commit _ pkt => pkt
  | .regRead _ pkt => pkt
  | .regWrite _ pkt => pkt
  | .mediaProgress _ pkt => pkt
  | .auditStart _ pkt => pkt
  | .auditEntries _ pkt => pkt
  | .auditSummary _ pkt => pkt
  | .pin _ pkt => pkt
  | .unpin _ pkt => pkt
  | .holdClear _ pkt => pkt
  | .exportOpen _ pkt => pkt
  | .exportRead _ pkt => pkt
  | .exportClose _ pkt => pkt
  | .logRead _ pkt => pkt
  | _ => []

/-- The packet of a well-formed command is at most 64 KiB long (R426). -/
def Statement (i : Instr) : Prop := wellFormed i = true → (packet i).length ≤ 65536

theorem packetOk_length {p : Machine.CyzonPath} {pkt : List Byte} (h : packetOk p pkt = true) : pkt.length ≤ 65536 := by
  cases p <;> simp only [packetOk, decide_eq_true_eq] at h <;> omega

theorem sqDoorbellWrite (q : Fin 65) (value : Fin 65536) : Statement (.sqDoorbellWrite q value) := fun _ => Nat.zero_le _
theorem cqDoorbellWrite (q : Fin 65) (value : Fin 65536) : Statement (.cqDoorbellWrite q value) := fun _ => Nat.zero_le _
theorem commandAccept (q : Fin 65) (e : Machine.SqEntry) : Statement (.commandAccept q e) := fun _ => Nat.zero_le _
theorem completionPost (c : Fin 4096) : Statement (.completionPost c) := fun _ => Nat.zero_le _
theorem ccEnSet (asqSize acqSize : Fin 4096) (ams : Fin 2) (mps : Fin 5) : Statement (.ccEnSet asqSize acqSize ams mps) := fun _ => Nat.zero_le _
theorem ccEnClear : Statement (.ccEnClear) := fun _ => Nat.zero_le _
theorem ccShnShutdown (abrupt : Bool) : Statement (.ccShnShutdown abrupt) := fun _ => Nat.zero_le _
theorem functionLevelReset : Statement (.functionLevelReset) := fun _ => Nat.zero_le _
theorem hotResetLinkDown : Statement (.hotResetLinkDown) := fun _ => Nat.zero_le _
theorem perstAssert : Statement (.perstAssert) := fun _ => Nat.zero_le _
theorem deleteIoSq (c : Fin 4096) (cids : List (BitVec 16)) : Statement (.deleteIoSq c cids) := fun _ => Nat.zero_le _
theorem createIoSq (c : Fin 4096) : Statement (.createIoSq c) := fun _ => Nat.zero_le _
theorem deleteIoCq (c : Fin 4096) : Statement (.deleteIoCq c) := fun _ => Nat.zero_le _
theorem createIoCq (c : Fin 4096) : Statement (.createIoCq c) := fun _ => Nat.zero_le _
theorem getLogPage (c : Fin 4096) : Statement (.getLogPage c) := fun _ => Nat.zero_le _
theorem identify (c : Fin 4096) : Statement (.identify c) := fun _ => Nat.zero_le _
theorem abort (c : Fin 4096) : Statement (.abort c) := fun _ => Nat.zero_le _
theorem setFeatures (c : Fin 4096) : Statement (.setFeatures c) := fun _ => Nat.zero_le _
theorem getFeatures (c : Fin 4096) : Statement (.getFeatures c) := fun _ => Nat.zero_le _
theorem asynchronousEventRequest (c : Fin 4096) : Statement (.asynchronousEventRequest c) := fun _ => Nat.zero_le _
theorem firmwareImageDownload (c : Fin 4096) (data : List Byte) : Statement (.firmwareImageDownload c data) := fun _ => Nat.zero_le _
theorem firmwareCommit (c : Fin 4096) : Statement (.firmwareCommit c) := fun _ => Nat.zero_le _
theorem firmwareActivationResume : Statement (.firmwareActivationResume) := fun _ => Nat.zero_le _
theorem firmwareActivationComplete : Statement (.firmwareActivationComplete) := fun _ => Nat.zero_le _
theorem formatNvm (c : Fin 4096) : Statement (.formatNvm c) := fun _ => Nat.zero_le _
theorem sanitize (c : Fin 4096) : Statement (.sanitize c) := fun _ => Nat.zero_le _
theorem mediaOperationProgress (ok : Bool) : Statement (.mediaOperationProgress ok) := fun _ => Nat.zero_le _
theorem cyzonReceive (c : Fin 4096) : Statement (.cyzonReceive c) := fun _ => Nat.zero_le _
theorem attestationNonce (c : Fin 4096) (data : List Byte) : Statement (.attestationNonce c data) := fun _ => Nat.zero_le _
theorem attestationReportRead (c : Fin 4096) : Statement (.attestationReportRead c) := fun _ => Nat.zero_le _
theorem certificateChainRead (c : Fin 4096) : Statement (.certificateChainRead c) := fun _ => Nat.zero_le _
theorem lifecycleChallengeRead (c : Fin 4096) : Statement (.lifecycleChallengeRead c) := fun _ => Nat.zero_le _
theorem lifecycleToken (c : Fin 4096) (data : List Byte) (boot : Machine.Boot) : Statement (.lifecycleToken c data boot) := fun _ => Nat.zero_le _
theorem integratorKeyEnrol (c : Fin 4096) (key : List Byte) (sig : Option (List Byte)) : Statement (.integratorKeyEnrol c key sig) := fun _ => Nat.zero_le _
theorem level0Discovery (c : Fin 4096) : Statement (.level0Discovery c) := fun _ => Nat.zero_le _
theorem properties (c : Fin 4096) : Statement (.properties c) := fun _ => Nat.zero_le _
theorem startSession (c : Fin 4096) (sp : Machine.OpalSp) (write : Bool) (auth : Option (Machine.Authority × List Byte)) : Statement (.startSession c sp write auth) := fun _ => Nat.zero_le _
theorem endSession (c : Fin 4096) : Statement (.endSession c) := fun _ => Nat.zero_le _
theorem authenticate (c : Fin 4096) (a : Machine.Authority) (pin : List Byte) : Statement (.authenticate c a pin) := fun _ => Nat.zero_le _
theorem opalGet (c : Fin 4096) (cells : List Machine.OpalCell) : Statement (.opalGet c cells) := fun _ => Nat.zero_le _
theorem opalSet (c : Fin 4096) (sets : List (Machine.OpalCell × List Byte)) : Statement (.opalSet c sets) := fun _ => Nat.zero_le _
theorem opalNext (c : Fin 4096) (table : Option Nat) (from_ count : Nat) : Statement (.opalNext c table from_ count) := fun _ => Nat.zero_le _
theorem genKey (c : Fin 4096) (r : Fin 65) : Statement (.genKey c r) := fun _ => Nat.zero_le _
theorem opalRandom (c : Fin 4096) (n : Nat) : Statement (.opalRandom c n) := fun _ => Nat.zero_le _
theorem opalActivate (c : Fin 4096) : Statement (.opalActivate c) := fun _ => Nat.zero_le _
theorem revert (c : Fin 4096) : Statement (.revert c) := fun _ => Nat.zero_le _
theorem revertSp (c : Fin 4096) : Statement (.revertSp c) := fun _ => Nat.zero_le _
theorem putOpen (c : Fin 4096) : Statement (.putOpen c) := fun _ => Nat.zero_le _
theorem putData (c : Fin 4096) (data : List Byte) : Statement (.putData c data) := fun _ => Nat.zero_le _
theorem putCommit (c : Fin 4096) (expected : List Byte) : Statement (.putCommit c expected) := fun _ => Nat.zero_le _
theorem putAbort (c : Fin 4096) : Statement (.putAbort c) := fun _ => Nat.zero_le _
theorem get (c : Fin 4096) : Statement (.get c) := fun _ => Nat.zero_le _
theorem stat (c : Fin 4096) : Statement (.stat c) := fun _ => Nat.zero_le _
theorem list (c : Fin 4096) : Statement (.list c) := fun _ => Nat.zero_le _
theorem copy (c : Fin 4096) : Statement (.copy c) := fun _ => Nat.zero_le _
theorem delete (c : Fin 4096) : Statement (.delete c) := fun _ => Nat.zero_le _
theorem hold (c : Fin 4096) : Statement (.hold c) := fun _ => Nat.zero_le _
theorem sync (c : Fin 4096) : Statement (.sync c) := fun _ => Nat.zero_le _
theorem receipt (c : Fin 4096) : Statement (.receipt c) := fun _ => Nat.zero_le _
theorem flush (c : Fin 4096) : Statement (.flush c) := fun _ => Nat.zero_le _
theorem zoneWrite (c : Fin 4096) (data : List Byte) : Statement (.zoneWrite c data) := fun _ => Nat.zero_le _
theorem zoneRead (c : Fin 4096) : Statement (.zoneRead c) := fun _ => Nat.zero_le _
theorem zoneAppend (c : Fin 4096) (data : List Byte) : Statement (.zoneAppend c data) := fun _ => Nat.zero_le _
theorem zoneOpen (c : Fin 4096) : Statement (.zoneOpen c) := fun _ => Nat.zero_le _
theorem zoneClose (c : Fin 4096) : Statement (.zoneClose c) := fun _ => Nat.zero_le _
theorem zoneFinish (c : Fin 4096) : Statement (.zoneFinish c) := fun _ => Nat.zero_le _
theorem zoneReset (c : Fin 4096) : Statement (.zoneReset c) := fun _ => Nat.zero_le _
theorem reportZones (c : Fin 4096) : Statement (.reportZones c) := fun _ => Nat.zero_le _
theorem result (p : Machine.CyzonPath) (pkt : List Byte) : Statement (.result p pkt) := fun h => packetOk_length h
theorem identifyCyzon (p : Machine.CyzonPath) (pkt : List Byte) : Statement (.identifyCyzon p pkt) := fun h => packetOk_length h
theorem health (p : Machine.CyzonPath) (pkt : List Byte) : Statement (.health p pkt) := fun h => packetOk_length h
theorem irateMeasure (p : Machine.CyzonPath) (pkt : List Byte) : Statement (.irateMeasure p pkt) := fun h => packetOk_length h
theorem checkerTest (p : Machine.CyzonPath) (pkt : List Byte) : Statement (.checkerTest p pkt) := fun h => packetOk_length h
theorem profileLoad (p : Machine.CyzonPath) (pkt : List Byte) : Statement (.profileLoad p pkt) := fun h => packetOk_length h
theorem profileActivate (p : Machine.CyzonPath) (pkt : List Byte) : Statement (.profileActivate p pkt) := fun h => packetOk_length h
theorem profileActivateResume : Statement (.profileActivateResume) := fun _ => Nat.zero_le _
theorem commit (p : Machine.CyzonPath) (pkt : List Byte) : Statement (.commit p pkt) := fun h => packetOk_length h
theorem regRead (p : Machine.CyzonPath) (pkt : List Byte) : Statement (.regRead p pkt) := fun h => packetOk_length h
theorem regWrite (p : Machine.CyzonPath) (pkt : List Byte) : Statement (.regWrite p pkt) := fun h => packetOk_length h
theorem mediaProgress (p : Machine.CyzonPath) (pkt : List Byte) : Statement (.mediaProgress p pkt) := fun h => packetOk_length h
theorem auditStart (p : Machine.CyzonPath) (pkt : List Byte) : Statement (.auditStart p pkt) := fun h => packetOk_length h
theorem auditVersionCheck : Statement (.auditVersionCheck) := fun _ => Nat.zero_le _
theorem auditEntries (p : Machine.CyzonPath) (pkt : List Byte) : Statement (.auditEntries p pkt) := fun h => packetOk_length h
theorem auditSummary (p : Machine.CyzonPath) (pkt : List Byte) : Statement (.auditSummary p pkt) := fun h => packetOk_length h
theorem pin (p : Machine.CyzonPath) (pkt : List Byte) : Statement (.pin p pkt) := fun h => packetOk_length h
theorem unpin (p : Machine.CyzonPath) (pkt : List Byte) : Statement (.unpin p pkt) := fun h => packetOk_length h
theorem holdClear (p : Machine.CyzonPath) (pkt : List Byte) : Statement (.holdClear p pkt) := fun h => packetOk_length h
theorem exportOpen (p : Machine.CyzonPath) (pkt : List Byte) : Statement (.exportOpen p pkt) := fun h => packetOk_length h
theorem exportRead (p : Machine.CyzonPath) (pkt : List Byte) : Statement (.exportRead p pkt) := fun h => packetOk_length h
theorem exportClose (p : Machine.CyzonPath) (pkt : List Byte) : Statement (.exportClose p pkt) := fun h => packetOk_length h
theorem logRead (p : Machine.CyzonPath) (pkt : List Byte) : Statement (.logRead p pkt) := fun h => packetOk_length h
theorem enSet (p : Machine.Port) (b : Fin 20) : Statement (.enSet p b) := fun _ => Nat.zero_le _
theorem enClear (p : Machine.Port) (b : Fin 20) : Statement (.enClear p b) := fun _ => Nat.zero_le _
theorem keylockWrite (p : Machine.Port) (b : Fin 20) (w : Word) : Statement (.keylockWrite p b w) := fun _ => Nat.zero_le _
theorem registerWrite (p : Machine.Port) (b : Fin 256) (o : Fin 16384) (be : BitVec 4) (ws : List Word) (e : Machine.WriteEnv) : Statement (.registerWrite p b o be ws e) := fun _ => Nat.zero_le _
theorem shdValidWrite (p : Machine.Port) (n : Fin 40) (c : Option (Fin 4096)) : Statement (.shdValidWrite p n c) := fun _ => Nat.zero_le _
theorem pauseWrite (p : Machine.Port) (n : Fin 40) (on : Bool) (left : Nat) (host : List Byte) : Statement (.pauseWrite p n on left host) := fun _ => Nat.zero_le _
theorem fltInjGo (p : Machine.Port) (kind : Fin 8) (duration : Fin 256) (target : Fin 65536) (b : Machine.Boot) : Statement (.fltInjGo p kind duration target b) := fun _ => Nat.zero_le _
theorem faultInjectEnd : Statement (.faultInjectEnd) := fun _ => Nat.zero_le _
theorem actFlipArm (p : Machine.Port) (n mode : Fin 4) (span : Fin 4096) : Statement (.actFlipArm p n mode span) := fun _ => Nat.zero_le _
theorem checkerTestRun (act : Fin 4) (soft : Option (List Machine.Soft)) (dead : Bool) (grate : Fin 14) : Statement (.checkerTestRun act soft dead grate) := fun _ => Nat.zero_le _
theorem hobFlipArm (p : Machine.Port) (check : BitVec 8) (word : Fin 2048) : Statement (.hobFlipArm p check word) := fun _ => Nat.zero_le _
theorem hobFlipWordWrite (data : DWord) : Statement (.hobFlipWordWrite data) := fun _ => Nat.zero_le _
theorem hobFlipWordRead (dead : Bool) : Statement (.hobFlipWordRead dead) := fun _ => Nat.zero_le _
theorem irate1Read (act : Fin 4) : Statement (.irate1Read act) := fun _ => Nat.zero_le _
theorem ceLogWord0Read (p : Machine.Port) (k : Fin 6) (entry : Fin 16) : Statement (.ceLogWord0Read p k entry) := fun _ => Nat.zero_le _
theorem dmpStatRead (p : Machine.Port) (n : Fin 6) : Statement (.dmpStatRead p n) := fun _ => Nat.zero_le _
theorem editWindowExpire : Statement (.editWindowExpire) := fun _ => Nat.zero_le _
theorem configCrcCompare (live again : Option Word) : Statement (.configCrcCompare live again) := fun _ => Nat.zero_le _
theorem draftUpdate : Statement (.draftUpdate) := fun _ => Nat.zero_le _
theorem bankingTimerExpire : Statement (.bankingTimerExpire) := fun _ => Nat.zero_le _
theorem startMeasureDone (m : Machine.EmfSeen) (rises : List Qty) : Statement (.startMeasureDone m rises) := fun _ => Nat.zero_le _
theorem rotorAlignDone : Statement (.rotorAlignDone) := fun _ => Nat.zero_le _
theorem observerHandover : Statement (.observerHandover) := fun _ => Nat.zero_le _
theorem restDeclared (rises : List Qty) : Statement (.restDeclared rises) := fun _ => Nat.zero_le _
theorem currentLoopCycle (smp : Machine.CurSample) (vm : Qty) : Statement (.currentLoopCycle smp vm) := fun _ => Nat.zero_le _
theorem speedLoopCycle : Statement (.speedLoopCycle) := fun _ => Nat.zero_le _
theorem recatchComplete : Statement (.recatchComplete) := fun _ => Nat.zero_le _
theorem speedSettled : Statement (.speedSettled) := fun _ => Nat.zero_le _
theorem speedTargetApply : Statement (.speedTargetApply) := fun _ => Nat.zero_le _
theorem targetChangeAck (act : Fin 4) : Statement (.targetChangeAck act) := fun _ => Nat.zero_le _
theorem vcapUpdate (vm : Qty) : Statement (.vcapUpdate vm) := fun _ => Nat.zero_le _
theorem vcapRecoverStart : Statement (.vcapRecoverStart) := fun _ => Nat.zero_le _
theorem copperLossMeasure : Statement (.copperLossMeasure) := fun _ => Nat.zero_le _
theorem cogTableSwitch : Statement (.cogTableSwitch) := fun _ => Nat.zero_le _
theorem servoSample (act : Fin 4) (w : Machine.WedgeSample) : Statement (.servoSample act w) := fun _ => Nat.zero_le _
theorem actuatorOutputUpdate (act : Fin 4) (bridge : Bool) : Statement (.actuatorOutputUpdate act bridge) := fun _ => Nat.zero_le _
theorem lostServo (act : Fin 4) : Statement (.lostServo act) := fun _ => Nat.zero_le _
theorem lostServoTimeout (act : Fin 4) : Statement (.lostServoTimeout act) := fun _ => Nat.zero_le _
theorem damperMirrorCheck (engine : Fin 6) (c1 c2 : Int) : Statement (.damperMirrorCheck engine c1 c2) := fun _ => Nat.zero_le _
theorem accelerometerSample (a0 a1 : Machine.AccReading) : Statement (.accelerometerSample a0 a1) := fun _ => Nat.zero_le _
theorem shockClear : Statement (.shockClear) := fun _ => Nat.zero_le _
theorem seekRequest (act : Fin 4) (p : Machine.Pos) (write : Bool) : Statement (.seekRequest act p write) := fun _ => Nat.zero_le _
theorem headSwitch (act : Fin 4) (zone : Nat) (diodes : Qty × Qty) (ok : Bool) : Statement (.headSwitch act zone diodes ok) := fun _ => Nat.zero_le _
theorem headLoad (act : Fin 4) : Statement (.headLoad act) := fun _ => Nat.zero_le _
theorem headUnload (act : Fin 4) : Statement (.headUnload act) := fun _ => Nat.zero_le _
theorem parkRelease (act : Fin 4) : Statement (.parkRelease act) := fun _ => Nat.zero_le _
theorem microactuatorGainMeasure (act : Fin 4) (m1 m2 m3 : List Qty) : Statement (.microactuatorGainMeasure act m1 m2 m3) := fun _ => Nat.zero_le _
theorem biasTableSwitch (act : Fin 4) : Statement (.biasTableSwitch act) := fun _ => Nat.zero_le _
theorem shingleReadback (act : Fin 4) (soft : List (Option (List Machine.Soft))) : Statement (.shingleReadback act soft) := fun _ => Nat.zero_le _
theorem routineStart (sq : Fin 5) (t : Machine.RoutineStart) : Statement (.routineStart sq t) := fun _ => Nat.zero_le _
theorem next (sq : Fin 5) (ce : Bool) : Statement (.next sq ce) := fun _ => Nat.zero_le _
theorem wait (sq : Fin 5) (ce : Bool) : Statement (.wait sq ce) := fun _ => Nat.zero_le _
theorem waitTimeout (sq : Fin 5) : Statement (.waitTimeout sq) := fun _ => Nat.zero_le _
theorem brt (sq : Fin 5) (ce : Bool) : Statement (.brt sq ce) := fun _ => Nat.zero_le _
theorem brf (sq : Fin 5) (ce : Bool) : Statement (.brf sq ce) := fun _ => Nat.zero_le _
theorem call (sq : Fin 5) (ce : Bool) : Statement (.call sq ce) := fun _ => Nat.zero_le _
theorem ret (sq : Fin 5) (ce : Bool) : Statement (.ret sq ce) := fun _ => Nat.zero_le _
theorem loop (sq : Fin 5) (ce : Bool) : Statement (.loop sq ce) := fun _ => Nat.zero_le _
theorem seqEnd (sq : Fin 5) (ce : Bool) : Statement (.seqEnd sq ce) := fun _ => Nat.zero_le _
theorem controlStoreReload (sq : Fin 5) (nano : Bool) (addr : Nat) : Statement (.controlStoreReload sq nano addr) := fun _ => Nat.zero_le _
theorem seqWatchdog (sq : Fin 5) : Statement (.seqWatchdog sq) := fun _ => Nat.zero_le _
theorem microTrap (sq : Fin 5) : Statement (.microTrap sq) := fun _ => Nat.zero_le _
theorem trapResume (sq : Fin 5) : Statement (.trapResume sq) := fun _ => Nat.zero_le _
theorem tableSwitchRequest : Statement (.tableSwitchRequest) := fun _ => Nat.zero_le _
theorem tableSwitch : Statement (.tableSwitch) := fun _ => Nat.zero_le _
theorem microcodePatch (image : List Byte) : Statement (.microcodePatch image) := fun _ => Nat.zero_le _
theorem patchApplySequencer (sq : Fin 5) : Statement (.patchApplySequencer sq) := fun _ => Nat.zero_le _
theorem readWindowOpen (req : Fin 8192) (leaf : Nat) (far : Bool) : Statement (.readWindowOpen req leaf far) := fun _ => Nat.zero_le _
theorem frameLocate (act : Fin 4) (smp : Machine.Samples) : Statement (.frameLocate act smp) := fun _ => Nat.zero_le _
theorem blindReread (act : Fin 4) (smp : Machine.Samples) : Statement (.blindReread act smp) := fun _ => Nat.zero_le _
theorem codewordComplete (act : Fin 4) (smp : Machine.Samples) : Statement (.codewordComplete act smp) := fun _ => Nat.zero_le _
theorem sliceMonitorBlock (lane : Fin 10) (means squares : List Qty) : Statement (.sliceMonitorBlock lane means squares) := fun _ => Nat.zero_le _
theorem channelStateRestore (act : Fin 4) : Statement (.channelStateRestore act) := fun _ => Nat.zero_le _
theorem filterRetune (act : Fin 4) : Statement (.filterRetune act) := fun _ => Nat.zero_le _
theorem laneSpareSwitch (spare : Fin 2) : Statement (.laneSpareSwitch spare) := fun _ => Nat.zero_le _
theorem laneCalibration (spare : Fin 2) (m1 m2 m3 : Machine.LaneMeas) : Statement (.laneCalibration spare m1 m2 m3) := fun _ => Nat.zero_le _
theorem leafEncode (act : Fin 4) (flips : List Nat) : Statement (.leafEncode act flips) := fun _ => Nat.zero_le _
theorem frameWrite (act : Fin 4) (rate : Qty) : Statement (.frameWrite act rate) := fun _ => Nat.zero_le _
theorem frameWriteComplete (act : Fin 4) : Statement (.frameWriteComplete act) := fun _ => Nat.zero_le _
theorem verifyRead (act : Fin 4) (index : Nat) (soft : Option (List Machine.Soft)) : Statement (.verifyRead act index soft) := fun _ => Nat.zero_le _
theorem paFaultAssert (act : Fin 4) (flags : BitVec 8) : Statement (.paFaultAssert act flags) := fun _ => Nat.zero_le _
theorem paWriteHoldExpire (act : Fin 4) (flags : BitVec 8) : Statement (.paWriteHoldExpire act flags) := fun _ => Nat.zero_le _
theorem grateTakeCodeword (grate : Fin 14) : Statement (.grateTakeCodeword grate) := fun _ => Nat.zero_le _
theorem grateDecodeDone (grate : Fin 14) (bad : Bool) : Statement (.grateDecodeDone grate bad) := fun _ => Nat.zero_le _
theorem collectorServe : Statement (.collectorServe) := fun _ => Nat.zero_le _
theorem grateKatDue (grate : Fin 14) (pass : Bool) : Statement (.grateKatDue grate pass) := fun _ => Nat.zero_le _
theorem spareGrateKat (grate : Fin 14) (pass : Bool) : Statement (.spareGrateKat grate pass) := fun _ => Nat.zero_le _
theorem sequencerKat (sq : Fin 5) (pass : Bool) : Statement (.sequencerKat sq pass) := fun _ => Nat.zero_le _
theorem stripeEngineSolve (src : Fin 8192) : Statement (.stripeEngineSolve src) := fun _ => Nat.zero_le _
theorem copyForward (why : Machine.CopyWhy) : Statement (.copyForward why) := fun _ => Nat.zero_le _
theorem scrubPass : Statement (.scrubPass) := fun _ => Nat.zero_le _
theorem cacheLineFill (set : Fin 48) (way : Fin 16) (subs : BitVec 8) : Statement (.cacheLineFill set way subs) := fun _ => Nat.zero_le _
theorem cacheEvictComplete (set : Fin 48) (way : Fin 16) : Statement (.cacheEvictComplete set way) := fun _ => Nat.zero_le _
theorem hobPatrolScrub (array : Machine.EccArray) (err : Machine.WordErr) : Statement (.hobPatrolScrub array err) := fun _ => Nat.zero_le _
theorem flueDescriptorDone (chan : Fin 40) (host : List Byte) : Statement (.flueDescriptorDone chan host) := fun _ => Nat.zero_le _
theorem flueBusError (chan : Fin 40) (atDst : Bool) (left : Nat) (host : List Byte) : Statement (.flueBusError chan atDst left host) := fun _ => Nat.zero_le _
theorem errorPairReport (ps : List Machine.PairSample) : Statement (.errorPairReport ps) := fun _ => Nat.zero_le _
theorem lockstepWatchdogLate (n : Fin 2) : Statement (.lockstepWatchdogLate n) := fun _ => Nat.zero_le _
theorem failStopBankLimit : Statement (.failStopBankLimit) := fun _ => Nat.zero_le _
theorem heartbeatToggle : Statement (.heartbeatToggle) := fun _ => Nat.zero_le _
theorem ashRecordWrite : Statement (.ashRecordWrite) := fun _ => Nat.zero_le _
theorem marginWarn (isl : Fin 10) : Statement (.marginWarn isl) := fun _ => Nat.zero_le _
theorem marginWarnClear : Statement (.marginWarnClear) := fun _ => Nat.zero_le _
theorem marginLost (isl : Fin 10) (b : Machine.Boot) : Statement (.marginLost isl b) := fun _ => Nat.zero_le _
theorem vmotLoss : Statement (.vmotLoss) := fun _ => Nat.zero_le _
theorem vinTrial : Statement (.vinTrial) := fun _ => Nat.zero_le _
theorem vinTrialPass : Statement (.vinTrialPass) := fun _ => Nat.zero_le _
theorem vinNotBack : Statement (.vinNotBack) := fun _ => Nat.zero_le _
theorem bankingSequenceEnd (vinLost : Bool) : Statement (.bankingSequenceEnd vinLost) := fun _ => Nat.zero_le _
theorem vmotReturn : Statement (.vmotReturn) := fun _ => Nat.zero_le _
theorem powerOnReset (b : Machine.Boot) : Statement (.powerOnReset b) := fun _ => Nat.zero_le _
theorem emberRestore (lost : List (Nat × Nat)) : Statement (.emberRestore lost) := fun _ => Nat.zero_le _
theorem svnFuseBlow : Statement (.svnFuseBlow) := fun _ => Nat.zero_le _
theorem tamperEdge (inReset : Bool) : Statement (.tamperEdge inReset) := fun _ => Nat.zero_le _
theorem hearthstoneOpRetry : Statement (.hearthstoneOpRetry) := fun _ => Nat.zero_le _
theorem entropyTestFail (startOk : Bool) : Statement (.entropyTestFail startOk) := fun _ => Nat.zero_le _
theorem junctionSense (hearth bellows : Int) : Statement (.junctionSense hearth bellows) := fun _ => Nat.zero_le _
theorem perstDeassert : Statement (.perstDeassert) := fun _ => Nat.zero_le _
theorem linkUp (rate : Fin 6) (width : Fin 5) : Statement (.linkUp rate width) := fun _ => Nat.zero_le _
theorem aggregationTimeExpire (v : Fin 65) : Statement (.aggregationTimeExpire v) := fun _ => Nat.zero_le _
theorem buckRestart (b : Machine.Boot) : Statement (.buckRestart b) := fun _ => Nat.zero_le _
theorem rampStop (act : Fin 4) : Statement (.rampStop act) := fun _ => Nat.zero_le _

end Sys2Proof.Laws.Bounded
end

