-- ==== Sys2Proof/Tests/Slice0.lean ====
section
/-! SUPPORT. Tests: ill-formed commands, the spec's worked examples, and a state that meets the hypotheses of each clause of
each statement. -/
namespace Sys2Proof.Tests
open Sys2Proof
open Sys2Proof.Machine
set_option Elab.async false

/-! ## Small states -/

/-- A submission queue entry with an opcode. -/
def ent (opc : Byte) (nsid : Word := 0) : SqEntry :=
  { opc := opc, fuse := 0, psdt := 0, cid := 7, nsid := nsid, dw2 := 0, kptr := 0, dw10 := 0, dw11 := 0, dw12 := 0, dw13 := 0,
    dw14 := 0, dw15 := 0, kbytes := [], sglKindsOk := true, blocks := [] }
/-- A context of a queue. -/
def cx (sq : Nat) (e : SqEntry) (ph : CtxPhase := .accepted) : Ctx :=
  { sq := sq, pooled := false, accept := 0, entry := e, phase := ph, staged := false, inflight := [], ends := false, lines := [],
    clock := 0, parts := [], recheck := false, stream := none, checked := false }
/-- The reset state with one context. -/
def one (x : Ctx) : State := { State.reset with host.ctxs := [(0, x)] }
/-- An admin command, an object command, a zoned command. -/
def adm (opc : Byte) (f : SqEntry → SqEntry := fun e => e) : Ctx := cx 0 (f (ent opc))
def obj (opc : Byte) (f : SqEntry → SqEntry := fun e => e) : Ctx := cx 1 (f (ent opc 1))
def zon (opc : Byte) (f : SqEntry → SqEntry := fun e => e) : Ctx := cx 1 (f (ent opc 2))
/-- A start-up that finds everything well. -/
def boot : Boot :=
  { kindling := 0, selfTest := true, straps := 0, sbSel := false, hobCopy := true, spindleD4 := true, failed := [], lanes := [],
    items := default, integrity := true, dramOk := true, vmot := 12, crc1 := none, crc2 := none, badItems := [] }
/-- A state with every block enabled. -/
def on (s : State := State.reset) : State := { s with reg.blk := s.reg.blk.map fun b => { b with en := true } }

/-! ## Ill-formed commands -/

theorem test_wf_entry : wellFormed (.commandAccept 0 { ent 0 with kbytes := List.replicate 577 0 }) = false := by decide +kernel
theorem test_wf_enable : wellFormed (.ccEnSet 0 1 0 0) = false := by decide +kernel
theorem test_wf_link : wellFormed (.linkUp 5 3) = false := by decide +kernel
theorem test_wf_download : wellFormed (.firmwareImageDownload 0 [0]) = false := by decide +kernel
theorem test_wf_enrol : wellFormed (.integratorKeyEnrol 0 [] (some [])) = false := by decide +kernel
theorem test_wf_commit : wellFormed (.putCommit 0 []) = false := by decide +kernel
theorem test_wf_register : wellFormed (.registerWrite .hearth 0 0 15 [] ⟨0, [], none, boot⟩) = false := by decide +kernel
theorem test_wf_store : wellFormed (.controlStoreReload 0 true 2048) = false := by decide +kernel
theorem test_wf_verify : wellFormed (.verifyRead 0 0 (some [])) = false := by decide +kernel
theorem test_wf_slices : wellFormed (.sliceMonitorBlock 0 [] []) = false := by decide +kernel
theorem test_wf_samples : wellFormed (.codewordComplete 0 ⟨[0], []⟩) = false := by decide +kernel
theorem test_wf_pause : wellFormed (.pauseWrite .hearth 0 true 16777217 []) = false := by decide +kernel
theorem test_wf_bus_error : wellFormed (.flueBusError 0 false 16777217 []) = false := by decide +kernel
theorem test_wf_packet : wellFormed (.health (.nvme 4096) []) = false ∧ wellFormed (.health .mctp (List.replicate 4097 0)) = false := by
  decide +kernel


/-! ## The spec's worked examples -/

/-- "123456789" in ASCII. -/
def nine : List Byte := [0x31, 0x32, 0x33, 0x34, 0x35, 0x36, 0x37, 0x38, 0x39]
/-- R54's check value of CRC-64. -/
theorem test_crc64 : crc64 nine = 0x62EC59E3F1A4F00A := by decide +kernel
/-- R544's check value of CRC-32C. -/
theorem test_crc32c : crc32c nine = 0xE3069283 := by decide +kernel
/-- R56's values of the Cauchy matrix of 15+5. -/
theorem test_cauchy : cauchy 5 0 0 = 0xA7 ∧ cauchy 5 0 1 = 0x7A ∧ cauchy 5 1 0 = 0x47 := by decide +kernel
/-- Table 19.2's examples of decoding. -/
theorem test_decode : regDecode 9 0x300 = 0x300 ∧ regDecode 11 0xF24 = 0xF04 ∧ regDecode 12 0xA60 = 0xA00 := by decide +kernel
/-- Table 5.3: the grates in service each hold a result and 5 was served last. -/
theorem test_collector :
    let g : GrateResult := ⟨0, 0, 0, 0, 0, 0, 0, 0, [], ⟨0, 0, 0, ⟨0, 0, 0⟩, 0, 0, false, 0, [], false, false⟩⟩
    let s : State := { State.reset with grt.last := 5, grt.grate := Vector.ofFn fun i => ⟨i.val < 12, false, none, none, if i.val < 12 then [g] else [], none, 0⟩ }
    nextServed s = some 6 ∧ nextServed { s with grt.last := 11 } = some 0 := by decide +kernel

/-! ## Steps, commands and invariants -/

theorem witness_StepRunsFrontCommand : State.reset.pending = [] := rfl
theorem witness_CommandsLeaveTheQueue : exec .ashRecordWrite State.reset = .next State.reset := by rfl
theorem witness_ClockNeverFalls : step State.reset = .next { State.reset with time := 1 } := by rfl
theorem witness_MemoriesStayCanonical : MemoriesWf State.reset ∧ step State.reset = .next { State.reset with time := 1 } :=
  ⟨by unfold MemoriesWf; decide +kernel, by rfl⟩
/-- A block whose ZEROIZE fuse is blown. -/
def dead : State := { State.reset with sec.zeroFuse := true }
theorem witness_ZeroizationIsForLife : ZeroizedForLife dead ∧ step dead = .next { dead with time := 1 } :=
  ⟨by unfold ZeroizedForLife; decide +kernel, by rfl⟩
theorem witness_ZeroizedNeverSigns : ZeroizedForLife dead ∧ dead.sec.zeroFuse = true :=
  ⟨by unfold ZeroizedForLife; decide +kernel, by decide +kernel⟩

/-! ## Transport -/

/-- Admin queues, one I/O submission queue of four entries, one I/O completion queue of two. -/
def qs : State := { on with
  host.en := true, host.fetching := true,
  host.sqs := [(0, ⟨2, 0, 1, 0, 0, none, []⟩), (1, ⟨4, 0, 3, 1, 0, none, []⟩)],
  host.cqs := [(0, ⟨2, 0, 0, 0, true, []⟩), (1, ⟨2, 0, 0, 1, true, []⟩)] }
/-- A queue state with the contexts of commands. -/
def qcx (l : List (Nat × Ctx)) (s : State := qs) : State := { s with host.ctxs := l }
/-- A completion. -/
def ok0 : Completion := ⟨0, 0, 0, 0, []⟩

theorem witness_DoorbellsMoveTheirQueue :
    (sqBy qs 1 = some ⟨4, 0, 3, 1, 0, none, []⟩ ∧ (3 : Fin 65536).val < 4) ∧ 4 ≤ (4 : Fin 65536).val ∧ sqBy qs 2 = none ∧
    (let x : CompQueue := ⟨2, 0, 1, 1, true, [⟨1, 0, ok0⟩]⟩
     let s : State := { qs with host.cqs := [(1, x)] }
     cqBy s 1 = some x ∧ (1 + x.size - x.head) % x.size ≤ x.entries.length ∧ cqBy s 2 = none) ∧
    (cqBy qs 1 = some ⟨2, 0, 0, 1, true, []⟩ ∧ 0 < (1 + 2 - 0) % 2) := by decide +kernel

/-- The least and the greatest number of the ceiling, a queue at its reserve, and an entry that acceptance refuses. -/
theorem witness_AcceptanceNumbersRise :
    (qs.host.fetching = true ∧ mayFetch qs 1 = true ∧ ctxDraw qs 1 = some (0, false) ∧ qs.host.accept ≤ qs.host.ceiling ∧
      acceptStatus qs 1 (ent 0x98 1) = none ∧ acceptStatus qs 1 (ent 0x99 1) ≠ none) ∧
    (let s := qcx ((List.range 8).map fun i => (i, obj 0x98))
     mayFetch s 1 = true ∧ ctxDraw s 1 = some (8, true)) ∧
    (let s : State := { qs with host.ams := 1 }
     s.host.ams = 1 ∧ (1 : Fin 65).val ≠ 0 ∧ eligible s 0 = true) ∧
    (let s : State := { qs with
       host.ams := 1, host.sqs := [(1, ⟨4, 0, 3, 1, 1, none, []⟩), (2, ⟨4, 0, 3, 1, 3, none, []⟩)], host.credits := (0, 1, 1) }
     arbClass s 1 = 2 ∧ creditOf (creditsNow s) (prioOf s 1) = 0 ∧ mayFetch s 2 = true) := by decide +kernel

theorem witness_CompletionsPostInOrder :
    let s := qcx [(4, obj 0x98), (0, cx 1 (ent 0x98 1) (.done ok0))]
    let f : State := { s with host.cqs := [(1, ⟨2, 1, 0, 1, true, [⟨1, 0, ok0⟩]⟩)] }
    (mayPost s (cx 1 (ent 0x98 1) (.done ok0)) = true ∧ ctxBy s 0 = some (cx 1 (ent 0x98 1) (.done ok0)) ∧ 0 ∉ s.host.dataErr ∧
      sqBy s 1 = some ⟨4, 0, 3, 1, 0, none, []⟩ ∧ cqBy s 1 = some ⟨2, 0, 0, 1, true, []⟩ ∧ (0 + 1) % 2 ≠ 0) ∧
    (cqBy f 1 = some ⟨2, 1, 0, 1, true, [⟨1, 0, ok0⟩]⟩ ∧ mayPost f (cx 1 (ent 0x98 1) (.done ok0)) = true ∧ (0 + 1) % 2 = 1) ∧
    { s with flt.class3 := true : State }.flt.class3 = true := by decide +kernel

theorem witness_ControllerResetsAndReadiness :
    (let s : State := { State.reset with host.perst := false, flt.fwRunning := true }
     s.host.en = false ∧ s.host.perst = false ∧ (1 : Fin 4096).val ≠ 0 ∧ s.flt.fwRunning = true ∧ s.flt.class3 = false ∧ s.fw.act = none) ∧
    qs.host.en = true ∧ { State.reset with host.link := ⟨true, 5, 4, 0⟩ : State }.host.link.up = true ∧
    (let s : State := { qs with host.shutting := true, host.shst := 1 }
     s.host.en = true ∧ s.host.shutting = true ∧ s.host.shst ≠ 2 ∧ s.host.ctxs = [] ∧ dirtyCount s = 0 ∧ allUnloaded s = true) ∧
    (let s : State := { State.reset with host.perst := false, pwr.powered := true }
     s.host.perst = false ∧ s.host.link.up = false ∧ s.pwr.powered = true) := by decide +kernel

theorem witness_QueueManagement :
    (let x := adm 0x05 fun e => { e with dw10 := 0x00010040, dw11 := 0x00400003 }
     Ready (qcx [(0, x)]) 0 (isAdmin 0x05) x ∧ cqBy (qcx [(0, x)]) 64 = none) ∧
    (let x := adm 0x01 fun e => { e with dw10 := 0x0FFF0002, dw11 := 0x00010001 }
     Ready (qcx [(0, x)]) 0 (isAdmin 0x01) x ∧ sqBy (qcx [(0, x)]) 2 = none ∧ (cqBy (qcx [(0, x)]) 1).isSome = true) ∧
    (let x := adm 0x04 fun e => { e with dw10 := 2 }
     let s : State := { qcx [(0, x)] with host.cqs := [(2, ⟨2, 0, 0, 1, true, []⟩)] }
     Ready s 0 (isAdmin 0x04) x ∧ (cqBy s 2).isSome = true ∧ ∀ y ∈ s.host.sqs, y.2.cq ≠ 2) ∧
    (let x := adm 0x00 fun e => { e with dw10 := 1 }
     Ready (qcx [(0, x)]) 0 (isAdmin 0x00) x ∧ sqBy (qcx [(0, x)]) 1 = some ⟨4, 0, 3, 1, 0, none, []⟩) := by decide +kernel

theorem witness_PlainAdminCommands :
    (let x := adm 0x06 fun e => { e with dw10 := 2 }
     Ready (one x) 0 (isAdmin 0x06) x ∧ (identifyData (one x) 2 0).isSome = true) ∧
    (let x := adm 0x02 fun e => { e with dw10 := 0xC0 }
     Ready (one x) 0 (isAdmin 0x02) x ∧ logPage (one x) 0xC0 = some [] ∧ sanitizing (one x) = false) ∧
    (let x := adm 0x08
     Ready (one x) 0 (isAdmin 0x08) x) ∧
    (let x := adm 0x0A fun e => { e with dw10 := 7 }
     Ready (one x) 0 (isAdmin 0x0A) x ∧ 7 ∈ features) ∧
    (let x := adm 0x09 fun e => { e with dw10 := 0x19 }
     Ready (one x) 0 (isAdmin 0x09) x ∧ 0x19 ∈ [0x01, 0x04, 0x08, 0x0B, 0x19]) ∧
    (let x := adm 0x0C
     let w := cx 0 (ent 0x0C) .outstanding
     Ready (qcx [(0, x), (1, w), (2, w), (3, w)]) 0 (isAdmin 0x0C) x ∧ Ready (qcx [(0, x), (1, w), (2, w), (3, w), (4, w)]) 0 (isAdmin 0x0C) x) := by
  decide +kernel

theorem witness_FirmwareUpdate :
    (let x := adm 0x11 fun e => { e with dw10 := 1023, dw11 := 1024 }
     Ready (one x) 0 (isAdmin 0x11) x ∧ Memory.wf (one x).fw.download = true ∧ (x.entry.dw11.toNat * 4) % 4096 = 0 ∧
       ((x.entry.dw10.toNat + 1) * 4) % 4096 = 0) ∧
    (let x := adm 0x10 fun e => { e with dw10 := 2 }
     Ready (one x) 0 (isAdmin 0x10) x ∧ (one x).fw.act = none) ∧
    (let s : State := { State.reset with fw.act := some (.waiting 1, 0) }
     s.fw.act = some (.waiting 1, 0) ∧ s.pwr.banking = false) ∧
    (let s : State := { one (cx 0 (ent 0x10) .outstanding) with fw.act := some (.running 1, 0) }
     s.fw.act = some (.running 1, 0) ∧ allRecalled s = true ∧ s.pwr.banking = false ∧ (ctxBy s 0).isSome = true) := by decide +kernel

theorem witness_AggregationAndCyzonReceive :
    (let s : State := { State.reset with host.agg := [(64, 2, 0)] }
     (s.host.agg.find? fun a => a.1 = 64) = some (64, 2, 0)) ∧
    (let x := adm 0xC1 fun e => { e with dw10 := 16 }
     let y := adm 0xC1 fun e => { e with dw10 := 17 }
     let r : CyzonReply := ⟨false, 0, 1, 0, 0, 0, [1], true, false⟩
     let s : State := { one y with cyz.replies := [r], cyz.open_ := [(false, 0)] }
     (Ready (one x) 0 (isAdmin 0xC1) x ∧ (replyPacket ⟨false, 0, 0, 0, 7, 0, [], true, true⟩).length ≤ 16) ∧
     Ready s 0 (isAdmin 0xC1) y ∧ heldReply s false 0 = some r ∧ (replyPacket r).length ≤ 17 ∧ (false, 0) ∈ s.cyz.open_) := by
  decide +kernel

theorem witness_SanitizeAndFormatBegin :
    let v : Version := ⟨1, .live, 0, true, 0, 0, 0, [], [], 0, false, false⟩
    let held := fun (x : Ctx) => ({ one x with obj.objs := [⟨[1], 1, 1, [v]⟩] } : State)
    (let x := adm 0x84 fun e => { e with dw10 := 4 }
     Ready (one x) 0 (isAdmin 0x84) x ∧ formatting (one x) = false ∧ ioBefore (one x) 0 = false ∧ retainedCount (one x) 0 = 0 ∧
       Ready (held x) 0 (isAdmin 0x84) x ∧ retainedCount (held x) 0 = 1 ∧ (held x).sec.lc ≠ .decommissioned) ∧
    (let x := adm 0x80 fun e => { e with nsid := 0xFFFFFFFF, dw10 := 0x400 }
     Ready (one x) 0 (isAdmin 0x80) x ∧ dwBits x.entry.dw10 11 9 = 2 ∧ formatting (one x) = false ∧ retainedCount (one x) 0 = 0 ∧
       Ready (held x) 0 (isAdmin 0x80) x ∧ retainedCount (held x) 0 = 1) := by decide +kernel

/-- A media operation at a point, on one index ring of surface 0. -/
def mopAt (r : MediaProgress) : State := { State.reset with
  mop.rec_ := r, str.heads := vset State.reset.str.heads 0 .inService, prof.present := 1,
  str.rings := [((0, 1), ⟨.index, 0, 1, 0, 0⟩)],
  sec.ranges := State.reset.sec.ranges.set 1 { State.reset.sec.ranges.getD 1 default with wrappedKey := some [] } }
theorem witness_MediaOperationStages :
    ((mopAt ⟨1, 1, 0, 1, 0, 0, 0, 0⟩).pwr.banking = false ∧ (mopAt ⟨1, 1, 0, 1, 0, 0, 0, 0⟩).flt.class3 = false ∧
      (mopAt ⟨1, 1, 0, 1, 0, 0, 0, 0⟩).sec.drbgStopped = false ∧ (mopAt ⟨1, 1, 0, 1, 0, 0, 0, 0⟩).mop.rec_.passes ≠ 0 ∧
      keyedRanges (mopAt ⟨1, 1, 0, 1, 0, 0, 0, 0⟩) ≠ []) ∧
    ((mopAt ⟨2, 2, 1, 1, 0, 2, 0, 0⟩).mop.rec_.ringsDone + 1 < (mopAt ⟨2, 2, 1, 1, 0, 2, 0, 0⟩).mop.rec_.ringsTotal) ∧
    ((mopAt ⟨2, 2, 1, 2, 1, 2, 0, 0⟩).mop.rec_.ringsTotal ≤ (mopAt ⟨2, 2, 1, 2, 1, 2, 0, 0⟩).mop.rec_.ringsDone + 1 ∧
      (mopAt ⟨2, 2, 1, 2, 1, 2, 0, 0⟩).mop.rec_.pass < (mopAt ⟨2, 2, 1, 2, 1, 2, 0, 0⟩).mop.rec_.passes ∧
      (mopAt ⟨2, 2, 2, 2, 1, 2, 0, 0⟩).mop.rec_.passes ≤ (mopAt ⟨2, 2, 2, 2, 1, 2, 0, 0⟩).mop.rec_.pass) ∧
    (let s := mopAt ⟨2, 3, 1, 1, 0, 2, 0, 0⟩
     s.mop.rec_.state = 3 ∧ formatSurfaces s ≠ [] ∧ formatRings s ≠ [] ∧ s.mop.rec_.ringsDone < (formatRings s).length) ∧
    (let s := mopAt ⟨2, 3, 1, 1, 9, 9, 0, 0⟩
     (formatRings s).length ≤ s.mop.rec_.ringsDone ∧ cornerLeft s = 0) ∧
    (mopAt ⟨2, 3, 1, 1, 0, 2, 0, 0⟩).mop.rec_.state = 3 ∧ (4 ≤ (mopAt ⟨2, 4, 1, 1, 0, 2, 0, 0⟩).mop.rec_.state) := by decide +kernel

/-! ## Security -/

/-- A Security Send and a Security Receive with DW10 and DW11. -/
def sSend (d : Word) (n : Word := 0) : Ctx := adm 0x81 fun e => { e with dw10 := d, dw11 := n }
def sRecv (d : Word) (n : Word := 0) : Ctx := adm 0x82 fun e => { e with dw10 := d, dw11 := n }
/-- A state with one context and a hearthstone that can sign, draw and make keys. -/
def hs (x : Ctx) (op : Option HsOp := none) : State := { one x with
  sec.identity := [1], sec.nonce := some (List.replicate 32 5), sec.drbg := some (List.replicate 48 1), sec.swk := some (List.replicate 32 2), sec.op := op }
/-- A state with an Opal session. -/
def opal (sp : OpalSp) (as : List Authority) (op : Option HsOp := none) : State := { hs (sSend 0x01000100) op with
  sec.session := some ⟨sp, true, as⟩, sec.lockingActive := decide (sp = .locking) }
/-- A locking range row with a key. -/
def keyed : RangeRow := ⟨0, 0, false, false, false, true, true, some [1], none⟩

theorem witness_AttestationAndCertificates :
    (Sends (one (sSend 0xF0000400)) 0 (isF0 4) (sSend 0xF0000400) ∧ (List.replicate 32 (0 : Byte)).length = 32) ∧
    (let x := sRecv 0xF0000400 2000
     Receives (hs x) 0 (isF0 4) x ∧ (hs x).sec.nonce.isSome = true ∧ maySign (hs x) = true ∧ (hs x).sec.op = none ∧ (hs x).pwr.banking = false ∧
     Receives (hs x (some (.signing (some 0)))) 0 (isF0 4) x ∧ maySign (hs x (some (.signing (some 0)))) = true ∧ (hs x).sec.opRetry = false) ∧
    (State.reset.sec.meas.length = 5 ∧ (∀ m ∈ State.reset.sec.meas, m.length = 64) ∧ State.reset.sec.serial.length = 16) ∧
    (let x := sRecv 0xF0000500 64
     let s : State := { one x with sec.certs := [1] }
     Receives s 0 (isF0 5) x ∧ s.sec.certs ≠ []) := by decide +kernel

theorem witness_LifeCycleTokens :
    (let x := sRecv 0xF0000100 32
     let s := hs x (some (.drbg 0))
     Receives s 0 (isF0 1) x ∧ drbgReady s = true ∧ s.sec.opRetry = false) ∧
    (Sends (one (sSend 0xF0000200)) 0 (isF0 2) (sSend 0xF0000200) ∧ (one (sSend 0xF0000200)).sec.token = none) ∧
    (let x := cx 0 (ent 0x81) .outstanding
     let s : State := { one x with sec.token := some (0, false) }
     dirtyCount s = 0 ∧ (s.host.ctxs.find? fun y => y.2.accept = 0) = some (0, x) ∧ ctxBy s 0 = some x) ∧
    (let s : State := { State.reset with sec.token := some (0, true) }
     s.sec.token = some (0, true) ∧ ∀ y ∈ s.host.ctxs, y.2.accept ≠ 0) ∧
    (leNat (slice ([] : List Byte) 10 1) ≠ lcCode .deployed ∧ State.reset.sec.challenge ≠ some (slice [] 32 32)) := by decide +kernel

theorem witness_IntegratorKeyEnrolment :
    let x := sSend 0xF0000300
    Sends (one x) 0 (isF0 3) x ∧ (List.replicate 1793 (0 : Byte)).length = 1793 ∧
    (let s : State := { one x with sec.lc := .provisioned }
     s.sec.integrator = none ∧ s.sec.lc = .provisioned ∧ Sends s 0 (isF0 3) x) := by decide +kernel

theorem witness_OpalSessionsAndCredentials :
    (let x := sRecv 0x01000100 512
     Receives (one x) 0 isOpal x ∧ comId x.entry = 1) ∧
    (let x := sSend 0x01000100
     let p : CPin := ⟨.sid, [1], [2], 4⟩
     let s : State := { opal .admin [] with sec.cpins := [p] }
     let r : State := { opal .admin [] with sec.cpins := [⟨.sid, [1], shake256 [1, 9] 32, 4⟩] }
     Sends (one x) 0 isOpal x ∧ (one x).sec.session = none ∧ Sends s 0 isOpal x ∧ s.sec.session ≠ none ∧ spOf .sid = some .admin ∧
       cpinOf s .sid = some p ∧ s.sec.zeroFuse = false ∧ shake256 ([1] ++ [9]) 32 ≠ [2] ∧ (cpinOf r .sid).map (·.hash) = some (shake256 ([1] ++ [9]) 32) ∧
       cpinOf { opal .admin [] with sec.cpins := [⟨.sid, [1], [2], 5⟩] } .sid = some ⟨.sid, [1], [2], 5⟩) := by decide +kernel

theorem witness_OpalTables :
    let x := sSend 0x01000100
    let s := opal .locking [.lockAdmin 1]
    (Sends s 0 isOpal x ∧ s.sec.session = some ⟨.locking, true, [.lockAdmin 1]⟩ ∧
      [OpalCell.rangeStart 64, .mbrEnable].mapM (cellGet s) = some [leBytes 8 0, [0]] ∧
      (∃ k ∈ [OpalCell.cpin .sid], cellGet s k = none)) ∧
    (let u := opal .locking [] (some (.drbg 0))
     drbgReady u = true ∧ u.sec.op = some (.drbg 0) ∧ u.sec.opRetry = false ∧ Sends u 0 isOpal x) ∧
    (let sets := [(OpalCell.rangeUser 1 1, [(1 : Byte)])]
     (∀ k ∈ sets, mayWriteCell s ⟨.locking, true, [.lockAdmin 1]⟩ k.1 = true) ∧ (∀ k ∈ sets, lockCell k.1 = false) ∧
       ∃ k ∈ sets, mayWriteCell s ⟨.locking, false, [.lockAdmin 1]⟩ k.1 = false) ∧
    (let u := opal .locking [.lockAdmin 1] (some (.rangeUnwrap 0))
     Sends u 0 isOpal x ∧ mayWriteCell u ⟨.locking, true, [.lockAdmin 1]⟩ (.readLocked 64) = true ∧ u.sec.op = some (.rangeUnwrap 0) ∧
       u.sec.opRetry = false ∧ u.sec.swk.isSome = true ∧ u.sec.refusing = false ∧ u.sec.lc ≠ .diagnostic ∧ 64 < u.sec.ranges.length) ∧
    { State.reset with sec.lc := .diagnostic : State }.sec.lc = .diagnostic := by decide +kernel

/-- Range 1 has a key; an object with one live version, retained or not, names it. -/
def lockd (sp : OpalSp) (as : List Authority) (hold : Bool) : State :=
  { opal sp as (some (.drbg 0)) with
    sec.ranges := [default, keyed], obj.objs := [⟨[1], 1, 1, [⟨1, .live, 1, hold, 0, 0, 0, [], [], 0, false, false⟩]⟩] }
theorem witness_OpalKeyReplacement :
    let x := sSend 0x01000100
    let y : OpalSession := ⟨.locking, true, [.lockAdmin 1]⟩
    (let s := lockd .locking [.lockAdmin 1] true
     Sends s 0 isOpal x ∧ s.sec.session = some y ∧ (y.write && hasSid y) = false ∧ lockAdmin y = true ∧ 0 ∉ keyedRanges s ∧
       1 ∈ keyedRanges s ∧ keptByRetention s x [1] = true) ∧
    (let s := lockd .locking [.lockAdmin 1] false
     Sends s 0 isOpal x ∧ MayErase s x [1] ∧ rangeVersions s 1 ≠ [] ∧ keyedRanges s = [1] ∧ s.sec.op = some (.drbg 0) ∧
       s.sec.opRetry = false ∧ admits s (erasedBy s 0 x [1] id) = true ∧ admits s (erasedBy s 0 x [1] lockingReset) = true ∧
       MayErase { s with sec.op := none } x [1] ∧ s.pwr.banking = false ∧ mayKey { s with sec.drbgStopped := true } = false) ∧
    (let s : State := { lockd .locking [.lockAdmin 1] false with pwr.wrHeld := true }
     Sends s 0 isOpal x ∧ MayErase s x [1] ∧ admits s (erasedBy s 0 x [1] id) = false ∧ admits s (erasedBy s 0 x [1] lockingReset) = false) ∧
    (let s : State := { lockd .locking [.lockAdmin 1] false with
       sec.ranges := [default, { keyed with start := 0, length := 8 }],
       zns.zones := [{ (default : Zone) with state := .closed }], str.groups := [⟨1, .data, 1, 1, .opened, 0, [], 0, some 0⟩],
       reqs := [⟨7, .host, 0, [{ (default : ReqLeaf) with stripe := some (stripeNo 1 0) }], 0, false⟩] }
     keptByRetention s x [1] = false ∧ mayKey s = true ∧ rangesRead s [1] = true) ∧
    (let s := lockd .admin [.psid] false
     Sends s 0 isOpal x ∧ Authority.psid ∈ [Authority.psid] ∧ MayErase s x (keyedRanges s) ∧
       admits s (erasedBy s 0 x [1] fun t => lockingReset { t with sec.cpins := t.sec.cpins.filter fun p => p.authority = .psid }) = true) ∧
    (let s : State := { opal .admin [.sid] (some (.drbg 0)) with sec.cpins := [⟨.sid, [], [], 0⟩] }
     Sends s 0 isOpal x ∧ hasSid ⟨.admin, true, [.sid]⟩ = true ∧ s.sec.lockingActive = false ∧ mayKey s = true ∧
       cpinOf s .sid = some ⟨.sid, [], [], 0⟩ ∧ s.sec.ranges.length = 65 ∧ { s with sec.lockingActive := true : State }.sec.lockingActive = true) := by
  intro x y; and_intros <;> decide +kernel

/-! ## Objects -/

/-- A key of one byte at KPTR. -/
def keyK : SqEntry → SqEntry := fun e => { e with dw10 := 1, kbytes := [9] }
/-- A session of key 9. -/
def sess (accepted : Nat) (b : List Byte) : Session :=
  ⟨[9], 1, 2, 0, true, 5, false, false, accepted, 0, b, if accepted = 0 then [] else [⟨0, none⟩], false⟩
/-- A version of object 1. -/
def ver (no : Nat) (retain : Nat := 0) (hold : Bool := false) (len : Nat := 0) (pinned : Bool := false) : Version :=
  ⟨no, .live, 0, hold, retain, 0, len, [], [], 0, false, pinned⟩
/-- Object 1 with a session in slot 3 under generation 2, and one context. -/
def store (x : Ctx) (y : Session) (vs : List Version := [ver 1]) : State := { one x with
  obj.slots := [⟨0, none⟩, ⟨0, none⟩, ⟨0, none⟩, ⟨2, some y⟩], obj.objs := [⟨[9], 1, 2, vs⟩] }
/-- Nine surfaces with one free data ring each. -/
def rings9 (s : State) : State := { s with
  str.heads := Vector.replicate 32 .inService,
  str.rings := [0, 1, 2, 8, 9, 16, 17, 24, 25].map fun f => ((f, 7), ⟨.data, 1, 0, 0, 0⟩) }

/-- A state whose locking range 1 has a key but is locked by an empty slot. -/
def lock1 (s : State) : State := { s with
  sec.ranges := s.sec.ranges.set 1 { s.sec.ranges.getD 1 default with wrappedKey := some [] } }

theorem witness_PutSessionsTakeBytes :
    (let x := obj 0x80 keyK
     Ready (one x) 0 (isObj 0x80) x ∧ rangeUsable (one x) 0 = true ∧ writeLocked (one x) 0 = false ∧ (one x).obj.slots.length = 256 ∧
       sessOf (one x) 255 = none) ∧
    (let x := obj 0x80 keyK
     let s : State := { one x with obj.slots := List.replicate 256 ⟨0, some (sess 0 [])⟩ }
     Ready s 0 (isObj 0x80) x ∧ rangeUsable s 0 = true ∧ ∀ m, m < 256 → sessOf s m ≠ none) ∧
    (let x := obj 0x80 fun e => { keyK e with dw11 := 1 }
     Ready (one x) 0 (isObj 0x80) x ∧ rangeUsable (one x) 1 = false ∧ Ready (lock1 (one x)) 0 (isObj 0x80) x ∧
       rangeUsable (lock1 (one x)) 1 = true ∧ writeLocked (lock1 (one x)) 1 = true) ∧
    (let x := obj 0x81 fun e => { e with dw2 := 0x203, dw11 := 3, dw12 := 5 }
     let y := sess 5 [1, 2, 3, 4, 5]
     let s := store x y
     let f : State := { s with pwr.wrHeld := true }
     let take := fun (s : State) => onSession s 3 fun y => { y with accepted := 8 }
     Ready s 0 (isObj 0x81) x ∧ sessionAt s x.entry.handle = some (3, y) ∧ writeLocked s 0 = false ∧ x.entry.argA = 5 ∧
       reservedSlots s + heldSlots s + ((5 + 3 + 32767) / 32768 - (5 + 32767) / 32768) ≤ freeCapacity s ∧
       admits (take s) (putStage (take s) 0 x 3 y [6]) = true ∧ heldBefore s x.entry.handle x.accept = false ∧
       Ready f 0 (isObj 0x81) x ∧ sessionAt f x.entry.handle = some (3, y) ∧ admits (take f) (putStage (take f) 0 x 3 y [6]) = false ∧
       sessionAt (store x (sess 6 [])) x.entry.handle = some (3, sess 6 [])) ∧
    (let x := cx 1 { ent 0x81 1 with dw2 := 0x203, dw11 := 3, dw12 := 5 } .held
     let y := sess 8 [1, 2, 3, 4, 5]
     let s := store x y
     ctxBy s 0 = some x ∧ isObj 0x81 x = true ∧ 0 ∉ s.host.dataErr ∧ sessionAt s x.entry.handle = some (3, y) ∧
       heldBefore s x.entry.handle x.accept = false ∧ admits s (putStage s 0 x 3 y [6]) = true) ∧
    (let x := obj 0x88 fun e => { e with dw2 := 0x203 }
     Ready (store x (sess 5 [])) 0 (isObj 0x88) x ∧ sessionAt (store x (sess 5 [])) x.entry.handle = some (3, sess 5 []) ∧
       heldBefore (store x (sess 5 [])) x.entry.handle x.accept = false) := by
  and_intros <;> decide +kernel

/-- A session whose bytes are all absorbed, in a state that admits its commit, and one that does not. -/
theorem witness_PutCommitMakesVersionLive :
    let x := obj 0x85 fun e => { e with dw2 := 0x203, dw12 := 2, dw10 := 0x100 }
    let z := obj 0x85 fun e => { e with dw2 := 0x203, dw12 := 1 }
    let y := sess 2 [1, 2]
    let s := store x y
    let f : State := { s with pwr.wrHeld := true }
    let d := shake256 y.absorbed 64
    let done := fun s => succeed (commitVersion s 3 y d (x.accept + 1)) 0 y.version
    Ready s 0 (isObj 0x85) x ∧ sessionAt s x.entry.handle = some (3, y) ∧ writeLocked s 0 = false ∧
      objBy s [9] = some ⟨[9], 1, 2, [ver 1]⟩ ∧ x.entry.argA = 2 ∧ x.entry.flags % 2 = 1 ∧ d ≠ [] ∧ admits s (done s) = true ∧
      Ready f 0 (isObj 0x85) x ∧ sessionAt f x.entry.handle = some (3, y) ∧ admits f (done f) = false ∧
      sessionAt (store x (sess 2 [1])) x.entry.handle = some (3, sess 2 [1]) ∧
      Ready (store z y) 0 (isObj 0x85) z ∧ z.entry.argA ≠ 2 := by
  intro x z y s f d done
  and_intros <;> decide +kernel

/-- A leaf that no reader could bring. -/
def noLeaf : ReqLeaf := ⟨0, ⟨0, 0, 0⟩, some 3, 0, [.data], .unreadable, 0, 0, 0, none, false, false, 0, none, false, none⟩
/-- A request of context 0 with leaves. -/
def reqOf (l : List ReqLeaf) : Request := ⟨0, .host, 0, l, 0, false⟩
/-- A Get that reads version 1 of object 1, and a state with its request. -/
def getC (ps : List ReadPart) : Ctx := { cx 1 (ent 0x82 1) (.reading 1 1) with parts := ps }
def getS (x : Ctx) (v : Version) (l : List ReqLeaf) : State := { store x (sess 0 []) [v] with reqs := [reqOf l] }

theorem witness_GetStatList :
    (let x := obj 0x82 fun e => { keyK e with dw14 := 1 }
     let at' := fun (v : Version) => store x (sess 0 []) [v]
     let no := obj 0x82 fun e => { e with dw10 := 1, kbytes := [8] }
     let st := obj 0x82 fun e => { keyK e with dw10 := 0x101, dw12 := 1 }
     Ready (at' (ver 1)) 0 (isObj 0x82) x ∧
       (∀ v ∈ [{ ver 1 with damaged := true }, { ver 1 with lrange := 1 }, ver 1, { ver 1 with length := 1 }],
         resolve (at' v) x.entry.key (getVersion (at' v) x) true = .ok (⟨[9], 1, 2, [v]⟩, v)) ∧
       readLocked (at' (ver 1)) 1 = true ∧ readLocked (at' (ver 1)) 0 = false ∧ (ver 1).length < x.entry.argA + x.entry.dw14.toNat ∧
       (streamStep (at' { ver 1 with length := 1 }) x x.entry.key { ver 1 with length := 1 }).toOption.isSome = true ∧
       Ready (store no (sess 0 [])) 0 (isObj 0x82) no ∧ (resolve (store no (sess 0 [])) no.entry.key 0 true).toOption = none ∧
       Ready (store st (sess 0 []) [{ ver 1 with length := 1 }]) 0 (isObj 0x82) st ∧
       (streamStep (store st (sess 0 []) [{ ver 1 with length := 1 }]) st st.entry.key { ver 1 with length := 1 }).toOption = none) ∧
    (let g := getC [⟨some (3, 0), 0, 4, []⟩]
     let e : Ctx := { getC [] with ends := true, stream := some 5 }
     let t : Stream := ⟨0, [9], 1, 0, 0, 5, true, []⟩
     let v : Version := { ver 1 with digest := shake256 [] 64 }
     isObj 0x82 g = true ∧ versionById (getS g (ver 1) [noLeaf]) 1 1 = some (ver 1) ∧ reqSettled (reqOf [noLeaf]) = true ∧
       reqBy (getS g (ver 1) [noLeaf]) 0 = some (reqOf [noLeaf]) ∧ firstMissing (partsWith g.parts [none]) = some 0 ∧
       versionById (getS (getC []) v []) 1 1 = some v ∧ reqSettled (reqOf []) = true ∧ firstMissing (partsWith [] []) = none ∧
       allBytes (getS (getC []) v []) (partsWith [] []) = some [] ∧ (getC []).ends = false ∧ v.digest = shake256 [] 64 ∧
       (ver 1).digest ≠ shake256 [] 64 ∧
       streamBy { getS e v [] with obj.streams := [t] } 5 = some t ∧ streamBytes { t with got := [(0, [])] } 0 = some []) ∧
    (let x : Ctx := { getC [] with recheck := true }
     let v : Version := { ver 1 with digest := shake256 [] 64 }
     let w := partsWith (versionParts (getS x v []) v 0 v.length) []
     ctxBy (getS x v []) 0 = some x ∧ isObj 0x82 x = true ∧ versionById (getS x v []) 1 1 = some v ∧
       firstMissing w = none ∧ (allBytes (getS x v []) w).map (shake256 · 64) = some v.digest ∧
       (allBytes (getS x v []) w).map (shake256 · 64) ≠ some (ver 1).digest) ∧
    (let x := obj 0x86 fun e => { keyK e with blocks := [(0, 384)] }
     let y := obj 0x86 keyK
     Ready (store x (sess 0 [])) 0 (isObj 0x86) x ∧ 384 ≤ ptrLen x.entry ∧
       (resolve (store x (sess 0 [])) x.entry.key 0 false).toOption = some (⟨[9], 1, 2, [ver 1]⟩, ver 1) ∧
       Ready (store y (sess 0 [])) 0 (isObj 0x86) y ∧ ptrLen y.entry < 384) ∧
    (let x := obj 0x8A fun e => { e with blocks := [(0, 16)] }
     let y := obj 0x8A
     Ready (store x (sess 0 [])) 0 (isObj 0x8A) x ∧ 16 ≤ ptrLen x.entry ∧ Ready (store y (sess 0 [])) 0 (isObj 0x8A) y ∧ ptrLen y.entry < 16) := by
  and_intros <;> decide +kernel

/-- A Copy of key 9 to key 9 with a locking range. -/
def copyC (lr : Byte) : Ctx := obj 0x8C fun e => { e with kbytes := [1, 1, lr] ++ List.replicate 13 0 ++ [9] ++ List.replicate 255 0 ++ [9] }
/-- A Delete or Hold with flags and a retention time, of a version with a retention time and a locking range. -/
def opC (opc : Byte) (fl a : Nat) : Ctx := obj opc fun e => { keyK e with dw10 := BitVec.ofNat 32 (1 + fl * 256), dw12 := BitVec.ofNat 32 a }
def opS (x : Ctx) (v : Version) : State := store x (sess 0 []) [v]
theorem witness_CopyDeleteHold :
    (let x := copyC 0
     let o := copyC 1
     let z := obj 0x8C
     let s := store x (sess 0 [])
     let u := store o (sess 0 [])
     let l := store x (sess 0 []) [{ ver 1 with lrange := 1 }]
     let f := store x (sess 0 []) [{ ver 1 with length := 1 }]
     let n : State := { s with obj.slots := List.replicate 256 ⟨0, some (sess 0 [])⟩ }
     let c := fun (s : State) (x : Ctx) => (copyPlan s x.entry).toOption.map fun p => (p.1.lrange, p.2.2.2)
     Ready (store z (sess 0 [])) 0 (isObj 0x8C) z ∧ c (store z (sess 0 [])) z = none ∧
       Ready s 0 (isObj 0x8C) x ∧ c s x = some (0, 0) ∧ rangeUsable s 0 = true ∧ readLocked s 0 = false ∧ writeLocked s 0 = false ∧
       reservedSlots s + heldSlots s + (0 + 32767) / 32768 ≤ freeCapacity s ∧ sessOf s 0 = none ∧
       Ready u 0 (isObj 0x8C) o ∧ c u o = some (0, 0) ∧ rangeUsable u 1 = false ∧
       Ready l 0 (isObj 0x8C) x ∧ c l x = some (1, 0) ∧ readLocked l 1 = true ∧
       Ready f 0 (isObj 0x8C) x ∧ c f x = some (0, 1) ∧ freeCapacity f < reservedSlots f + heldSlots f + (1 + 32767) / 32768 ∧
       Ready n 0 (isObj 0x8C) x ∧ c n x = some (0, 0) ∧ reservedSlots n + heldSlots n + (0 + 32767) / 32768 ≤ freeCapacity n ∧ freeSlot n = none) ∧
    (let x := cx 1 (ent 0x8C 1) (.moving 3)
     let y : Session := { sess 2 [1, 2] with acked := 2 }
     let s := store x y
     let f : State := { s with pwr.wrHeld := true }
     let done := fun (s : State) => succeed (commitVersion ((copyOwed s y).foldl (fun s u => onStaged s u fun l => { l with dirty := true }) s)
       3 y (shake256 y.absorbed 64) (x.accept + 1)) 0 y.version
     ctxBy s 0 = some x ∧ isObj 0x8C x = true ∧ sessOf s 3 = some y ∧ y.acked ≠ 0 ∧ (y.accepted + 32767) / 32768 ≤ y.leaves.length ∧ objBy s y.key = some ⟨[9], 1, 2, [ver 1]⟩ ∧ admits s (done s) = true ∧
       ctxBy f 0 = some x ∧ sessOf f 3 = some y ∧ admits f (done f) = false ∧
       sessOf (store x { y with leaves := [] }) 3 = some { y with leaves := [] } ∧ ([] : List LeafRef).length < (y.accepted + 32767) / 32768 ∧
       stagingRoom (store x { y with leaves := [] }) ≠ 0) ∧
    (let no := obj 0x90
     Ready (store no (sess 0 [])) 0 (isObj 0x90) no ∧ (namedVersions (store no (sess 0 [])) no.entry false false).toOption = none) ∧
    (∀ fl ∈ [0, 1], let x := opC 0x90 fl 0
     let vs := fun (v : Version) => (namedVersions (opS x v) x.entry (decide (x.entry.flags % 2 = 1)) false).toOption
     let w : Version := { ver 1 with lrange := 1 }
     let o : Obj := ⟨[9], 1, 2, [ver 1]⟩
     (∀ v ∈ [ver 1, w, ver 1 1], Ready (opS x v) 0 (isObj 0x90) x ∧ vs v = some (⟨[9], 1, 2, [v]⟩, [v])) ∧
       writeLocked (opS x w) 1 = true ∧ writeLocked (opS x w) 0 = false ∧ retained (ver 1) x.clock = false ∧
       retained (ver 1 1) x.clock = true ∧
       admits (opS x (ver 1)) (succeed (deleteVersion (opS x (ver 1)) o (ver 1) (x.accept + 1)) 0 1) = true) ∧
    (let no := obj 0x94
     Ready (store no (sess 0 [])) 0 (isObj 0x94) no ∧ (namedVersions (store no (sess 0 [])) no.entry false true).toOption = none) ∧
    (∀ p ∈ [(2, 0), (1, 2), (1, 0), (0, 3), (5, 0)], let x := opC 0x94 p.1 p.2
     let v := ver 1 3
     let w : Version := { ver 1 with lrange := 1 }
     let s := opS x v
     let after := fun (v : Version) => { v with
       hold := if x.entry.flags % 4 = 1 then true else if x.entry.flags % 4 = 2 then false else v.hold,
       retain := if x.entry.argA = 0 then v.retain else x.entry.argA }
     (∀ q ∈ [v, w], Ready (opS x q) 0 (isObj 0x94) x ∧
       (namedVersions (opS x q) x.entry (decide (x.entry.flags / 4 % 2 = 1)) true).toOption = some (⟨[9], 1, 2, [q]⟩, [q])) ∧
       writeLocked s 1 = true ∧ writeLocked s 0 = false ∧ x.entry.flags % 4 = p.1 % 4 ∧ x.entry.argA = p.2 ∧
       verBy ⟨[9], 1, 2, [v]⟩ v.no = some v ∧
       admits s (holdDone s 0 ⟨[9], 1, 2, [v]⟩ ([v].filter fun v => after v ≠ v) after (x.accept + 1)) = true) ∧
    (opS (opC 0x94 2 0) (ver 1 3)).prof.holdClearEn = false ∧ (ver 1 3).retain = 3 := by
  and_intros <;> decide +kernel

/-- A staged leaf of key 9. -/
def stg9 (uid : Nat) (kind : LeafKind) (accepts : List Nat) (dirty : Bool := true) : StagedLeaf :=
  ⟨uid, kind, 1, 1, 0, 0, 0, 0, [], [9], 0, accepts.map fun a => ([9], a), dirty, false, none, [], none⟩

theorem witness_SyncFlushReceipt :
    (let x := obj 0x98 keyK
     let s : State := { one x with stg.leaves := [stg9 4 .data [1], stg9 5 .index [3]] }
     Ready s 0 (isObj 0x98) x ∧ damagedCover s x false x.entry.key = none) ∧
    (let x := obj 0x98 keyK
     let s : State := { one x with obj.damagedLeaves := [([9], 1, 0)] }
     Ready s 0 (isObj 0x98) x ∧ damagedCover s x false x.entry.key = some ([9], 1, 0)) ∧
    (let x := cx 1 (ent 0 1)
     let s : State := { one x with stg.leaves := [stg9 4 .data [1]] }
     let f : State := { one x with pwr.wrHeld := true }
     Ready s 0 (fun x => isIo x && decide (x.entry.opc = 0)) x ∧ damagedCover s x true [] = none ∧ admits s (flushRecords s 0 x) = true ∧
       Ready f 0 (fun x => isIo x && decide (x.entry.opc = 0)) x ∧ damagedCover f x true [] = none) ∧
    (let x := cx 1 (ent 0 1)
     let s : State := { one x with obj.damagedLeaves := [([9], 1, 0)] }
     Ready s 0 (fun x => isIo x && decide (x.entry.opc = 0)) x ∧ damagedCover s x true [] = some ([9], 1, 0)) ∧
    (let x := cx 1 (ent 0x98 1) (.waitDurable [4])
     let s : State := { qcx [(0, x)] with stg.leaves := [stg9 4 .data [1] false] }
     ctxBy s 0 = some x ∧ stagedBy s 4 = some (stg9 4 .data [1] false) ∧ (stg9 4 .data [1] false).dirty = false ∧
       s.flt.class3 = false ∧ sqBy s 1 = some ⟨4, 0, 3, 1, 0, none, []⟩ ∧
       cqBy s 1 = some ⟨2, 0, 0, 1, true, []⟩ ∧ (0 + 1) % 2 ≠ 0 ∧ 0 ∉ s.host.dataErr ∧
       mayPost (finish s 0 0 0 0) { x with phase := .done (endOf x 0 0 0 []) } = true) ∧
    (let x : Ctx := { cx 1 (ent 0x9E 1) (.reading 1 1) with checked := true }
     let s : State := { store x (sess 0 []) with sec.identity := [1], sec.op := some (.signing (some 0)) }
     ctxBy s 0 = some x ∧ isObj 0x9E x = true ∧ (s.obj.objs.find? fun q => q.id = 1) = some ⟨[9], 1, 2, [ver 1]⟩ ∧ maySign s = true ∧
       s.sec.opRetry = false) := by
  and_intros <;> decide +kernel

/-! ## Zones -/

/-- A zone, of capacity 10. -/
def zone (st : ZoneState) (wp : Nat) (b : List Byte := []) : Zone := ⟨st, wp, 10, 0, [], 0, b, 0, 0, 0, []⟩
/-- A zoned namespace with two zones. -/
def zs (x : Ctx) (z : Zone) (others : List Zone := []) : State := { one x with zns.zones := z :: zone .empty 0 :: others }

theorem witness_ZonedWritesAndAppends :
    (let w := zon 0x01 fun e => { e with dw12 := 0 }
     let a := zon 0x7D
     let full := zon 0x01 fun e => { e with dw12 := 10 }
     let last := zon 0x01 fun e => { e with dw12 := 9 }
     let room := fun (s : State) (x : Ctx) => let u := zoneTaken s 0 x 0; admits u.1 (zoneStage u.1 0 u.2 0 0 [3])
     (∀ x ∈ [w, a, full, last], ∀ st ∈ [ZoneState.closed, .explicitOpen, .empty], Ready (zs x (zone st 0)) 0 isZoned x ∧
       x.entry.slba + x.entry.nlb ≤ znsSize (zs x (zone st 0)) ∧ x.entry.slba % zoneLbas = 0 ∧
       lbasLocked (zs x (zone st 0)) writeLocked 0 11 = false ∧ zoneHeld (zs x (zone st 0)) 0 0 = false) ∧
     (∀ x ∈ [w, a], room (zs x (zone .closed 0)) x = true ∧ room { zs x (zone .closed 0) with pwr.wrHeld := true } x = false) ∧
     w.entry.nlb = 1 ∧ full.entry.nlb = 11 ∧ last.entry.nlb = 10 ∧
     16 ≤ activeZones (zs w (zone .empty 0) (List.replicate 16 (zone .closed 0))) ∧
     (zoneForm (rings9 (zs w (zone .empty 0))) 0 .implicitOpen).isSome = true ∧ activeZones (rings9 (zs w (zone .empty 0))) < 16 ∧
     Ready (rings9 (zs w (zone .empty 0))) 0 isZoned w ∧
     ((zoneForm (rings9 (zs w (zone .empty 0))) 0 .implicitOpen).map fun u => decide (0 + 1 ≤ (zoneBy u 0).zcap)) = some true) ∧
    (let x := zon 0x7D fun e => { e with dw10 := 0 }
     let y : Ctx := { cx 1 (ent 0x01 2) .held with parts := [⟨some (0, 0), 0, 1, []⟩] }
     let h : State := { zs x (zone .closed 1) with host.ctxs := [(0, { x with accept := 3 }), (1, y)] }
     Ready h 0 isZoned { x with accept := 3 } ∧ zoneHeld h 0 3 = true) ∧
    (∀ opc ∈ [0x01, 0x7D],
     let x : Ctx := { cx 1 (ent opc 2) .held with parts := [⟨some (0, 0), 0, 1, []⟩] }
     let s := zs x (zone .implicitOpen 1)
     let r := zs x { zone .empty 0 with resets := 1 }
     ctxBy s 0 = some x ∧ isZoned x = true ∧ 0 ∉ s.host.dataErr ∧ (0, (zoneBy s 0).resets) = (0, 0) ∧ zoneHeld s 0 x.accept = false ∧
       admits s (zoneStage s 0 x 0 0 [3]) = true ∧ ctxBy r 0 = some x ∧ 0 ≠ (zoneBy r 0).resets) ∧
    (let x := zon 0x01 fun e => { e with dw10 := 1 }
     Ready (zs x (zone .closed 0)) 0 isZoned x ∧ x.entry.slba + x.entry.nlb ≤ znsSize (zs x (zone .closed 0)) ∧ x.entry.slba % zoneLbas ≠ 0) ∧
    (let x := zon 0x7D fun e => { e with dw10 := 1 }
     Ready (zs x (zone .closed 0)) 0 isZoned x ∧ x.entry.slba < znsSize (zs x (zone .closed 0)) ∧ x.entry.slba % zoneLbas ≠ 0) := by
  and_intros <;> decide +kernel

theorem witness_ZonedReadsAndReports :
    (let g := { cx 1 (ent 0x02 2) (.reading 0 0) with parts := [⟨some (3, 0), 0, 4, []⟩] }
     let w := { cx 1 (ent 0x02 2) (.reading 0 0) with parts := [⟨none, 0, 2, [1, 2]⟩] }
     isZoned g = true ∧ ctxBy (one g) 0 = some g ∧ reqBy { one g with reqs := [reqOf [noLeaf]] } 0 = some (reqOf [noLeaf]) ∧
       reqSettled (reqOf [noLeaf]) = true ∧ firstMissing (partsWith g.parts [none]) = some 0 ∧
       reqBy { one w with reqs := [reqOf []] } 0 = some (reqOf []) ∧ reqSettled (reqOf []) = true ∧ firstMissing (partsWith w.parts []) = none ∧
       (allBytes { one w with reqs := [reqOf []] } (partsWith w.parts [])).isSome = true) ∧
    (let x := zon 0x02 fun e => { e with dw10 := 0x200000 }
     Ready (zs x (zone .closed 0)) 0 isZoned x ∧ znsSize (zs x (zone .closed 0)) < x.entry.slba + x.entry.nlb) ∧
    (let x := zon 0x7A fun e => { e with dw12 := 31, dw13 := 0x10000 }
     Ready (zs x (zone .closed 0)) 0 (fun x => isZoned x && decide (x.entry.opc = 0x7A)) x ∧ x.entry.slba < znsSize (zs x (zone .closed 0))) := by
  and_intros <;> decide +kernel

/-- A Zone Management Send of an action on zone 0; with Select All. -/
def zms (a : Word) : Ctx := zon 0x79 fun e => { e with dw13 := a }
def zmsAll (a : Word) : Ctx := zms (a + 0x100)
/-- Locking range 2 covers zone 0 and is locked. -/
def zlock (s : State) : State := { s with
  sec.ranges := s.sec.ranges.set 2 { s.sec.ranges.getD 2 default with start := 0, length := 8 } }
theorem witness_ZoneManagement :
    (∀ st ∈ [ZoneState.closed, .full, .empty], Ready (zs (zms 3) (zone st 4)) 0 (isZms 3) (zms 3) ∧ dwBits (zms 3).entry.dw13 8 8 = 0 ∧
      (zms 3).entry.slba = 0 * zoneLbas ∧ 0 < (zs (zms 3) (zone st 4)).zns.zones.length) ∧
    (16 ≤ activeZones (zs (zms 3) (zone .empty 0) (List.replicate 16 (zone .closed 0))) ∧
      activeZones (rings9 (zs (zms 3) (zone .empty 0))) < 16 ∧
      (zoneForm (rings9 (zs (zms 3) (zone .empty 0))) 0 .explicitOpen).isSome = true ∧ Ready (rings9 (zs (zms 3) (zone .empty 0))) 0 (isZms 3) (zms 3)) ∧
    (∀ st ∈ [ZoneState.implicitOpen, .full, .empty], Ready (zs (zms 1) (zone st 4)) 0 (isZms 1) (zms 1)) ∧
    (Ready (zs (zmsAll 1) (zone .closed 4)) 0 (isZms 1) (zmsAll 1) ∧ dwBits (zmsAll 1).entry.dw13 8 8 = 1) ∧
    (Ready (zs (zmsAll 3) (zone .closed 4)) 0 (isZms 3) (zmsAll 3) ∧ dwBits (zmsAll 3).entry.dw13 8 8 = 1) ∧
    (∀ x ∈ [zms 2, zmsAll 2], let s := zs x (zone .implicitOpen 4)
      let run := fun s => zmsRun s 0 x.entry zoneActive (finishOne (x.accept + 1))
      let f : State := { s with pwr.wrHeld := true }
      let y : Ctx := { cx 1 (ent 0x01 2) .held with parts := [⟨some (0, 0), 0, 1, []⟩] }
      let h : State := { s with host.ctxs := [(0, { x with accept := 3 }), (1, y)] }
      Ready s 0 (isZms 2) x ∧ zmsZones s x.entry zoneActive = some [0] ∧ lbasLocked s writeLocked (0 * zoneLbas) ((0 + 1) * zoneLbas) = false ∧
        zoneHeld s 0 x.accept = false ∧ admits s (run s) = true ∧ Ready f 0 (isZms 2) x ∧ admits f (run f) = false ∧
        Ready h 0 (isZms 2) { x with accept := 3 } ∧ zoneHeld h 0 3 = true ∧
        Ready (zlock s) 0 (isZms 2) x ∧ lbasLocked (zlock s) writeLocked (0 * zoneLbas) ((0 + 1) * zoneLbas) = true) ∧
    (let x := zms 2; let run := fun s => zmsRun s 0 x.entry zoneActive (finishOne (x.accept + 1))
     let e := zs x (zone .empty 0); let n := rings9 e
     Ready e 0 (isZms 2) x ∧ zmsZones e x.entry zoneActive = some [0] ∧ (zoneForm e 0 .full).isNone = true ∧ admits e (run e) = true ∧
       Ready n 0 (isZms 2) x ∧ (zoneForm n 0 .full).isSome = true ∧ admits n (run n) = true) ∧
    (∀ x ∈ [zms 4, zmsAll 4], let s := zs x (zone .implicitOpen 4)
      let run := fun s => zmsRun s 0 x.entry zoneUsed (resetOne (x.accept + 1))
      let f : State := { s with pwr.wrHeld := true }
      Ready s 0 (isZms 4) x ∧ zmsZones s x.entry zoneUsed = some [0] ∧ lbasLocked s writeLocked (0 * zoneLbas) ((0 + 1) * zoneLbas) = false ∧
        (zoneGroups s 0).any (groupRead s) = false ∧ admits s (run s) = true ∧ Ready f 0 (isZms 4) x ∧ admits f (run f) = false ∧
        Ready (zlock s) 0 (isZms 4) x ∧ lbasLocked (zlock s) writeLocked (0 * zoneLbas) ((0 + 1) * zoneLbas) = true) ∧
    (let x := zms 4
     let g : Group := { (default : Group) with id := 7, zone := some 0, state := .full }
     let r : ReqLeaf := { noLeaf with stripe := some (7 * 8192), phase := .waiting }
     let s : State := { zs x (zone .full 10) with str.groups := [g], reqs := [reqOf [r]] }
     Ready s 0 (isZms 4) x ∧ zmsZones s x.entry zoneUsed = some [0] ∧ lbasLocked s writeLocked (0 * zoneLbas) ((0 + 1) * zoneLbas) = false ∧
       (zoneGroups s 0).any (groupRead s) = true) ∧
    (let x := zon 0x79 fun e => { e with dw13 := 3, dw10 := 1 }
      let y := zon 0x79 fun e => { e with dw13 := 1, dw10 := 0x200000 }
      dwBits x.entry.dw13 8 8 = 0 ∧ Ready (zs x (zone .closed 4)) 0 (isZms 3) x ∧ x.entry.slba % zoneLbas ≠ 0 ∧
        dwBits y.entry.dw13 8 8 = 0 ∧ Ready (zs y (zone .closed 4)) 0 (isZms 1) y ∧ znsSize (zs y (zone .closed 4)) ≤ y.entry.slba) := by
  and_intros <;> decide +kernel

/-! ## Cyzon -/

/-- A request packet with tag 5. -/
def pkt (g o : Byte) (body : List Byte := []) (fl : Byte := 0) : List Byte :=
  let head := [1, g, o, fl, 5, 0, 0, 0] ++ leBytes 4 body.length
  head ++ leBytes 4 (crc32c (head ++ zeroBytes 4 ++ body)).toNat ++ body
/-- On MCTP the conditions of an operation taken are decidable. -/
theorem takes (s : State) (p : List Byte) (g o : Nat) (h : pktOk true p = true ∧ (cyzQ .mctp p).group = g ∧ (cyzQ .mctp p).op = o ∧
    (true, (cyzQ .mctp p).tag) ∉ s.cyz.open_ ∧ openTags s (cyzQ .mctp p) < 16 ∧
    (exclusiveRuns s = false ∨ ∀ a, (g, o, true, a) ∉ cyzOps)) : CyzonTakes s .mctp p g o :=
  ⟨trivial, h.1, h.2.1, h.2.2.1, h.2.2.2.1, h.2.2.2.2.1, fun ⟨a, ha⟩ => h.2.2.2.2.2.resolve_right fun n => n a ha⟩
/-- The parameters of an authorized request: SEQ 1, a signature of one byte in eight, then what is authorized. -/
def authBody (b : List Byte) : List Byte := leBytes 8 1 ++ leBytes 2 1 ++ zeroBytes 6 ++ [7] ++ zeroBytes 7 ++ b
/-- A state with an integrator key. -/
def keyed1 (s : State) : State := { s with sec.integrator := some [1] }
/-- What the signature of an authorized request is over. -/
def authMsg (g o : Byte) (b : List Byte) : List Byte := shake256 ((pkt g o (authBody b) 2).take 12 ++ leBytes 8 1 ++ b) 64
/-- A request with a signature of one byte is authorized where the enrolled key takes it. -/
theorem authOk_of (s : State) (k p : List Byte) (n : Nat) (b : List Byte) (hk : s.sec.integrator = some k)
    (hb : leNat (slice (p.drop 16) 8 2) = 1 ∧ 24 ≤ (p.drop 16).length ∧ leNat (slice (p.drop 16) 0 8) = n ∧ s.sec.authSeq < n ∧
      (p.drop 16).drop 24 = b)
    (h : Config.falconVerify k (shake256 (p.take 12 ++ (p.drop 16).take 8 ++ b) 64) (slice (p.drop 16) 16 1) = true) :
    authOk s p = some (n, b) := by
  obtain ⟨h1, h2, h3, h4, h5⟩ := hb
  have c : ¬ ((1 : Nat) = 0 ∨ 1280 < 1 ∨ (p.drop 16).length < 16 + (1 + 7) / 8 * 8 ∨ n ≤ s.sec.authSeq) := by omega
  unfold authOk
  rw [hk]
  simp only [h1, h3, show 16 + (1 + 7) / 8 * 8 = 24 from rfl, h5, h] at c ⊢
  rw [if_neg c, if_pos trivial]
/-- A COMMIT of the CRC reference. -/
def commitPkt : List Byte := pkt 2 2 (authBody [0, 0, 0, 0]) 2
/-- A HOLD_CLEAR of key 9, version 1. -/
def holdPkt : List Byte := pkt 4 5 (authBody [1, 0, 0, 0, 1, 0, 0, 0, 9]) 2
theorem test_pkt : (pkt 1 0).length = 16 ∧ (commitPkt.drop 16).drop 24 = [0, 0, 0, 0] := by decide +kernel

theorem witness_CyzonPacketsAreChecked :
    pktOk true [] = false ∧ (pktOk true (pkt 9 0) = true ∧ ∀ e ∈ cyzOps, ¬ (e.1 = (cyzQ .mctp (pkt 9 0)).group ∧ e.2.1 = (cyzQ .mctp (pkt 9 0)).op)) ∧
    (let s : State := { State.reset with cyz.open_ := [(true, 5)] }
     pktOk true (pkt 1 0) = true ∧ (cyzQ .mctp (pkt 1 0)).group = 1 ∧ (cyzQ .mctp (pkt 1 0)).op = 0 ∧ (true, (cyzQ .mctp (pkt 1 0)).tag) ∈ s.cyz.open_) ∧
    (let s : State := { State.reset with cyz.open_ := (List.range 16).map fun i => (true, 100 + i) }
     (true, (cyzQ .mctp (pkt 1 0)).tag) ∉ s.cyz.open_ ∧ 16 ≤ openTags s (cyzQ .mctp (pkt 1 0))) ∧
    (let s : State := { State.reset with cyz.held := some ⟨.mctp, 9⟩ }
     pktOk true (pkt 2 0) = true ∧ (true, (cyzQ .mctp (pkt 2 0)).tag) ∉ s.cyz.open_ ∧ exclusiveRuns s = true ∧ (2, 0, true, false) ∈ cyzOps) ∧
    (CyzonTakes State.reset .mctp (pkt 2 2) 2 2 ∧ pktAuth (pkt 2 2) = false ∧ (2, 2, true, true) ∈ cyzOps) ∧
    (CyzonTakes State.reset .mctp commitPkt 2 2 ∧ pktAuth commitPkt = true ∧ authOk State.reset commitPkt = none) := by
  and_intros <;> first | exact takes _ _ _ _ (by decide +kernel) | decide +kernel

/-- A Cyzon Send of a HEALTH request. -/
def sendHealth : Ctx := adm 0xC0 fun e => { e with dw10 := 16 }
theorem witness_CyzonArrives : CyzonTakes (one sendHealth) (.nvme 0) (pkt 1 0) 1 0 :=
  ⟨⟨sendHealth, by decide +kernel⟩, by decide +kernel, by decide +kernel, by decide +kernel, by decide +kernel, by decide +kernel,
    fun _ => by decide +kernel⟩

/-- A spindle in Running at 10,800 rpm, converged values of head 0 in zone 0, and a capture of 2^20 bit periods. -/
def irBase : State := onChan { State.reset with
    spn.state := .running, spn.speed := 10800, spn.target := 10800, chan.saved := [((0, 0), { ({} : ChanRec) with err := 1 })] } 0
  fun c => { c with loaded := some (0, 0), errs := List.replicate 16 1 }
def irCap : Capture := ⟨0, 0, ⟨0, 0, 0⟩, List.replicate 1048576 0, [], [], some []⟩
def irS : State := onChan irBase 0 fun c => { c with cap := [irCap] }
theorem captureDone_irBase (k : Capture) (hb : k.bits = some []) (hn : 1048576 ≤ k.lead.length) :
    captureDone (onChan irBase 0 fun c => { c with cap := [k] }) 0 = some [(k.lead, k.trail, [], k.det)] := by
  unfold captureDone
  rw [show (chanAt (onChan irBase 0 fun c => { c with cap := [k] }) 0).cap = [k] by rfl]
  simp [hb, hn]
theorem irS_done : (captureDone irS 0).isSome = true := by
  unfold irS
  rw [captureDone_irBase irCap rfl (le_of_eq List.length_replicate.symm)]
  rfl

theorem witness_CyzonReads :
    (captureDone irS 0).isSome = true ∧
    (let r : CyzonReply := ⟨true, 6, 1, 2, 0, 0, [], true, false⟩
     let s : State := { State.reset with cyz.replies := [r], cyz.open_ := [(true, 6)] }
     CyzonTakes s .mctp (pkt 0 0 [6, 0]) 0 0 ∧ pktAuth (pkt 0 0 [6, 0]) = false ∧ 2 ≤ ((pkt 0 0 [6, 0]).drop 16).length ∧
       heldReply s true (leNat (slice ((pkt 0 0 [6, 0]).drop 16) 0 2)) = some r ∧ r.final = true ∧ leNat (slice ((pkt 0 0 [6, 0]).drop 16) 0 2) ≠ 5) ∧
    CyzonTakes State.reset .mctp (pkt 0 1) 0 1 ∧ CyzonTakes State.reset .mctp (pkt 1 0) 1 0 ∧ CyzonTakes State.reset .mctp (pkt 3 0) 3 0 ∧
    CyzonTakes State.reset .mctp (pkt 6 0) 6 0 ∧ CyzonTakes State.reset .mctp (pkt 1 1) 1 1 ∧ CyzonTakes State.reset .mctp (pkt 1 2) 1 2 ∧
    (∀ p ∈ [pkt 0 1, pkt 1 0, pkt 3 0, pkt 6 0, pkt 1 1, pkt 1 2], pktAuth p = false) ∧
    (CyzonTakes irS .mctp (pkt 1 1) 1 1 ∧ (chanAt State.reset 0).loaded ≠ some (0, 0) ∧ irateReady State.reset 0 = false ∧
      captureDone State.reset 0 = none ∧ (chanAt irS 0).loaded = some (0, 0) ∧ irateReady irS 0 = true) := by
  refine ⟨irS_done, ?_⟩
  and_intros <;> first | exact takes _ _ _ _ (by decide +kernel) | decide +kernel

/-- The requests that need a signature are authorized wherever the enrolled key takes theirs; what verifies one is no part of the spec. -/
theorem witness_CyzonProfilesAndRegisters :
    (CyzonTakes State.reset .mctp (pkt 2 0 [0xFF, 0xFF, 0x0F, 0, 0, 0, 0, 0, 7]) 2 0 ∧ Memory.wf State.reset.cyz.stage = true ∧
      0xFFFFF + (9 - 8) ≤ 2 ^ 20 ∧ CyzonTakes State.reset .mctp (pkt 2 0 [0, 0, 0x10, 0, 0, 0, 0, 0, 7]) 2 0 ∧ 2 ^ 20 < 0x100000 + (9 - 8)) ∧
    CyzonTakes State.reset .mctp (pkt 2 3) 2 3 ∧
    (CyzonTakes (keyed1 State.reset) .mctp (pkt 2 1 (authBody []) 2) 2 1 ∧ CyzonTakes (keyed1 State.reset) .mctp commitPkt 2 2 ∧
      CyzonTakes (keyed1 State.reset) .mctp (pkt 2 4 (authBody []) 2) 2 4) ∧
    (Config.falconVerify [1] (authMsg 2 2 [0, 0, 0, 0]) [7] = true →
      authOk (keyed1 State.reset) commitPkt = some (1, [0, 0, 0, 0]) ∧ pktAuth commitPkt = true) ∧
    (let s : State := { State.reset with cyz.held := some ⟨.mctp, 5⟩, cyz.replies := [⟨true, 5, 2, 1, 1, 0, [], false, false⟩] }
     s.cyz.held.isSome = true ∧ activateHeld s = false ∧ (heldReply s true 5).map (·.final) = some false) := by
  have key : Config.falconVerify [1] (authMsg 2 2 [0, 0, 0, 0]) [7] = true →
      authOk (keyed1 State.reset) commitPkt = some (1, [0, 0, 0, 0]) ∧ pktAuth commitPkt = true := by
    intro h
    refine ⟨authOk_of _ [1] _ _ _ rfl (by decide +kernel) ?_, by decide +kernel⟩
    rw [show shake256 _ 64 = authMsg 2 2 [0, 0, 0, 0] by decide +kernel, show slice (commitPkt.drop 16) 16 1 = [7] by decide +kernel]
    exact h
  and_intros <;> first | exact takes _ _ _ _ (by decide +kernel) | exact key | decide +kernel

theorem witness_CyzonPinsAndHolds :
    (let p := pkt 4 3 [1, 0, 0, 0, 1, 0, 0, 0, 9]
     let u := pkt 4 4 [1, 0, 0, 0, 1, 0, 0, 0, 9]
     let s := store (cx 1 (ent 0x98 1) (.done ok0)) (sess 0 [])
     let held := store (cx 1 (ent 0x98 1) (.done ok0)) (sess 0 []) [ver 1 0 false 0 true]
     let full := store (cx 1 (ent 0x98 1) (.done ok0)) (sess 0 []) (ver 1 :: (List.range 64).map fun i => ver (2 + i) 0 false 0 true)
     CyzonTakes s .mctp p 4 3 ∧ CyzonTakes s .mctp u 4 4 ∧ CyzonTakes full .mctp p 4 3 ∧ pktAuth p = false ∧ pktAuth u = false ∧
       keyBody (p.drop 16) = some ([9], 1) ∧ keyBody (u.drop 16) = some ([9], 1) ∧ mayPlace s = true ∧
       (resolve s [9] 1 true).toOption = some (⟨[9], 1, 2, [ver 1]⟩, ver 1) ∧ (resolve s [9] 1 false).toOption = some (⟨[9], 1, 2, [ver 1]⟩, ver 1) ∧
       pins s < 64 ∧ pins full = 64 ∧ mayPlace full = true ∧ ((resolve full [9] 1 true).toOption.map (·.2)) = some (ver 1) ∧
       CyzonTakes held .mctp p 4 3 ∧ mayPlace held = true ∧ ((resolve held [9] 1 true).toOption.map (·.2)) = some (ver 1 0 false 0 true) ∧
       mayPlace State.reset = true ∧ CyzonTakes State.reset .mctp p 4 3 ∧ (resolve State.reset [9] 1 true).toOption = none ∧
       CyzonTakes State.reset .mctp u 4 4 ∧ (resolve State.reset [9] 1 false).toOption = none) ∧
    (let s := keyed1 (store (cx 1 (ent 0x98 1) (.done ok0)) (sess 0 []) [ver 1 0 true])
     let f : State := { s with pwr.wrHeld := true }
     let n : State := { s with obj.objs := [] }
     let done := fun (s : State) a => (holdCleared { s with sec.authSeq := 1 } (cyzQ .mctp holdPkt) [9] 1 a).1
     CyzonTakes s .mctp holdPkt 4 5 ∧ CyzonTakes f .mctp holdPkt 4 5 ∧ CyzonTakes n .mctp holdPkt 4 5 ∧ pktAuth holdPkt = true ∧
       mayPlace s = true ∧ mayPlace f = true ∧ mayPlace n = true ∧ keyBody [1, 0, 0, 0, 1, 0, 0, 0, 9] = some ([9], 1) ∧
       (∀ a ∈ [false, true], holdNamed s [9] 1 a = some (⟨[9], 1, 2, [ver 1 0 true]⟩, [ver 1 0 true]) ∧ holdNamed n [9] 1 a = none ∧
         admits { s with sec.authSeq := 1 } (done s a) = true ∧ admits { n with sec.authSeq := 1 } (done n a) = true ∧
         admits { f with sec.authSeq := 1 } (done f a) = false)) := by
  and_intros <;> first | exact takes _ _ _ _ (by decide +kernel) | decide +kernel
/-- The Hold-clear request is authorized where the enrolled key takes its signature. -/
theorem witness_HoldClearAuthorized (s : State) (hk : s.sec.integrator = some [1]) (hs : s.sec.authSeq = 0)
    (h : Config.falconVerify [1] (shake256 (holdPkt.take 12 ++ (holdPkt.drop 16).take 8 ++ [1, 0, 0, 0, 1, 0, 0, 0, 9]) 64)
      (slice (holdPkt.drop 16) 16 1) = true) : authOk s holdPkt = some (1, [1, 0, 0, 0, 1, 0, 0, 0, 9]) :=
  authOk_of s [1] holdPkt 1 _ hk ⟨by decide +kernel, by decide +kernel, by decide +kernel, by rw [hs]; decide, by decide +kernel⟩ h

/-- An audit with one version and one zone to come. -/
def aud (todo : List Item) : Audit :=
  ⟨1, true, 9, .all, true, 0, 0, todo, 0, [0, 0, 0, 0], [], [], false, false⟩
theorem witness_CyzonAuditsAndExports :
    (CyzonTakes State.reset .mctp (pkt 4 0) 4 0 ∧ pktAuth (pkt 4 0) = false ∧ mayPlace State.reset = true) ∧
    (let i : Item := ⟨[9], 1, 1, none⟩
     let v : Version := { ver 1 with damaged := true }
     let w : Version := { ver 1 with lrange := 1 }
     let s : State := { store (cx 1 (ent 0x98 1) (.done ok0)) (sess 0 []) [v] with cyz.audit := some (aud [i]) }
     let l : State := { store (cx 1 (ent 0x98 1) (.done ok0)) (sess 0 []) [w] with
       cyz.audit := some (aud [i]), sec.ranges := [default, { (default : RangeRow) with readLockEnabled := true, readLocked := true }] }
     let e : State := { State.reset with cyz.audit := some (aud []), sec.identity := [1], sec.op := some (.signing none) }
     s.pwr.restored = true ∧ s.flt.class3 = false ∧ (aud [i]).kept.length < 1024 ∧ itemVersion s i = some v ∧ v.damaged = true ∧
       itemVersion State.reset i = none ∧ itemVersion l i = some w ∧ itemLocked l i w = true ∧
       maySign e = true ∧ e.sec.op = some (.signing none) ∧ e.sec.opRetry = false ∧ e.cyz.audit = some (aud [])) ∧
    (let s : State := { State.reset with cyz.audit := some (aud []) }
     CyzonTakes s .mctp (pkt 4 1) 4 1 ∧ pktAuth (pkt 4 1) = false) ∧
    CyzonTakes State.reset .mctp (pkt 4 1) 4 1 ∧ (CyzonTakes State.reset .mctp (pkt 4 2) 4 2 ∧ pktAuth (pkt 4 2) = false) ∧
    (let s : State := { State.reset with sec.identity := [1] }
     CyzonTakes s .mctp (pkt 5 0) 5 0 ∧ pktAuth (pkt 5 0) = false ∧ maySign s = true ∧ mayPlace s = true) ∧
    (let x : Export := ⟨1, .all, 0, [], ⟨0, [], [], 0, 0, 0⟩, [1, 2, 3], none, 0, false, none⟩
     let s : State := { State.reset with cyz.exp := some x }
     CyzonTakes s .mctp (pkt 5 1) 5 1 ∧ pktAuth (pkt 5 1) = false ∧ s.cyz.exp = some x ∧ x.left ≠ []) ∧
    (CyzonTakes State.reset .mctp (pkt 5 2) 5 2 ∧ pktAuth (pkt 5 2) = false) := by
  and_intros <;> first | exact takes _ _ _ _ (by decide +kernel) | decide +kernel

/-! ## Registers, and one element of a vector changed -/

def blk (b : Nat) (f : BlkCtl → BlkCtl) (s : State := State.reset) : State := { s with reg.blk := vmod s.reg.blk b f }
def lp (a : Nat) (f : Loop → Loop) (s : State := State.reset) : State := { s with srv.loop := vmod s.srv.loop a f }
def chn (a : Nat) (f : ChanAct → ChanAct) (s : State := State.reset) : State := { s with chan.act := vmod s.chan.act a f }
def wrt (a : Nat) (f : WrAct → WrAct) (s : State := State.reset) : State := { s with wrt.act := vmod s.wrt.act a f }
def flu (n : Nat) (f : FluCh → FluCh) (s : State := State.reset) : State := { s with flu.ch := vmod s.flu.ch n f }
def sqc (n : Nat) (f : Sqr → Sqr) (s : State := State.reset) : State := { s with seq.sq := vmod s.seq.sq n f }
def grt (n : Nat) (f : Grate → Grate) (s : State := State.reset) : State := { s with grt.grate := vmod s.grt.grate n f }

theorem witness_RegisterDecoding :
    (0xFF0 ≤ 0xFF4 % 4096 ∧ 0xFF4 % 4 = 0) ∧ ((19 : Nat) < 20 ∧ 0xFEC % 4096 < 0xFF0) ∧
    (regExists 5 (regDecode 5 0x008) = false ∧ ∀ k ∈ State.reset.reg.caps, k.1 ≠ 5 * 4096 + regDecode 5 0x008) ∧
    regExists 200 (regDecode 200 (4 * 16383)) = false := by decide +kernel

theorem witness_KeysGuardTheirFields :
    portOpen State.reset .hearth = true ∧ portOpen { State.reset with host.fundamental := .factoryTest } .bar2 = true ∧
    (let s := blk 2 (fun c => { c with en := true })
     let k := blk 2 (fun c => { c with en := true, armed := true })
     2 ≤ (2 : Fin 20).val ∧ (blkCtl s 2).en = true ∧ (blkCtl s 2).armed = false ∧ (blkCtl k 2).armed = true ∧ k.sec.lc ≠ .factoryTest ∧
       (let d : State := { k with sec.lc := .diagnostic }
        neededBy d 2 = false ∧ (blkCtl d 2).armed = true ∧ (blkCtl d 2).en = true) ∧
       (let d : State := { blk 3 (fun c => { c with en := true }) k with sec.lc := .diagnostic }
        neededBy d 2 = true ∧ (blkCtl d 2).armed = true)) ∧
    ((fluAt State.reset 39).pause ≠ true ∧ (blkCtl State.reset 4).armed = false ∧ (blkCtl (blk 4 fun c => { c with armed := true }) 4).armed = true) ∧
    (let s := blk 16 fun c => { c with armed := true }
     (blkCtl s 16).armed = true ∧ s.reg.inj.getLsbD 31 = false ∧ s.sec.lc ≠ .factoryTest ∧ { s with sec.lc := .factoryTest : State }.sec.lc = .factoryTest ∧
       (383 : Fin 65536).val < 384) ∧
    { State.reset with flt.injEnd := some 7 : State }.flt.injEnd = some 7 := by decide +kernel

theorem witness_EnableAndArmChecks :
    (portOpen State.reset .hearth = true ∧ blockCheck (checkIn State.reset) 18 ≠ none ∧ blockCheck (checkIn State.reset) 2 ≠ none) ∧
    (regExists 2 (regDecode 2 0) = true ∧ ckMask 2 0 ≠ 0 ∧ (blkCtl State.reset 2).en = false ∧ (blkCtl (blk 2 fun c => { c with en := true }) 2).en = true) ∧
    (let l : Mem := memWrite [] 0x120 [1, 0, 0, 0, 0, 0, 0, 0, 9, 0, 0, 0, 0, 0, 0, 0, 4, 0, 0, 0, 0, 0, 0, 0]
     let good : State := { flu 3 (fun c => { c with shdDesc := 0x120 }) with hob.mem := l }
     let run : State := { flu 3 (fun c => { c with shdDesc := 0x120, active := some default }) with hob.mem := l }
     (fluAt good 3).shdValid = false ∧ listReason (descList good.hob.mem 257 (fluAt good 3).shdDesc.toNat) = 0 ∧ (fluAt good 3).active = none ∧
       (fluAt good 3).rest = [] ∧ (fluAt good 3).pause = false ∧ (fluAt good 3).inService = true ∧ (fluAt run 3).active.isSome = true ∧
       listReason (descList State.reset.hob.mem 257 (fluAt State.reset 3).shdDesc.toNat) ≠ 0 ∧
       (fluAt (flu 3 fun c => { c with shdValid := true }) 3).shdValid = true) := by decide +kernel

/-- A ready flip test of actuator 0 on an ember ring. -/
def flipTest : State :=
  let s := lp 0 (fun l => { l with onTrack := true, wrPermit := true })
  { s with
    str.rings := [((0, 3), ⟨.ember, 1, 0, 0, 0⟩)], reg.flipCtl := #v[0x80000000, 0, 0, 0], spn.target := 3600, spn.speed := 3600,
    spn.state := .running }
theorem witness_CapturesTestsAndConfigCrc :
    portOpen State.reset .hearth = true ∧
    (let s : State := { State.reset with reg.hobFlip := 0x80010000 }
     let w : State := { s with hob.flipWritten := true }
     hobFlipArmed s = true ∧ s.hob.flipWritten = false ∧ hobFlipArmed w = true ∧ w.hob.flipWritten = true ∧ w.hob.flipRepeat = false) ∧
    (scratchRing flipTest 0 = some (3, ⟨.ember, 1, 0, 0, 0⟩) ∧ (vget flipTest.reg.flipCtl 0 0).getLsbD 31 = true ∧
      (wrAt flipTest 0).frame = none ∧ (chanAt flipTest 0).read = none ∧ (sqOf flipTest 0).map (fun i => (sqr flipTest i).routine) = some none ∧
      flipTest.srv.loop[0].onTrack = true ∧ flipTest.srv.loop[0].wrPermit = true ∧ windowOpen flipTest = true ∧ flipTest.pwr.banking = false) ∧
    { State.reset with reg.editEnd := some 9 : State }.reg.editEnd = some 9 ∧
    (let s : State := { State.reset with pwr.powered := true }
     s.pwr.powered = true ∧ s.reg.editEnd = none ∧ (some s.reg.crcRef).getD (ckCrc s.reg.ck) = s.reg.crcRef ∧
       (some (1 : Word)).getD (ckCrc s.reg.ck) ≠ s.reg.crcRef) := by decide +kernel

/-! ## Spindle and servo -/

/-- The spindle changed. -/
def spn (f : SpnS → SpnS) (s : State := State.reset) : State := { s with spn := f s.spn }
theorem witness_DraftAndSpeedTargets :
    (let s := spn fun p => { p with bankTimer := some 5, state := .running }
     s.spn.bankTimer = some 5 ∧ s.spn.draft < tBank s ∧ spnTurning s.spn.state = true ∧ s.spn.bank = .none ∧ dirtyCount s ≤ 128) ∧
    (let s : State := { spn fun p => { p with wanted := some 4000, signalled := true, state := .running } with
       wrt.act := Vector.replicate 4 { acked := true, changePend := true } }
     s.spn.wanted = some 4000 ∧ s.spn.signalled = true ∧ dirtyWithin s = true ∧ (s.wrt.act.toList.all (·.acked)) = true) ∧
    (let s := wrt 1 fun w => { w with changePend := true }
     let f := wrt 1 fun w => { w with changePend := true, frame := some default }
     s.wrt.act[1].changePend = true ∧ s.wrt.act[1].frame = none ∧ f.wrt.act[1].changePend = true ∧ f.wrt.act[1].frame ≠ none) ∧
    (let s := spn fun p => { p with settled := 16, state := .changing }
     16 ≤ s.spn.settled ∧ s.spn.wanted = none ∧ s.spn.state = .changing) ∧
    (let s : State := { spn fun p => { p with state := .running, floor := 7200 } with prof := { State.reset.prof with iRunMax := 1 } }
     spnTurning s.spn.state = true ∧ s.spn.target ≤ vcapOf s.prof 12 ∧ 3650 ≤ vcapOf s.prof 12 ∧ s.spn.wanted = none) ∧
    (let s : State := spn fun p => { p with state := .running, floor := 3600 }
     let q : State := { s with prof := { State.reset.prof with ke := 100, poles := 8 } }
     vcapOf q.prof 12 < q.spn.floor ∧ vcapOf q.prof 12 < 3650) ∧
    (let s := spn fun p => { p with vcapOkSince := some 5, capBlock := true, draft := 255 }
     s.spn.vcapOkSince = some 5 ∧ s.spn.capBlock = true ∧ s.spn.state = .banked ∧ tOn s ≤ s.spn.draft ∧ s.flt.class3 = false ∧
       s.pwr.vmotLostNow = false ∧ s.pwr.banking = false) := by
  and_intros <;> decide +kernel

/-- What the three phases show: nothing, or two zero crossings 2 ms apart. -/
def emf (amp : Qty) (p q : Fin 3) : EmfSeen := ⟨amp, 0, 0, [(p, 0), (q, 1 / 500)], 0, 0, 0⟩
theorem witness_SpindleStarts :
    (let s : State := { State.reset with prof.restMv := 1, prof.poles := 8 }
     (emf 0 0 0).ampA < s.prof.restMv ∧ (emf 0 0 0).ampB < s.prof.restMv ∧ (emf 0 0 0).ampC < s.prof.restMv ∧
       s.prof.restMv ≤ (emf 1 0 2).ampA ∧ (0 : Qty) < 1 / 500 ∧ 0 < polePairs s ∧
       rotorFound s (emf 0 0 0) = .atRest ∧ rotorFound s (emf 1 0 0) = .indeterminate ∧ rotorFound s (emf 1 0 2) = .forward 1250 ∧
       rotorFound s (emf 1 0 1) = .backward 1250) ∧
    (spn fun p => { p with mode := .measuring }).spn.mode = .measuring ∧
    (let s := spn fun p => { p with alignAt := some 5, speed := 599 }
     s.spn.alignAt = some 5 ∧ s.spn.speed < 600) ∧
    (let s := spn fun p => { p with mode := .openLoop, speed := 300, cleanRun := 4 }
     s.spn.mode = .openLoop ∧ 300 ≤ s.spn.speed ∧ 4 ≤ s.spn.cleanRun ∧ s.spn.alignAt = none) ∧
    (let s := spn fun p => { p with mode := .braking, thenStart := true }
     s.spn.mode = .braking ∧ s.spn.thenStart = true ∧ mayStart s = true ∧
       mayStart { s with pwr.banking := true } = false) := by
  and_intros <;> decide +kernel

theorem witness_SpindleLoopsAndRecatch :
    (let s := spn (fun p => { p with mode := .closedLoop }) on
     s.spn.mode ≠ .off ∧ s.spn.bank = .none ∧ blkEn s 13 = true) ∧ State.reset.spn.mode = .off ∧ blkEn State.reset 13 = false ∧
    (let s := spn (fun p => { p with mode := .openLoop, alignAt := none }) on
     s.spn.mode = .openLoop ∧ s.spn.observing = false ∧ s.spn.alignAt = none) ∧
    (spn fun p => { p with mode := .braking }).spn.mode = .braking ∧
    (let s := spn fun p => { p with state := .recatch, overRun := 2, cleanRun := 4, recPeriods := 11, retState := .decelerating }
     s.spn.state = .recatch ∧ s.spn.overRun < 3 ∧ 4 ≤ s.spn.cleanRun ∧ 11 ≤ s.spn.recPeriods ∧ s.spn.retState = .decelerating) ∧
    (let s := spn fun p => { p with state := .recatch, overRun := 3, recFails := 1 }
     s.spn.state = .recatch ∧ 3 ≤ s.spn.overRun ∧ s.spn.recFails < 2) ∧
    65536 ≤ (spn fun p => { p with cuCycles := 65536 }).spn.cuCycles ∧
    wedgeSource (lp 3 fun l => { l with mode := .track }) = some 3 := by
  and_intros <;> decide +kernel

/-- A reader that shows nothing; one that shows wedge 0 and track 0 at the predicted cell, with its bursts. -/
def noReader : ReaderSample := ⟨0, [], ⟨0, 0, 0⟩, ⟨0, 0, 0⟩, ⟨0, 0, 0⟩, ⟨0, 0, 0⟩⟩
def goodReader : ReaderSample :=
  ⟨40, servoMark ++ (List.replicate 34 [false, true]).flatten, ⟨0, -1, 0⟩, ⟨3, -1, 0⟩, ⟨6, -1, 0⟩, ⟨10, -1, 0⟩⟩
def noWedge : WedgeSample := ⟨noReader, noReader, 1⟩
def goodWedge : WedgeSample := ⟨goodReader, noReader, 1⟩
theorem witness_ServoSamples :
    (let s := lp 0 (fun l => { l with mode := .track, wedge := some 479 }) on
     s.srv.loop[0].mode = .track ∧ s.srv.loop[0].lost = false ∧ headPos s s.srv.loop[0] (srvWin s 0) noWedge = none ∧
       headPos s s.srv.loop[0] (srvWin s 0) goodWedge = some (-2) ∧ 0 ≤ s.prof.act[0].iMax ∧ engineOf s 0 = some 0 ∧ blkEn s 12 = true ∧
       (spn (fun p => { p with state := .running }) s).spn.state = .running) ∧
    (let s := lp 0 (fun l => { l with mode := .loading }) on
     s.srv.loop[0].mode = .loading ∧ blkEn s 12 = true ∧ headPos s s.srv.loop[0] (srvWin s 0) noWedge = none ∧
       (headPos s s.srv.loop[0] (srvWin s 0) goodWedge).isSome = true ∧
       (lp 3 fun l => { l with mode := .reacquire, lost := true }).srv.loop[3].lost = true) ∧
    (State.reset.srv.loop[0].mode = .unloaded ∧ blkEn State.reset 12 = false) ∧
    ((lp 0 fun l => { l with mode := .seek, updates := 4 }).srv.loop[0].updates = 4 ∧
      (lp 0 fun l => { l with mode := .seek }).srv.loop[0].bridgeAt = none ∧ (lp 0 fun l => { l with mode := .seek }).srv.loop[0].updates = 0) ∧
    (let s : State := { lp 0 (fun l => { l with mode := .track, bridgeAt := some 5 }) on with time := 10005 }
     s.srv.loop[0].bridgeAt = some 5 ∧ 5 + 10000 ≤ s.time ∧ { s with time := 10004 : State }.time < 5 + 10000) := by
  and_intros <;> decide +kernel

theorem witness_SeeksLoadsAndLosses :
    (let s : State := { lp 3 fun l => { l with mode := .track } with
       str.rings := [((24, 3), ⟨.data, 1, 10, 0, 0⟩)], media.zones := [⟨0, 8000, 100, 1, 500⟩] }
     s.srv.loop[3].lost = false ∧ s.srv.loop[3].mode = .track ∧ actOf 24 = 3 ∧ (ringAt s 24 3).isSome = true ∧ s.media.zones[0]?.isSome = true ∧
       ringAt s 24 4 = none ∧ actOf 23 ≠ 3) ∧
    ((wrAt State.reset 3).frame = none ∧ (wrAt State.reset 3).gate = false ∧ (wrAt State.reset 3).paTries < 2 ∧
      2 ≤ (wrAt (wrt 3 fun w => { w with paTries := 2 }) 3).paTries ∧ (wrAt (wrt 3 fun w => { w with gate := true }) 3).gate = true) ∧
    (let s := spn fun p => { p with speed := 3600, state := .running }
     s.srv.loop[1].mode = .unloaded ∧ 3600 ≤ s.spn.speed ∧ spnTurning s.spn.state = true ∧ s.spn.bank = .none ∧ s.flt.class3 = false ∧
       s.pwr.banking = false ∧ s.str.actOut[1] = false) ∧ State.reset.spn.speed < 3600 ∧
    (let s := lp 2 fun l => { l with mode := .track, unloadWhy := 2 }
     s.srv.loop[2].unloadWhy ≠ 0 ∧ s.srv.loop[2].mode ≠ .unloaded ∧ s.srv.loop[2].mode ≠ .unloading) ∧
    ((lp 2 fun l => { l with mode := .unloading }).srv.loop[2].mode = .unloading ∧ State.reset.spn.bank = .none) ∧
    (lp 0 fun l => { l with parkAt := some 4 }).srv.loop[0].parkAt = some 4 ∧
    (let s := lp 0 fun l => { l with mode := .track, missRun := 8 }
     s.srv.loop[0].lost = false ∧ s.srv.loop[0].mode = .track ∧ lostN s 0 ≤ s.srv.loop[0].missRun ∧ engineOf s 0 = some 0) ∧
    ((let s := lp 0 fun l => { l with mode := .loading, lostRun := 480 }
      480 ≤ s.srv.loop[0].lostRun ∧ s.srv.loop[0].mode = .loading ∧ s.srv.loop[0].reloads = 0) ∧
     (lp 0 fun l => { l with mode := .loading, lostRun := 480, reloads := 1 }).srv.loop[0].reloads ≠ 0 ∧ State.reset.srv.loop[0].lostRun < 480 ∧
     (let s := lp 0 fun l => { l with mode := .reacquire, lostRun := 480, lost := true }
      s.srv.loop[0].mode = .reacquire ∧ s.srv.loop[0].lost = true ∧ reloadsWithinHour s 0 = 0 ∧
        1 ≤ reloadsWithinHour { s with str.reloadAt := [(0, 0)] } 0)) := by
  and_intros <;> decide +kernel

/-- What a mirror's outputs are compared with: 1 LSB from them, and 2. -/
theorem witness_MirrorNear (m : Int × Int) : (m.1 - (m.1 + 1)).natAbs ≤ 1 ∧ ¬ (m.1 - (m.1 + 2)).natAbs ≤ 1 := by omega
theorem witness_ShockEnginesAndTables :
    (let s : State := { on with prof.rvBase := 1 }
     blkEn s 12 = true ∧ blkEn State.reset 12 = false ∧
       s.srv.accOut.toList = [false, false] ∧ s.srv.accCal = false ∧ s.prof.rvBase ≠ 0 ∧ s.srv.shock = false) ∧
    (let s : State := { State.reset with time := 2000, srv.shock := true, srv.calmSince := some 0 }
     s.srv.shock = true ∧ s.srv.calmSince = some 0 ∧ 0 + 2000 ≤ s.time ∧ ∀ b : Fin 4, s.srv.loop[b].mode = .unloaded) ∧
    (let s : State := { State.reset with srv.mirrorN := Vector.replicate 6 256 }
     256 ≤ s.srv.mirrorN[2] ∧ s.srv.serves[2] < 4 ∧ s.str.dmpLeft = true ∧ State.reset.srv.mirrorN[2] < 256 ∧
       { s with str.dmpLeft := false : State }.str.dmpLeft = false) ∧
    (maDue (lp 1 fun l => { l with mode := .track }).srv.loop[1] = true ∧ maDue State.reset.srv.loop[1] = false ∧
      maDue (lp 1 fun l => { l with mode := .track, maSince := [0], maTrack := [(0, 600)] }).srv.loop[1] = true ∧
      maDue (lp 1 fun l => { l with mode := .track, maSince := [0], maTrack := [(0, 599)] }).srv.loop[1] = false) ∧
    (lp 1 fun l => { l with mode := .track }).srv.loop[1].mode = .track ∧
    (let p : Pos := ⟨0, 3, 4⟩
     let g : Group := ⟨1, .data, 4, 2, .opened, 0, [(8, 0), (16, 0), (24, 0), (1, 0), (0, 3), (9, 0)], 0, none⟩
     let s : State := { wrt 0 fun w => { w with readback := [p] } with str.groups := [g], str.rings := [((0, 3), ⟨.data, 1, 0, 0, 0⟩)] }
     (wrAt s 0).readback = [p] ∧ groupOfRing s 0 3 = some g ∧ ringAt s 0 3 = some ⟨.data, 1, 0, 0, 0⟩ ∧
       ((List.range (g.k + g.m)).find? fun i => decide (piecePos g p.slot i = some p)) = some 0) := by
  and_intros <;> decide +kernel

/-! ## Read channel and write path -/

/-- A leaf of a request. -/
def rl (i : Nat) (p : Pos) (ph : LeafPhase) (soft : Option (List Soft) := none) (stripe : Option Nat := none) (piece : Nat := 0) : ReqLeaf :=
  ⟨i, p, stripe, piece, [.data], ph, 0, 0, 0, soft, false, false, 0, none, false, none⟩
/-- Request 5 with leaves. -/
def rq (l : List ReqLeaf) (s : State := State.reset) : State := { s with reqs := s.reqs ++ [⟨5, .host, 0, l, 0, false⟩] }
/-- Ring 4 of surface 9 in a role and at a write pointer, in a zone of four frames a track. -/
def ring9 (role : RingRole) (wp : Nat) (s : State := on) : State :=
  { s with str.rings := [((9, 4), ⟨role, 1, 0, 0, wp⟩)], media.zones := [⟨0, 2 * frameBits 1 / 100, 1, 1, 500⟩] }
/-- Actuator 1 on the track of a slot of surface 9 that it has reached, its preamplifier settled, the spindle at 3,600 rpm. -/
def onNine (p : Pos) (s : State := ring9 .data 2) : State :=
  spn (fun p => { p with speed := 3600, target := 3600, state := .running }) (wrt 1 (fun w => { w with paSel := some 1 }) (lp 1 (fun l => { l with
    surface := 9, onTrack := true, wrPermit := true, inhibit := false,
    wedge := (predictedStart s p).map (·.1), target := (trackTarget s p false).getD 0 }) s))
/-- The frame at slot 2 of ring 4 of surface 9. -/
def p9 : Pos := ⟨9, 4, 2⟩
/-- A frame read at a position for leaf 0 of request 5. -/
def job9 (located blind : Bool) : ReadJob := { req := 5, leafIdx := 0, pos := p9, blind := blind, located := located }
def jobAt (located blind : Bool) (s : State) : State := chn 1 (fun c => { c with read := some (job9 located blind) }) s
/-- The stream bits that hold a frame header from a bit on. -/
def headOf (p : Pos) : List Bool := bitsOfBytes (headerBytes p 1 .data 0)

/-- The samples that show an opening pass through a function that the model leaves open; the witnesses of the locating clauses
show decisions that are located, and samples that hold nothing. -/
theorem witness_WindowsLocateAndQueue :
    (let l := rl 0 p9 .waiting
     let s := rq [l] (onNine p9)
     let full := rq (l :: (List.range 8).map fun i => rl (i + 1) ⟨8, 4, i⟩ .ladder (some [])) (onNine p9)
     (predictedStart s p9).isSome = true ∧ blkEn s (6 + 1) = true ∧
     leafBy s 5 0 = some l ∧ leafDue l = true ∧ (chanAt s 1).read = none ∧ (vget s.srv.loop 1 {}).surface = 9 ∧
       (vget s.srv.loop 1 {}).onTrack = true ∧ (vget s.srv.loop 1 {}).missRun < 2 ∧ trackTarget s p9 false = some (vget s.srv.loop 1 {}).target ∧
       (vget s.srv.loop 1 {}).wedge = (predictedStart s p9).map (·.1) ∧ (wrAt s 1).paSel = some (9 % 8) ∧ (wrAt s 1).paReady ≤ s.time ∧ 3600 ≤ s.spn.speed ∧
       actOf l.pos.surface = 1 ∧ storeUsed s 1 < 8 ∧ leafBy full 5 0 = some l ∧ 8 ≤ storeUsed full 1 ∧ l.soft = none ∧
       (leafBy (rq ((List.range 64).map fun i => rl i ⟨9, 4, i⟩ .waiting) (onNine p9)) 5 63).isSome = true) ∧
    (let s := jobAt false false (rq [rl 0 p9 .reading])
     let b : State := { s with reg.ck.syncCfg := #v[0, 0x10000, 0, 0] }
     let v := List.replicate 352 false ++ primaryMark ++ headOf p9
     (chanAt s 1).read = some (job9 false false) ∧ (locate v (fun _ => []) p9 (syncHd s 1) (syncWin s 1)).found = true ∧
       (openingSeen b 1 (job9 false false) ⟨[], []⟩).2.2.found = false ∧ blindEn b 1 = true ∧
       blindEn { s with reg.ck.syncCfg := #v[0, 0, 0, 0] } 1 = false ∧ (leafBy b 5 0).isSome = true) ∧
    (let s := jobAt false true (rq [rl 0 p9 .blind none (some 7)])
     (chanAt s 1).read = some (job9 false true) ∧ (openingSeen s 1 (job9 false true) ⟨[], []⟩).2.2.found = false ∧
       (trialOffsets.find? fun o => headerPasses (replayHeader (List.replicate 64 false ++ headOf p9) o) false p9) = some 0 ∧
       (leafBy s 5 0).map (·.stripe) = some (some 7) ∧ (reqBy s 5).map (·.purpose) = some .host ∧
       (trialOffsets.find? fun o => headerPasses (replayHeader [] o) false p9) = none) ∧
    (let s := jobAt true false (rq [rl 0 p9 .reading] (ring9 .data 2))
     ringAt s 9 4 = some ⟨.data, 1, 0, 0, 2⟩ ∧ (chanAt s 1).read = some (job9 true false) ∧ (leafBy s 5 0).map (·.phase) = some .reading ∧
       (chanAt (jobAt false false s) 1).read = some (job9 false false)) := by
  and_intros <;> decide +kernel

/-- A lane with slices 0 to 7 in use and slice 8 usable. -/
def lane8 (sk : Qty) : Lane := { inUse := List.range 8, usable := List.range 9, skew := List.replicate 8 0 ++ [sk] }
/-- A measurement in which every slice is well. -/
def meas : LaneMeas := ⟨3, 2, List.replicate 10 (0, 1), List.replicate 10 0⟩
/-- A spare lane, and the lanes beside it. -/
def spl (j : Nat) (f : SpareLane → SpareLane) (s : State := State.reset) : State := { s with chan.spare := vmod s.chan.spare j f }
def lan (n : Nat) (f : Lane → Lane) (s : State := State.reset) : State := { s with chan.lane := vmod s.chan.lane n f }

/-- Where every slice can be corrected, the calibration of lane 7 passes. -/
theorem witness_lane_calibrated (h : ∀ x y, Config.sliceCorrectable x y = true) : (laneCal {} meas meas meas).isSome = true := by
  have e : slicesOk meas = List.range 10 := by simp [slicesOk, h]
  have a : slicesAgree meas meas = true := by simp only [slicesAgree, e]; decide +kernel
  simp only [laneCal, sliceResult, a, e, if_true]
  decide +kernel

/-- Which slices can be corrected is open: no state shows that a calibration passes, only that it fails. -/
theorem witness_LanesAndChannelRecords :
    (let ms : List Qty := [9, 0, 0, 0, 0, 0, 0, 0]
     let bad := fun (l : Lane) (ms : List Qty) => (List.range l.inUse.length).filter fun i =>
       decide (4 < absQ (ms.getD i (medianQ ms) - medianQ ms) ∨ medianQ [] / 10 < absQ (([] : List Qty).getD i (medianQ []) - medianQ []))
     bad (lane8 0) ms = [0] ∧ (sliceReplace (lane8 0) 0).isSome = true ∧ sliceReplace (lane8 1) 0 = none ∧
       bad (lane8 0) [4, 0, 0, 0, 0, 0, 0, 0] = [] ∧ (wrAt (wrt 1 fun w => { w with frame := some (default, []) }) 1).frame.isSome = true) ∧
    ((chanAt (chn 2 fun c => { c with loaded := some (17, 3), highRun := 4 }) 2).loaded = some (17, 3) ∧
      (chanAt (chn 2 fun c => { c with loaded := some (17, 3), highRun := 3 }) 2).highRun < 4) ∧
    (let s := chn 2 fun c => { c with tuned := 5 }
     (chanAt s 2).tuned / 100 ≤ absQ (bitRate s 2 - (chanAt s 2).tuned) ∧
       (let s := chn 1 (fun c => { c with tuned := 250, loaded := some (9, 0) }) (onNine p9)
        ¬ (chanAt s 1).tuned / 100 ≤ absQ (bitRate s 1 - (chanAt s 1).tuned))) ∧
    (let p : SpareLane := { role := .standIn, act := 1, trail := true, step := .parallel 6 }
     let s := lp 1 (fun l => { l with wedges := 10 }) (spl 0 fun _ => p)
     (spareAt s 0).step = .parallel 6 ∧ 6 + 4 ≤ (vget s.srv.loop (spareAt s 0).act {}).wedges ∧ (spareAt s 0).back = false ∧
       (spareAt (spl 1 fun _ => { p with back := true }) 1).next = none ∧
       (spareAt (spl 1 fun _ => { p with back := true, next := some (2, false) }) 1).next = some (2, false) ∧
       (vget State.reset.srv.loop 1 {}).wedges < 6 + 4) ∧
    (let s := spn (fun p => { p with state := .running }) { on with chan.spinOn := 64 * 225000000 / 8 }
     calBlocked s = false ∧ (spareAt s 0).step = .steady ∧ (spareAt s 0).role = .idle ∧ (spareAt s 0).failed = false ∧
       spnTurning s.spn.state = true ∧ s.prof.laneCalPeriod * 225000000 / 8 ≤ s.chan.spinOn ∧
       (spareAt s 0).role ≠ .standIn ∧ (spareAt s 1).role ≠ .standIn ∧ nextLane s = some 0 ∧ nextLane { s with chan.nextCal := 7 } = some 7) ∧
    (let c := fun (r : LaneRole) (s : State) => spl 0 (fun _ => { role := r, act := 3, trail := true, carries := true }) s
     let s := c .standIn on
     let t := c .substitute (lan 7 (fun l => { l with faulty := true, recal := true }) on)
     calBlocked s = false ∧ calBlocked { s with pwr.warn := true } = true ∧ (spareAt s 0).role = .standIn ∧ (spareAt s 0).carries = true ∧ laneOf 3 true = 7 ∧
       laneCal (vget s.chan.lane 7 {}) meas { meas with gain := 3 } { meas with gain := 4 } = none ∧
       (spareAt t 0).role = .substitute ∧ (vget t.chan.lane 7 {}).recal = true) := by
  and_intros <;> decide +kernel

/-- A frame job of a leaf of a kind. -/
def jb (p : Pos) (k : LeafKind := .data) (uid : Option Nat := none) (fails : Nat := 0) : FrameJob :=
  ⟨p, { (default : Leaf) with kind := k, strength := 1, surface := p.surface, ring := p.ring, slot := p.slot }, uid, fails⟩
/-- Actuator 1 ready to write a job on surface 9 in a ring. -/
def wr9 (role : RingRole) (wp : Nat) (j : FrameJob) : State :=
  let s := wrt 1 (fun w => { w with buffer := [(j, [])] }) (onNine j.pos (ring9 role wp))
  { s with str.heads := vset s.str.heads 9 .inService }

/-- The words of two clauses depend on what a decoder makes of a whole leaf; their witnesses show the states, the frame not located. -/
theorem witness_WritingVerifyingAndPreamp :
    (let s : State := { State.reset with wrt.queue := [jb ⟨0, 1, 1⟩, jb p9] }
     nextJob s 1 = some (1, jb p9) ∧ wrHeld (wrAt s 1) < 2 ∧ (wrAt s 1).outOfService = false ∧ (wrAt s 1).encFails = 0 ∧
       (wrAt (wrt 1 (fun w => { w with encFails := 1, encAgain := some p9 }) s) 1).encAgain = some p9 ∧
       2 ≤ wrHeld (wrAt (wrt 1 (fun w => { w with buffer := [(jb p9, [])], frame := some (jb p9, []) }) s) 1)) ∧
    (let j := jb p9
     let s := wr9 .index 2 j
     (wrAt s 1).buffer = [(j, [])] ∧ (wrAt s 1).frame = none ∧ blkEn s (6 + 1) = true ∧ speedAllows s j 0 = true ∧ s.srv.loop[1].wrPermit = true ∧ s.srv.loop[1].inhibit = false ∧
       (wrAt s 1).changePend = false ∧ (wrAt s 1).holdUntil = none ∧ (wrAt s 1).paReady ≤ s.time ∧ (wrAt s 1).paSel = some (9 % 8) ∧
       s.srv.loop[1].surface = 9 ∧ headWrites s 9 = true ∧ (wrAt s 1).readback = [] ∧ ringAllows s j.pos = true ∧
       trackTarget s j.pos true = some s.srv.loop[1].target ∧ (predictedStart s j.pos).isSome = true ∧ s.srv.loop[1].wedge = (predictedStart s j.pos).map (·.1) ∧
       (framePulses s 1 j [] false false).length = 1) ∧
    (let j := jb p9
     ringAllows (wr9 .data 2 j) j.pos = true ∧ ringAllows (wr9 .data 3 j) j.pos = true ∧ ringAllows (wr9 .data 4 j) j.pos = false ∧
       speedAllows State.reset j 0 = false ∧ j.fails = 0 ∧ (jb p9 .data none 1).fails ≠ 0 ∧
       trackTarget (lp 1 (fun l => { l with target := 9 }) (wr9 .data 2 j)) p9 true ≠ some (lp 1 (fun l => { l with target := 9 }) (wr9 .data 2 j)).srv.loop[1].target ∧
       (predictedStart (lp 1 (fun l => { l with wedge := none }) (wr9 .data 2 j)) p9).map (·.1) ≠ none) ∧
    ((wrAt State.reset 3).buffer = [] ∧ (wrAt State.reset 3).frame = none ∧ windowOpen (wr9 .data 2 (jb p9)) = true ∧
      (nextJob { State.reset with wrt.queue := [jb ⟨31, 4, 2⟩] } 3).isSome = true) ∧
    (let j := jb p9 .data (some 4)
     let s : State := { wrt 1 (fun w => { w with frame := some (j, []) }) with stg.leaves := [stg9 4 .data [1]] }
     (wrAt s 1).frame = some (j, []) ∧ (wrAt s 1).buffer = [] ∧ stagedBy s 4 = some (stg9 4 .data [1]) ∧ needsVerify s j = false ∧ needsVerify s (jb j.pos .index) = true) ∧
    (let j := jb p9 .index (some 4)
     let s : State := { wrt 1 (fun w => { w with verify := [j] }) with str.rings := [((9, 4), ⟨.index, 1, 0, 0, 3⟩)] }
     (wrAt s 1).verify[0]? = some j ∧ j.leaf.kind ≠ .cornerstone ∧ j.fails = 0 ∧ ringAt s 9 4 = some ⟨.index, 1, 0, 0, 3⟩ ∧
       conventional .index = true ∧ p9.slot + 1 = 3) ∧
    State.reset.prof.paFaultPol = none ∧ { State.reset with prof.paFaultPol := some true : State }.prof.paFaultPol ≠ none ∧
    (1 : BitVec 8).getLsbD 0 = true ∧ (0x60 : BitVec 8).getLsbD 5 = true ∧
    (wrAt (wrt 0 fun w => { w with holdUntil := some 8 }) 0).holdUntil = some 8 := by
  and_intros <;> decide +kernel

/-! ## Grates, stripes, caches and the flue -/

/-- A codeword of leaf 0 of request 5 at a step. -/
def cwd (step : Nat := 0) (activity : Nat := 0) : Codeword := { req := 5, leafIdx := 0, act := 1, pos := ⟨9, 4, 2⟩, strength := 1, step := step, scrub := false, activity := activity, soft := [] }
/-- A result of a status and step. -/
def res (status step : Nat) : GrateResult := ⟨5, 0, 3, status, 20, step, 2, 0, [], cwd step⟩

theorem witness_GratesAndCollector :
    (let s : State := { on with grt.queue := [cwd] }
     let h : State := { spn (fun p => { p with draftQ := 1 }) on with grt.queue := [cwd 0 1, cwd], grt.busy := [(1, 0, 4000000000)] }
     (grateAt s 11).inService = true ∧ gratesPaused s = false ∧ (grateAt s 11).heldBack = none ∧ (grateAt s 11).inputBuf = none ∧
       gratesPaused on = false ∧ nextCodeword on = none ∧ nextCodeword s = some (0, cwd) ∧ nextCodeword h = some (1, cwd)) ∧
    ((grateAt State.reset 12).inService = false ∧ gratesPaused { State.reset with pwr.banking := true, pwr.cause := some .vmotLoss } = true) ∧
    (let s := fun (l : List GrateResult) => grt 3 fun x => { x with working := some (cwd 1), slot := l }
     (grateAt (s [res 0 0]) 3).working = some (cwd 1) ∧ (grateAt (s []) 3).heldBack = none ∧ (grateAt (s [res 0 0]) 3).slot.length < 2 ∧
       2 ≤ (grateAt (s [res 0 0, res 1 0]) 3).slot.length ∧ (grateAt (s []) 3).inService = true ∧ (grateAt (s []) 3).failed = false ∧
       gratesIn (s []) ≠ 1) ∧
    nextServed State.reset = none ∧
    (let l := rl 0 ⟨9, 4, 2⟩ .ladder (some [])
     let s := fun (r : GrateResult) => rq [l] (grt 3 fun x => { x with slot := [r, r], heldBack := some r })
     nextServed (s (res 1 0)) = some 3 ∧ (grateAt (s (res 1 0)) 3).slot = [res 1 0, res 1 0] ∧ [res 1 0].length < 2 ∧
       (reqBy (s (res 0 0)) 5).map (·.purpose) = some .host ∧ (res 0 0).cw.dead = false ∧ { cwd with dead := true }.dead = true ∧ leafBy (s (res 0 0)) 5 0 = some l ∧
       leafSettled l = false ∧ l.phase ≠ .rebuilding ∧ l.pos.surface < 32 ∧ (res 0 0).status = 0 ∧ (res 1 0).status = 1 ∧ (res 1 0).step = 0 ∧
       leafPasses l.pos l.kinds none (leafOfBytes []) = false ∧ { cwd with unsure := true }.unsure = true) ∧
    (let s := grt 0 fun x => { x with sinceKat := 65536 }
     let u : State := { s with grt.grate := Vector.ofFn fun i => ⟨i.val < 1, false, none, none, [], none, 65536⟩ }
     (grateAt s 0).inService = true ∧ 65536 ≤ (grateAt s 0).sinceKat ∧ (grateAt s 0).failed = false ∧ gratesIn s ≠ 1 ∧ gratesIn u = 1 ∧
       (grateAt u 0).inService = true ∧ (grateAt u 0).failed = false ∧ (grateAt State.reset 0).sinceKat < 65536) ∧
    ((grateAt State.reset 13).inService = false ∧ (grateAt State.reset 13).failed = false) := by
  and_intros <;> decide +kernel

/-- A group of one data and one parity piece on two surfaces. -/
def grp (st : GroupState := .opened) (role : RingRole := .data) : Group := ⟨1, role, 1, 1, st, 4, [(0, 3), (8, 3)], 1, none⟩
/-- The rebuild of piece 0 of stripe 65536 for leaf 0 of request 5, its sources read by request 4096. -/
def rbd (a : List Arrived) (sets : Nat) : Rebuild := ⟨5, 0, 4096, stripeNo 1 0, 0, [1], [], sets, [], a⟩
/-- The state around it. -/
def rbs (a : List Arrived) (sets : Nat) : State := { rq [rl 0 ⟨0, 3, 0⟩ .rebuilding none (some (stripeNo 1 0)) 0] with
  str.groups := [grp], str.rebuilds := [rbd a sets] }
/-- A copy of group 1, in a stage. -/
def cpj (j : CopyJob) : CopyJob := { j with group := 1, activity := 2, stripes := [] }
/-- A copy task whose leaves are at hand. -/
def cps (j : CopyJob) (l : List ReqLeaf) : State := { State.reset with
  str.copy := some j, str.groups := [grp .full], reqs := [⟨copyTask, .copy, 2, l, 0, false⟩] }

/-- The words of the first clause on a solved piece depend on its code; the states before are shown. -/
theorem witness_StripesCopiesAndScrub :
    (let z := rbs [⟨1, [], 0, 0, false⟩] 1
     (z.str.rebuilds.find? fun x => x.srcReq = (4096 : Fin 8192).val) = some (rbd [⟨1, [], 0, 0, false⟩] 1) ∧
       groupById z (stripeGroup (stripeNo 1 0)) = some grp ∧ (leafBy z 5 0).isSome = true ∧ (5 : Nat) ≠ 4096 ∧
       ((sourceSet (rbd [⟨1, [], 0, 0, false⟩] 1)).filterMap fun i => ([⟨1, [], 0, 0, false⟩] : List Arrived).find? fun a => a.piece = i).length = 1 ∧
       sourceSet (rbd [] 0) = [1] ∧ grp.m ≤ (rbd [] 1).sets) ∧
    { State.reset with flt.class3 := true : State }.flt.class3 = true ∧
    (let s := cps (cpj default) []
     let r := rq [rl 0 ⟨0, 3, 0⟩ .waiting none (some (stripeNo 1 0)) 0] s
     let b : CopyJob := cpj { (default : CopyJob) with batch := [(stripeNo 1 0, 0)] }
     let v := cps b []
     s.pwr.banking = false ∧ s.flt.class3 = false ∧ r.str.copy = some (cpj default) ∧ groupRead r 1 = true ∧
       groupById s 1 = some (grp .full) ∧ (grp .full).state ≠ .freed ∧ (cpj default).moved = false ∧ (cpj default).named = false ∧ groupRead s 1 = false ∧
       groupPending s 1 = false ∧ copyRoom s .data (copyLeft s (cpj default)).length = true ∧ copyLeft s (cpj default) = [] ∧
       (reqBy s copyTask).map (fun q => (q.leaves, reqSettled q)) = some ([], true) ∧
       v.str.copy = some b ∧ groupRead v 1 = false ∧ groupPending v 1 = false ∧ copyRoom v .data (copyLeft v b).length = true ∧ b.batch ≠ [] ∧
       b.batch.length ≤ stagingRoom v ∧ (reqBy v copyTask).map reqSettled = some true) ∧
    (let j : CopyJob := cpj { (default : CopyJob) with moved := true, moves := [((stripeNo 1 0, 0), (stripeNo 2 0, 0))] }
     let w : State := { cps j [] with wrt.queue := [⟨⟨0, 3, 0⟩, { (default : Leaf) with kind := .data, stripe := stripeNo 2 0 }, none, 0⟩] }
     (cps j []).str.copy = some j ∧ j.moved = true ∧ j.named = false ∧ (j.moves.all fun m => decide (m.2 = m.1) || stripeWritten (cps j []) m.2.1) = true ∧
       w.str.copy = some j ∧ (j.moves.all fun m => decide (m.2 = m.1) || stripeWritten w m.2.1) = false) ∧
    (let n : CopyJob := cpj { (default : CopyJob) with moved := true, named := true, pages := [9] }
     let m : CopyJob := { n with asked := some 0 }
     let s := cps n []
     let o : CopyJob := { n with todo := [[]] }
     (cps o []).str.copy = some o ∧ o.named = true ∧ o.todo ≠ [] ∧
     (n.named = true ∧ n.todo = [] ∧ n.pages.all (leafHome s) = true ∧ groupRead s 1 = false ∧ n.asked = none ∧ n.stripes = [] ∧ n.lost = false) ∧
       m.asked = some (cps m []).seq.switches ∧ (0 : BitVec 16) ≠ { cps m [] with seq.switches := 1 : State }.seq.switches ∧
       groupLive { cps m [] with seq.switches := 1 : State } 1 = []) ∧
    (State.reset.pwr.banking = false ∧ State.reset.str.copy = none ∧ reqBy State.reset copyTask = none ∧ State.reset.str.rebuilds = [] ∧
      State.reset.str.retiring = [] ∧ State.reset.str.relocPending = [] ∧ reflowGroups State.reset = [] ∧ State.reset.str.redundant = false) ∧
    ({ State.reset with pwr.restored := false : State }.pwr.restored = false ∧ State.reset.hours < { State.reset with str.scrubFrom := 1 : State }.str.scrubFrom) ∧
    (let s : State := { State.reset with pwr.restored := true, str.groups := [grp .full], reqs := [⟨scrubTask, .scrub, 1, [], 0, false⟩] }
     s.pwr.restored = true ∧ s.str.scrubFrom ≤ s.hours ∧ scrubLeft s = [grp .full] ∧ (reqBy s scrubTask).map reqSettled = some true) := by
  and_intros <;> decide +kernel

/-- A cache line of set 47, way 15. -/
def ln (st : LineState) (lf : Option Leaf) (retag : Option (Nat × Nat)) (valid : BitVec 8) (pins : Nat) (promoted : Bool) : Line :=
  ⟨47, 15, st, 3, 1, valid, false, pins, lf, retag, false, promoted⟩
/-- A descriptor that moves four bytes within the hob, and a state whose channel runs it. -/
def dsc (srcSpace dstSpace : Nat) : Desc := ⟨0x100, 0x102, 4, srcSpace, dstSpace, false, false, 0, 0x200⟩

theorem witness_CacheHobAndFlue :
    (∀ pr : Bool,
      let l := ln .filling (some default) none 0 0 pr
      let s : State := { State.reset with cch.lines := [l] }
      (s.cch.lines.find? fun x => x.set = (47 : Fin 48).val ∧ x.way = (15 : Fin 16).val) = some l ∧ l.state = .filling ∧ l.leaf = some default ∧
        findLine s l.stripe l.piece = some l ∧ l.noValid = false ∧ l.set = 47 ∧ l.way = 15 ∧ l.promoted = pr ∧
        { l with noValid := true : Line }.locked = false) ∧
    (let l := fun p => ln .evicting (some default) (some (6, 2)) 0xFF p false
     let s : State := { State.reset with cch.lines := [l 0], prof.dramSize := 4 }
     (s.cch.lines.find? fun x => x.set = (47 : Fin 48).val ∧ x.way = (15 : Fin 16).val) = some (l 0) ∧ (l 0).retag = some (6, 2) ∧
       (l 0).pins = 0 ∧ (l 1).pins ≠ 0 ∧ (l 0).valid = 0xFF ∧ s.prof.dramSize ≠ 0 ∧ s.drm.withdrawn = false) ∧
    (blkEn on 2 = true ∧ on.hob.ceLog.length = 16 ∧ (8388607 + 1) % 8388608 = 0) ∧
    (State.reset.drm.withdrawn = false ∧ { State.reset with prof.dramSize := 4 : State }.prof.dramSize ≠ 0) ∧
    (let s : State := { flu 35 (fun c => { c with active := some (dsc 0 0), rest := [dsc 2 0] }) on with hob.mem := [(0x100, 7)] }
     Memory.wf s.hob.mem = true ∧ (fluAt s 35).active = some (dsc 0 0) ∧ (fluAt s 35).pause = false ∧ (fluAt s 35).inService = true ∧
       tableRuns s (fluAt s 35) = true ∧ blkEn s 4 = true ∧ (fluAt s 35).rest = [dsc 2 0]) ∧
    (let s := fun n => flu n (fun c => { c with active := some (dsc 2 0) }) on
     let a : State := { s 31 with flu.again := [(31, dsc 2 0)] }
     Memory.wf (s 31).hob.mem = true ∧ (fluAt (s 31) 31).active = some (dsc 2 0) ∧ (fluAt (s 31) 31).cls = 0 ∧ (fluAt (s 35) 35).cls = 1 ∧
       (dsc 2 0).srcSpace = 2 ∧ (dsc 0 2).dstSpace = 2 ∧ (31, dsc 2 0) ∉ (s 31).flu.again ∧ (31, dsc 2 0) ∈ a.flu.again ∧
       (s 35).flu.alone = none ∧ (s 35).flu.stopped = false ∧ tableRuns (s 35) (fluAt (s 35) 35) = true ∧
       { s 35 with flu.stopped := true : State }.flu.stopped = true ∧ { s 35 with flu.alone := some 32 : State }.flu.alone = some 32) ∧
    (let f : State := { flu 31 (fun c => { c with active := some (dsc 0 0), fails := [5] }) on with time := 7 }
     blkEn f 4 = true ∧ (fluAt f 31).active = some (dsc 0 0) ∧ (dsc 0 0).srcSpace ≠ 2 ∧ (dsc 0 0).dstSpace ≠ 2 ∧ (fluAt f 31).cls = 0 ∧ (31, dsc 0 0) ∉ f.flu.again ∧
       (∀ x ∈ (fluAt State.reset 31).fails, x + 1000000 ≤ State.reset.time) ∧ ∃ x ∈ (fluAt f 31).fails, f.time < x + 1000000) := by
  and_intros <;> decide +kernel

/-! ## Sequencers, patches, faults and power -/

/-- SQ0 running a routine whose first microword is the one given, with its nanoword. -/
def mw (w : BitVec 24) (nw : BitVec 128) (f : Sqr → Sqr := fun q => q) (s : State := State.reset) : State :=
  sqc 0 (fun q => f { q with mode := .running, routine := some ⟨0, [], none, 0⟩, store := ⟨[(0, w)], [(0, nw)]⟩ }) s
/-- A routine that begins at an address. -/
def rs (a : BitVec 14) : RoutineStart := ⟨a, [], none, 0⟩

/-- A background routine of an activity. -/
def bg (k : Nat) : RoutineStart := ⟨9, [], none, k⟩

/-- Whether a condition reads true rests on what its code names, which the spec leaves open. -/
theorem witness_MicrowordsRun :
    (runsOp (mw 0 0) 0 0 = true ∧ runsOp (mw 0x200000 0) 0 1 = true ∧ runsOp (mw 0x400001 0) 0 2 = true ∧ runsOp (mw 0x6003FF 0) 0 3 = true) ∧
    (let s := fun l => mw 0x800000 0 fun q => { q with stack := List.replicate l 5 }
     let u := fun l => mw 0xA00000 0 fun q => { q with stack := List.replicate l 5 }
     runsOp (s 7) 0 4 = true ∧ (sqr (s 7) 0).stack.length < 8 ∧ runsOp (s 8) 0 4 = true ∧ 8 ≤ (sqr (s 8) 0).stack.length ∧ (sqr (s 8) 0).serves < 4 ∧
       runsOp (u 1) 0 5 = true ∧ (sqr (u 1) 0).stack = [5] ∧ runsOp (u 0) 0 5 = true ∧ (sqr (u 0) 0).stack = []) ∧
    (runsOp (mw 0xC00001 0) 0 6 = true ∧ bitsOf (0x3 <<< 104 : BitVec 128) 105 104 = 3 ∧ runsOp (mw 0xE00000 0) 0 7 = true ∧
      (mw 0xE00000 0).seq.switchReq = false ∧ patchTurn (mw 0xE00000 0) 0 = false ∧ seqPaused (mw 0xE00000 0) = true ∧
      (let e := fun (f : Sqr → Sqr) => mw 0xE00000 0 f on
       let h : State := { spn (fun p => { p with draftQ := 1 }) (e fun q => { q with start := some (bg 1) }) with
         time := 2000000, seq.kept := [(0, rs 1)], seq.bgTime := [(1, 1000000, 2000000)] }
       seqPaused (e id) = false ∧ startsOf (e id) 0 = [] ∧
         ((startsOf (e fun q => { q with start := some (rs 3) }) 0).find? fun x => ¬ shareHeld (e fun q => { q with start := some (rs 3) }) 0 x) = some (rs 3) ∧
         startsOf h 0 = [bg 1, rs 1] ∧ shareHeld h 0 (bg 1) = true ∧ shareHeld h 0 (rs 1) = false ∧
         { e id with seq.switchReq := true : State }.seq.switchReq = true) ∧ (sqr State.reset 4).mode = .quiet) ∧
    (let s := fun n => lp 0 (fun l => { l with wedges := n }) (mw 0x200003 0 fun q => { q with mode := .waiting, waitFrom := 6 })
     (sqr (s 10) 0).mode = .waiting ∧ bitsOf (microAt (sqr (s 10) 0)) 3 0 = 3 ∧ 6 + 2 ^ (3 - 1) ≤ (vget (s 10).srv.loop 0 {}).wedges ∧
       (vget (s 9).srv.loop 0 {}).wedges < 6 + 2 ^ (3 - 1)) := by
  and_intros <;> decide +kernel

theorem witness_RoutinesTrapsAndSequencerFaults :
    (let q := sqc 3 fun q => { q with start := some (rs 3) }
     let r := sqc 3 fun q => { q with routine := some (rs 3), mode := .running }
     let u : RoutineStart := ⟨9, [], none, 1⟩
     let h : State := { spn (fun p => { p with draftQ := 1 }) with time := 2000000, seq.kept := [(3, rs 1)], seq.bgTime := [(25, 1000000, 2000000)] }
     (sqr q 3).serves < 4 ∧ (sqr q 3).start ≠ none ∧ (sqr State.reset 3).start = none ∧ shareHeld State.reset 3 u = false ∧
       (sqr State.reset 3).routine = none ∧ (sqr State.reset 3).hold = false ∧ (sqr State.reset 3).mode = .quiet ∧ (sqr r 3).routine ≠ none ∧
       shareHeld h 3 u = true ∧ (sqr h 3).start = none ∧
       seqPaused on = false ∧ seqPaused State.reset = true ∧ (sqr (sqc 3 fun q => { q with hold := true }) 3).hold = true) ∧
    (let s := sqc 2 fun q => { q with trapPend := 0x82, routine := some (rs 3), mode := .running }
     (sqr s 2).handler = none ∧ trapTop (sqr s 2).trapPend = some 1 ∧ trapCause 1 = .recall ∧ trapTop 0x80 = some 7 ∧ trapCause 7 = .pause ∧ (sqr s 2).serves < 4 ∧ (sqr s 2).routine = some (rs 3) ∧
       (sqr State.reset 2).trapPend = 0) ∧
    (let s := fun c p => sqc 2 fun q => { q with handler := some c, trapPend := p, routine := some (rs 3), save := some (saveRecord q) }
     (sqr (s .shock 0) 2).handler = some .shock ∧ mayResume (s .shock 0) 2 .shock = true ∧ (sqr (s .pause 4) 2).trapPend ≠ 0 ∧
       (sqr (s .pause 0) 2).trapPend = 0 ∧ (sqr (s .pause 0) 2).routine = some (rs 3) ∧ (sqr (s .pause 0) 2).save.isSome = true ∧
       mayResume { State.reset with srv.shock := true } 2 .shock = false) ∧
    (let s : State := { sqc 1 (fun q => { q with dbl := [(true, 2047, 5)] }) with time := 1000004 }
     let again := fun (s : State) => (sqr s 1).dbl.any fun d => d.1 = true ∧ d.2.1 = 2047 ∧ s.time < d.2.2 + 1000000
     again s = true ∧ (sqr s 1).serves < 4 ∧ again { s with time := 1000005 } = false) ∧
    (let s := fun w => sqc 0 fun q => { q with wdog := w, mode := .running, routine := some (rs 3), save := some (saveRecord q) }
     bitsOf (s 262144).reg.ck.seqCfg 15 0 * 1024 ≤ (sqr (s 262144) 0).wdog ∧ (sqr (s 262144) 0).mode = .running ∧
       (sqr (s 262143) 0).wdog < bitsOf (s 262143).reg.ck.seqCfg 15 0 * 1024 ∧ (s 262144).str.seqLeft = true ∧ (sqr (s 262144) 4).serves = 7 ∧
       (sqr (s 262144) 0).routine = some (rs 3) ∧ { s 262144 with str.seqLeft := false : State }.str.seqLeft = false) ∧
    ((sqr State.reset 4).routine = none ∧ (sqr State.reset 4).mode = .quiet ∧ (sqr State.reset 4).serves = 7) := by
  and_intros <;> decide +kernel

/-- A patch of one microword. -/
def pch (a : Nat) (c : Word := 0) : Patch := ⟨0, 3, [(a, 5)], [], c⟩
/-- A patch in progress on the sequencers. -/
def pts (p : Patch) : State := { State.reset with seq.patching := some p, seq.prevMaster := some {} }

/-- Which patch an image spells, and whether it verifies, the spec leaves open. -/
theorem witness_SwitchesAndPatches :
    ({ State.reset with pwr.banking := true : State }.pwr.banking = true ∧ State.reset.pwr.banking = false ∧ (sqr State.reset 0).hold = false) ∧
    (let s : State := { State.reset with seq.switchReq := true, seq.sq := State.reset.seq.sq.map fun q => { q with hold := true, start := some (rs 3) } }
     s.seq.switchReq = true ∧ (∀ n : Fin 5, 4 ≤ (sqr s n).serves ∨ (sqr s n).hold = true) ∧ (sqr s 0).start = some (rs 3) ∧ (sqr s 0).mode = .quiet ∧
       State.reset.seq.switchReq = false ∧ (sqr s 0).routine = none ∧ patchTurn s 0 = false ∧ seqPaused s = true ∧
       (∀ m : Fin 5, m ≠ 0 → (sqr s m).serves ≠ (sqr s 0).serves) ∧
       (let o : State := { on with seq := s.seq }
        seqPaused o = false ∧ startsOf o 0 = [rs 3] ∧ (rs 3).activity = 0) ∧
       (let p : State := { s with seq.patching := some (pch 1), seq.prevMaster := some {} }
        patchTurn p 4 = true) ∧ (sqr (sqc 0 (fun q => { q with mode := .trap }) s) 0).mode ≠ .quiet) ∧
    (State.reset.seq.patching = none ∧ (pch 1).base = State.reset.seq.masterBase ∧ patchBanking (pch 15359) = false ∧ patchBanking (pch 15360) = true ∧
      (pts (pch 1)).seq.patching.isSome = true ∧ substituting State.reset = false ∧
      substituting (spl 0 fun p => { p with role := .substitute, step := .parallel 0 }) = true ∧ (patchOrder State.reset).head? = some (4 : Fin 5).val) ∧
    (let s := pts (pch 1)
     let u : State := { sqc 4 (fun q => { q with partly := true }) s with seq.undoing := true }
     s.seq.patching = some (pch 1) ∧ s.seq.prevMaster = some {} ∧ (sqr s 4).routine = none ∧ (sqr s 4).mode = .quiet ∧ s.pwr.banking = false ∧
       s.seq.undoing = false ∧ ((patchOrder s).find? fun i => !(sqr s i).partly) = some (4 : Fin 5).val ∧
       (sqr (sqc 2 (fun q => { q with mode := .trap }) s) 2).mode ≠ .quiet ∧ u.seq.undoing = true ∧ (sqr u 4).partly = true ∧
       s.seq.patchCut = false ∧ patchTurn s 4 = true ∧ patchTurn s 0 = false ∧ { s with seq.patchCut := true : State }.seq.patchCut = true) := by
  and_intros <;> decide +kernel
/-- A patch whose CRC is that of the store it makes, and one whose CRC is not. -/
theorem witness_SwitchesAndPatches_crc (st : Store) : (∃ p : Patch, storeCrc st = p.crc) ∧ ∃ p : Patch, storeCrc st ≠ p.crc :=
  ⟨⟨pch 1 (storeCrc st), rfl⟩, ⟨pch 1 (storeCrc st + 1), by simp [pch]⟩⟩

/-- Which element stands behind an input the spec leaves open. -/
theorem witness_FaultsAndAshLog :
    (blkEn State.reset 16 = false ∧ blkEn on 16 = true ∧ judgePair ⟨383, false, true, true, false⟩ = none ∧ judgePair ⟨383, false, true, false, true⟩ = some .noError ∧
      judgePair ⟨0, true, false, true, false⟩ = some .error ∧ judgePair ⟨0, true, true, false, false⟩ = some .broken ∧
      (let s : State := { State.reset with flt.pairs := State.reset.flt.pairs.set 0 ⟨true, false, .noError, false⟩ }
       s.flt.pairs[0].masked = false ∧ s.flt.pairs[0].judged ≠ .error) ∧
      { State.reset with flt.pairs := State.reset.flt.pairs.set 0 ⟨true, false, .broken, true⟩ : State }.flt.pairs[0].masked = true) ∧
    (let s : State := { State.reset with flt.lsRun := #v[true, false] }
     s.flt.lsRun[0] = true ∧ s.flt.class3 = false ∧ s.flt.lsRun[1] = false) ∧
    (let s : State := { State.reset with flt.declaredAt := some 7, flt.class3 := true, pwr.banking := true }
     s.flt.declaredAt = some 7 ∧ s.flt.class3 = true ∧ s.pwr.banking = true ∧ s.flt.bankLimitDone = false ∧ State.reset.pwr.banking = false ∧
       { s with flt.bankLimitDone := true : State }.flt.bankLimitDone = true) ∧
    (let s : State := { State.reset with flt.class3 := true, host.cfs := true, host.en := true, host.link.up := true, pwr.powered := true }
     s.flt.class3 = true ∧ s.host.cfs = true ∧ s.host.en = true ∧ s.host.link.up = true ∧ s.pwr.powered = true) ∧
    (hbRuns State.reset = false ∧ hbRuns { State.reset with flt.fwRunning := true, flt.lsRun := #v[true, true] } = true) ∧
    (State.reset.ash.queue = [] ∧ blkEn State.reset 17 = false ∧ blkEn on 17 = true ∧ ({ on with ash.queue := [default] } : State).ash.queue = [default]) := by
  and_intros <;> decide +kernel

/-- A powered state changed. -/
def pw (f : PwrS → PwrS) : State := { State.reset with pwr := f { State.reset.pwr with powered := true } }
/-- A banking sequence that VMOT's loss began. -/
def bk (f : PwrS → PwrS) : State := pw fun p => f { p with banking := true, cause := some .vmotLoss }
/-- A record of a class 3 fault. -/
def rec3 : AshRec := ⟨0, 0x60, 3, [], 0, 0, 0, .none, 0, 0, [4], 0, 0⟩

theorem witness_PowerAndBanking :
    ((pw id).pwr.powered = true ∧ (pw id).flt.class3 = false ∧ (pw id).pwr.banking = false ∧ bankDest (pw id) = .mram ∧
      (pw fun p => { p with warn := true }).pwr.warn = true ∧ (pw id).pwr.vmotOk = false) ∧
    (let s := spn (fun p => { p with mode := .closedLoop, state := .running }) (pw id)
     s.pwr.powered = true ∧ s.spn.mode = .closedLoop ∧ spnTurning s.spn.state = true) ∧
    (trialsRun (bk id) = true ∧ (bk id).pwr.trialAt = none ∧ (bk id).pwr.trialPassed = false ∧ (bk fun p => { p with trialAt := some 6 }).pwr.trialAt = some 6 ∧
      (bk id).pwr.cause ≠ some .failStop ∧ (bk id).pwr.notBack = false ∧ (bk id).pwr.ending = false ∧ (bk id).pwr.passedOnce = false) ∧
    (let e := spn (fun p => { p with state := .banked }) (bk fun p => { p with ending := true })
     let f : State := bk fun p => { p with cause := some .failStop }
     let v := spn (fun p => { p with speed := 3599 }) { bk (fun p => { p with dest := .rings }) with stg.leaves := [stg9 4 .data [1]] }
     e.pwr.banking = true ∧ e.pwr.ending = true ∧ allUnloaded e = true ∧ e.spn.state = .banked ∧
       f.pwr.cause = some .failStop ∧ f.pwr.ending = false ∧ dirtyCount f = 0 ∧ dirtyCount { f with stg.leaves := [stg9 4 .data [1]] } ≠ 0 ∧
       (bk fun p => { p with dest := .mram }).pwr.dest = .mram ∧ (bk id).pwr.vmotOk = false ∧ v.pwr.dest = .rings ∧ v.spn.speed < 3600 ∧ dirtyCount v ≠ 0) ∧
    ((bk fun p => { p with trialPassed := true, vmotOk := true }).pwr.vmotOk = true ∧ dirtyCount (bk fun p => { p with trialPassed := true }) = 0 ∧
      (let s := spn (fun p => { p with state := .banked }) (bk fun p => { p with notBack := true })
       s.pwr.notBack = true ∧ s.pwr.trialPassed = false ∧ dirtyCount s = 0 ∧ allUnloaded s = true ∧ s.spn.state = .banked)) ∧
    (priorCause [rec3] = some 4 ∧ { boot with selfTest := false }.selfTest = false) ∧
    (let s : State := { State.reset with pwr.bucksOffAt := some 3 }
     s.pwr.bucksOffAt = some 3 ∧ s.pwr.powered = false) ∧
    (let s := pw fun p => { p with restore := true }
     let k : State := { s with stg.leaves := [{ stg9 4 .data [1] with mramGroup := some 0 }] }
     s.pwr.restore = true ∧ s.flt.class3 = false ∧ s.pwr.restored = true ∧ (k.stg.leaves.any emberKept) = true ∧ (s.stg.leaves.any emberKept) = false ∧
       { s with pwr.restored := false : State }.pwr.restored = false ∧ reqBy s restoreTask = none ∧ ∀ l ∈ s.ember.copies, l.emberCopies = []) ∧
    (∀ p ∈ ([(110, 125, true), (-40, -40, true), (111, 0, false), (0, 126, false), (-41, 0, false)] : List (Int × Int × Bool)),
      (pw id).ash.recent = [] ∧ (pw id).ash.queue = [] ∧ decide (-40 ≤ p.1 ∧ p.1 ≤ 110 ∧ -40 ≤ p.2.1 ∧ p.2.1 ≤ 125) = p.2.2) ∧
    ({ State.reset with sec.opRetry := true : State }.sec.opRetry = true ∧ State.reset.pwr.warn = false) ∧
    (let i : FwImage := ⟨1, 1, false, 0, 0, [], [], []⟩
     let s : State := { State.reset with fw.running := some i, pwr.hoursBase := 16 }
     s.fw.running = some i ∧ s.sec.svnFuses < i.svn ∧ s.fw.runningSince + 16 ≤ s.hours ∧ s.flt.class3 = false ∧
       { s with pwr.hoursBase := 15 : State }.hours < s.fw.runningSince + 16) := by
  and_intros <;> decide +kernel

theorem witness_EntropyFailures :
    let s : State := { State.reset with time := 3600000000, sec.entropyFails := [1] }
    (∃ u ∈ s.sec.entropyFails, s.time < u + 3600000000) ∧ (¬ ∃ u ∈ { s with sec.entropyFails := [0] : State }.sec.entropyFails, s.time < u + 3600000000) ∧
      State.reset.sec.drbg = none ∧ { State.reset with sec.drbg := some [] : State }.sec.drbg ≠ none := by decide +kernel

end Sys2Proof.Tests
end

section
/-! PROOF. The leaf store's operations and what they change. -/
namespace Sys2Proof.Machine
open Sys2Proof

/-! ## What the leaf store's operations change -/

/-- At most the leaf store differs: stripes and the index log, the staging, the write paths, and the places that sessions and
zones name. -/
def OnlyStore (s t : State) : Prop :=
  t = { s with str := t.str, stg := t.stg, wrt := t.wrt, obj := t.obj, zns := t.zns }

namespace OnlyStore

theorem refl (s : State) : OnlyStore s s := rfl

theorem trans {s t u : State} (h : OnlyStore s t) (k : OnlyStore t u) : OnlyStore s u :=
  Eq.trans k (congrArg (fun x => { x with str := u.str, stg := u.stg, wrt := u.wrt, obj := u.obj, zns := u.zns }) h)

theorem foldl {α : Type} {f : State → α → State} (hf : ∀ s a, OnlyStore s (f s a)) (l : List α) (s : State) :
    OnlyStore s (l.foldl f s) :=
  foldl_frame OnlyStore refl (fun _ _ _ => trans) f hf l s

end OnlyStore

theorem onGroup_onlyStore (s : State) (gid : Nat) (f : Group → Group) : OnlyStore s (onGroup s gid f) := rfl

theorem stagedGrow_onlyStore (s : State) (l : StagedLeaf) (b : List Byte) (a : List Byte × Nat) (f : StagedLeaf → StagedLeaf) :
    OnlyStore s (stagedGrow s l b a f) := rfl

theorem stagedPut_onlyStore (s : State) (l : StagedLeaf) : OnlyStore s (stagedPut s l) := by
  unfold stagedPut
  generalize slotTake _ _ _ = g
  rfl

theorem stageNew_onlyStore (s : State) (kind : LeafKind) (o v off r : Nat) (p key : List Byte) (a : Nat) :
    OnlyStore s (stageNew s kind o v off r p key a).1 := by
  unfold stageNew
  dsimp only
  exact Eq.trans (stagedPut_onlyStore _ _) rfl

theorem stripeWrite_onlyStore (s : State) (g : Group) (slot : Nat) : OnlyStore s (stripeWrite s g slot) := rfl

theorem skipDead_onlyStore (gid n : Nat) : ∀ s, OnlyStore s (skipDead gid n s) := by
  induction n with
  | zero => exact .refl
  | succ n ih =>
    intro s
    unfold skipDead
    split
    · exact .refl s
    · split
      · exact (stripeWrite_onlyStore s _ _).trans ((onGroup_onlyStore _ gid _).trans (ih _))
      · exact .refl s

theorem groupDue_onlyStore (s : State) (gid : Nat) : OnlyStore s (groupDue s gid) := rfl

theorem groupFilled_onlyStore (s : State) (gid : Nat) : OnlyStore s (groupFilled s gid) := by
  unfold groupFilled
  split
  · split
    · exact (onGroup_onlyStore s gid _).trans (groupDue_onlyStore _ gid)
    · exact .refl s
  · exact .refl s

theorem formGroup_onlyStore (s : State) (role : RingRole) (z : Option Nat) : OnlyStore s (formGroup s role z).1 := by
  unfold formGroup
  dsimp only
  split <;> rfl

theorem groupFor_onlyStore (s : State) (role : RingRole) (z : Option Nat) : OnlyStore s (groupFor s role z).1 := by
  unfold groupFor
  split
  · next g _ =>
    have h := skipDead_onlyStore g.id 8192 s
    dsimp only
    split
    · split
      · exact h
      · exact (h.trans (groupFilled_onlyStore _ _)).trans (formGroup_onlyStore _ role z)
    · exact h
  · exact formGroup_onlyStore s role z

theorem placeIn_onlyStore (s : State) (gid uid : Nat) : OnlyStore s (placeIn s gid uid) := by
  have h := skipDead_onlyStore gid 8192 s
  unfold placeIn
  generalize skipDead gid 8192 s = u at h
  dsimp only
  split
  · exact h
  · refine (h.trans ?_).trans (groupFilled_onlyStore _ gid)
    split <;> rfl

theorem formLeaf_onlyStore (s : State) (uid : Nat) : OnlyStore s (formLeaf s uid) := by
  unfold formLeaf
  split
  · next l _ =>
    split
    · exact .refl s
    · have h := groupFor_onlyStore s (if l.kind = .index then .index else .data) (zoneOfId l.objectId)
      split
      · next t g e => 
        rw [e] at h
        exact h.trans (placeIn_onlyStore t g.id uid)
      · next t e =>
        rw [e] at h
        exact h
  · exact .refl s

theorem idxAdd_onlyStore (s : State) (key : List Byte) (accept : Nat) (r : List Byte) : OnlyStore s (idxAdd s key accept r) := by
  unfold idxAdd
  split
  · exact stagedGrow_onlyStore s _ _ _ _
  · dsimp only
    split
    · next l _ => exact (formLeaf_onlyStore s l.uid).trans (stageNew_onlyStore _ _ _ _ _ _ _ _ _)
    · exact stageNew_onlyStore s _ _ _ _ _ _ _ _

theorem idxWrite_onlyStore (s : State) (key : List Byte) (accept : Nat) (recs : List (List Byte)) :
    OnlyStore s (idxWrite s key accept recs) :=
  .trans (t := { s with str.newGroups := [] }) rfl
    ((OnlyStore.foldl (fun s r => idxAdd_onlyStore s [] 0 r) _ _).trans
      (OnlyStore.foldl (fun s r => idxAdd_onlyStore s key accept r) recs _))

theorem idxPending_onlyStore (s : State) : OnlyStore s (idxPending s) := by
  unfold idxPending
  split
  · exact .refl s
  · dsimp only
    split
    · exact idxWrite_onlyStore s [] 0 []
    · exact .refl s

theorem groupFull_onlyStore (s : State) (gid : Nat) : OnlyStore s (groupFull s gid) :=
  ((onGroup_onlyStore s gid _).trans (groupDue_onlyStore _ gid)).trans (idxPending_onlyStore _)

theorem closeStripe_onlyStore (s : State) (gid : Nat) : OnlyStore s (closeStripe s gid) := by
  unfold closeStripe
  split
  · split
    · exact .refl s
    · exact ((stripeWrite_onlyStore s _ _).trans (onGroup_onlyStore _ gid _)).trans (groupFilled_onlyStore _ gid)
  · exact .refl s

theorem forceLeaves_onlyStore (s : State) (uids : List Nat) : OnlyStore s (forceLeaves s uids) := by
  refine OnlyStore.foldl (fun s u => ?_) uids s
  refine (formLeaf_onlyStore s u).trans ?_
  dsimp only
  split
  · split
    · split
      · split
        · exact closeStripe_onlyStore _ _
        · exact .refl _
      · exact .refl _
    · exact .refl _
  · exact .refl _

theorem writeHome_onlyStore (s : State) : OnlyStore s (writeHome s) :=
  (forceLeaves_onlyStore s _).trans (idxPending_onlyStore _)

end Sys2Proof.Machine
end

section
/-! PROOF. An element, a head, an actuator or a lane leaving service, and what that changes. -/
namespace Sys2Proof.Machine
open Sys2Proof

/-! ## What an element leaving service changes -/

/-- At most what a fault and an element leaving service change differs: the leaf store, ember copies, lanes, loops, sequencers,
the frames cut short, the fault counts and logs, and the host's events. No request, no grate, no codeword. -/
def OnlyService (s t : State) : Prop :=
  t = { s with
    str := t.str, stg := t.stg, wrt := t.wrt, obj := t.obj, zns := t.zns, ember := t.ember, chan := t.chan, ash := t.ash,
    srv.loop := t.srv.loop, seq.sq := t.seq.sq, media.frames := t.media.frames, host.events := t.host.events,
    flt.cnt1 := t.flt.cnt1, flt.cnt2 := t.flt.cnt2, flt.worst := t.flt.worst,
    reg.caps := t.reg.caps, freeCtr := t.freeCtr, hob.conf := t.hob.conf }

namespace OnlyService

theorem refl (s : State) : OnlyService s s := rfl

theorem trans {s t u : State} (h : OnlyService s t) (k : OnlyService t u) : OnlyService s u :=
  Eq.trans k (congrArg (fun x => { x with
    str := u.str, stg := u.stg, wrt := u.wrt, obj := u.obj, zns := u.zns, ember := u.ember, chan := u.chan, ash := u.ash,
    srv.loop := u.srv.loop, seq.sq := u.seq.sq, media.frames := u.media.frames, host.events := u.host.events,
    flt.cnt1 := u.flt.cnt1, flt.cnt2 := u.flt.cnt2, flt.worst := u.flt.worst,
    reg.caps := u.reg.caps, freeCtr := u.freeCtr, hob.conf := u.hob.conf }) h)

theorem of_store {s t : State} (h : OnlyStore s t) : OnlyService s t := by
  rw [h]
  rfl

theorem foldl {α : Type} {f : State → α → State} (hf : ∀ s a, OnlyService s (f s a)) (l : List α) (s : State) :
    OnlyService s (l.foldl f s) :=
  foldl_frame OnlyService refl (fun _ _ _ => trans) f hf l s

theorem grt {s t : State} (h : OnlyService s t) : t.grt = s.grt := by rw [h]
theorem reqs {s t : State} (h : OnlyService s t) : t.reqs = s.reqs := by rw [h]

end OnlyService

theorem ashRecord_onlyService (s : State) (tr c : Nat) (e : Element) (d : List Nat) : OnlyService s (ashRecord s tr c e d) := by
  obtain ⟨a, r, n, f, h⟩ := ashRecord_frame s tr c e d
  rw [h]
  rfl

theorem fault1_onlyService (s : State) (e : Element) (tr : Nat) (d : List Nat) (h : HealthEvent) :
    OnlyService s (fault1 s e tr d h) := by
  obtain ⟨w, a, r, n, f, k⟩ := fault1_frame s e tr d h
  rw [k]
  rfl

theorem fault2_onlyService (s : State) (e : Element) (tr : Nat) (d : List Nat) (h : HealthEvent) :
    OnlyService s (fault2 s e tr d h) := by
  obtain ⟨w, a, r, n, f, k⟩ := fault2_frame s e tr d h
  rw [k]
  rfl

theorem spareUsed_onlyService (s : State) (old new : Element) : OnlyService s (spareUsed s old new) :=
  .trans (t := { s with str.spareMap := s.str.spareMap ++ [(old, new)] }) rfl (fault1_onlyService _ _ _ _ _)

theorem budgetSpent_onlyService (s : State) (e : Element) : OnlyService s (budgetSpent s e) := fault2_onlyService _ _ _ _ _

theorem emberCopy_onlyService (s : State) (uid : Nat) : OnlyService s (emberCopy s uid) := by
  unfold emberCopy
  split
  · exact .refl s
  · split
    · exact .refl s
    · split <;> rfl

/-- A head that changes its state closes its groups, drops its frames and records the fault (R252). -/
theorem headChange_onlyService (s : State) (sf : Nat) (st : HeadState) : OnlyService s (headChange s sf st) := by
  unfold headChange
  extract_lets old code
  split
  · exact .refl s
  next cap opened undone jobs cut stripes embers _ s1 s2 _ s3 s4 _ s5 _ =>
    have h1 : OnlyService s s1 := rfl
    have h2 : OnlyService s1 s2 := .of_store (.foldl (fun s (g : Group) => groupFull_onlyStore s g.id) _ _)
    have h3 : OnlyService s2 s3 := rfl
    have h4 : OnlyService s3 s4 := .foldl emberCopy_onlyService _ _
    have h5 : OnlyService s4 s5 := by
      unfold s5
      split <;> rfl
    exact h1.trans (h2.trans (h3.trans (h4.trans (h5.trans (fault1_onlyService _ _ _ _ _)))))

theorem retractAct_onlyService (s : State) (a : Nat) : OnlyService s (retractAct s a) := by
  obtain ⟨l, w, f, q, h⟩ := retractAct_frame s a
  rw [h]
  rfl

theorem actuatorOut_onlyService (s : State) (a c : Nat) : OnlyService s (actuatorOut s a c) := by
  unfold actuatorOut
  split
  · exact .refl s
  · extract_lets s1 _ s2 s3
    have h1 : OnlyService s s2 := (retractAct_onlyService s a).trans rfl
    have h2 : OnlyService s2 s3 := .foldl (fun s h => by
      split
      · exact .refl s
      · exact headChange_onlyService _ _ _) _ _
    exact h1.trans (h2.trans (fault2_onlyService _ _ _ _ _))

/-! ## What a lane declared faulty changes -/

theorem onSpare_onlyService (s : State) (j : Nat) (f : SpareLane → SpareLane) : OnlyService s (onSpare s j f) := rfl

theorem connectSpare_onlyService (s : State) (j a : Nat) (t : Bool) (r : LaneRole) : OnlyService s (connectSpare s j a t r) := rfl

theorem returnSpare_onlyService (s : State) (j : Nat) : OnlyService s (returnSpare s j) := rfl

theorem readersCheck_onlyService (s : State) (sf : Nat) : OnlyService s (readersCheck s sf) := by
  unfold readersCheck
  dsimp only
  split
  · exact headChange_onlyService _ _ _
  · exact .refl s

theorem laneSpareUsed_onlyService (s : State) (j n : Nat) : OnlyService s (laneSpareUsed s j n) := by
  unfold laneSpareUsed
  refine .trans ?_ (spareUsed_onlyService _ _ _)
  refine .trans ?_ (onSpare_onlyService _ _ _)
  split
  · exact .refl s
  · rfl

theorem laneGone_onlyService (s : State) (a : Nat) : OnlyService s (laneGone s a) := by
  unfold laneGone
  split
  · exact actuatorOut_onlyService _ _ _
  · exact .foldl (fun s h => readersCheck_onlyService s _) _ _

theorem laneSubstitute_onlyService (s : State) (n : Nat) : OnlyService s (laneSubstitute s n) := by
  unfold laneSubstitute
  extract_lets a trail
  split
  · exact (onSpare_onlyService _ _ _).trans (laneSpareUsed_onlyService _ _ _)
  · split
    · exact (connectSpare_onlyService _ _ _ _ _).trans (laneSpareUsed_onlyService _ _ _)
    next s1 _ _ _ _ =>
      have h1 : OnlyService s s1 := rfl
      split
      · extract_lets s2
        have h2 : OnlyService s1 s2 := by
          unfold s2
          split
          · exact .refl s1
          · exact returnSpare_onlyService s1 _
        exact h1.trans (h2.trans ((onSpare_onlyService _ _ _).trans (laneSpareUsed_onlyService _ _ _)))
      · exact h1.trans ((budgetSpent_onlyService _ _).trans (laneGone_onlyService _ _))

theorem laneFault_onlyService (s : State) (n c : Nat) : OnlyService s (laneFault s n c) := by
  unfold laneFault
  split
  · extract_lets p
    split
    · exact .refl s
    next s1 s2 _ s3 s4 _ =>
      have h1 : OnlyService s s1 := by
        unfold s1
        split
        · exact ashRecord_onlyService _ _ _ _ _
        · exact fault1_onlyService _ _ _ _ _
      have h2 : OnlyService s1 s2 := rfl
      have h3 : OnlyService s2 s3 := by
        unfold s3
        split <;> rfl
      have h4 : OnlyService s3 s4 := by
        unfold s4
        split
        · exact laneSubstitute_onlyService _ _
        · exact .refl s3
      refine h1.trans (h2.trans (h3.trans (h4.trans ?_)))
      split
      · exact laneSubstitute_onlyService _ _
      · exact .refl s4
  · split
    · exact .refl s
    · exact .trans (t := onLane s n fun l => { l with faulty := true, recal := c = 3 }) rfl
        ((ashRecord_onlyService _ _ _ _ _).trans (laneSubstitute_onlyService _ _))

/-- The lane judgement of both readers of an actuator takes a lane out of service or changes nothing (R75). -/
theorem laneJudge_onlyService (s : State) (a : Nat) : OnlyService s (laneJudge s a) := by
  unfold laneJudge
  extract_lets one
  have h : ∀ s t, OnlyService s (one s t) := by
    intro s t
    unfold one
    extract_lets n
    split
    · exact .trans (t := onChan s a _) rfl (laneFault_onlyService _ _ _)
    · exact .refl s
  exact (h s false).trans (h _ true)

end Sys2Proof.Machine
end

section
/-! PROOF. Requests and their leaves: found by number, settled, and rebuilt. -/
namespace Sys2Proof.Machine
open Sys2Proof

/-! ## Vectors read and updated at a number -/

theorem vget_eq_getElem {α : Type} {n : Nat} (v : Vector α n) {i : Nat} (h : i < n) (d : α) : vget v i d = v[i] := by
  simp [vget, h]

theorem vget_vmod_same {α : Type} {n : Nat} (v : Vector α n) {i : Nat} (h : i < n) (f : α → α) (d : α) :
    vget (vmod v i f) i d = f (vget v i d) := by
  simp [vget_eq_getElem _ h, vmod, h]

theorem vget_vmod_other {α : Type} {n : Nat} (v : Vector α n) {i j : Nat} (h : j ≠ i) (f : α → α) (d : α) :
    vget (vmod v i f) j d = vget v j d := by
  by_cases hi : i < n
  · by_cases hj : j < n
    · simp [vget_eq_getElem _ hj, vmod, hi, h.symm]
    · simp [vget, hj]
  · simp [vmod, hi]

/-! ## Damage found (R399) -/

theorem damageVersion_onlyService (s : State) (key : List Byte) (no oid : Nat) : OnlyService s (damageVersion s key no oid) := by
  unfold damageVersion
  split
  · exact .refl s
  · extract_lets s1 s2
    have h1 : OnlyService s s1 := rfl
    exact h1.trans ((ashRecord_onlyService _ _ _ _ _).trans (t := s2) rfl)

theorem damageZone_onlyService (s : State) (z : Nat) (ords : List Nat) : OnlyService s (damageZone s z ords) := by
  unfold damageZone
  extract_lets no s1
  have h1 : OnlyService s s1 := rfl
  split
  · exact h1
  · next s2 s3 _ _ _ _ =>
    have h2 : OnlyService s1 s2 := rfl
    exact h1.trans (h2.trans ((ashRecord_onlyService _ _ _ _ _).trans (t := s3) rfl))

theorem damageLeaf_onlyService (s : State) (p : Nat × Nat) : OnlyService s (damageLeaf s p) := by
  unfold damageLeaf
  split
  · exact damageVersion_onlyService _ _ _ _
  · exact .foldl (fun s z => damageZone_onlyService s z _) _ _

/-! ## Requests and leaves found by their numbers -/

/-- A line that ends unreadable changes only the cache's lines (R282). -/
theorem cacheFail_frame (s : State) (st p : Nat) : ∃ l, cacheFail s st p = { s with cch.lines := l } := by
  unfold cacheFail
  split
  · split
    · exact ⟨s.cch.lines, rfl⟩
    · split <;> exact ⟨_, rfl⟩
  · exact ⟨s.cch.lines, rfl⟩

theorem cacheFail_reqs (s : State) (st p : Nat) : (cacheFail s st p).reqs = s.reqs := by
  obtain ⟨l, h⟩ := cacheFail_frame s st p
  rw [h]

theorem cacheFail_grt (s : State) (st p : Nat) : (cacheFail s st p).grt = s.grt := by
  obtain ⟨l, h⟩ := cacheFail_frame s st p
  rw [h]

theorem reqBy_congr {s t : State} (h : t.reqs = s.reqs) (i : Nat) : reqBy t i = reqBy s i := by
  unfold reqBy
  rw [h]

theorem leafBy_congr {s t : State} (h : t.reqs = s.reqs) (i j : Nat) : leafBy t i j = leafBy s i j := by
  unfold leafBy
  rw [reqBy_congr h]

/-- A request found after an operation on every request. -/
theorem reqBy_of_map {s t : State} {F : Request → Request} (h : t.reqs = s.reqs.map F) (hid : ∀ r, (F r).id = r.id) (i : Nat) :
    reqBy t i = (reqBy s i).map F := by
  unfold reqBy
  rw [h, List.find?_map]
  simp [hid]

/-- The leaf found after an operation on every leaf, which does `g` to the leaves of that request and number. -/
theorem leafBy_of_map {s t : State} {F : Request → Request} {G : Request → ReqLeaf → ReqLeaf} (h : t.reqs = s.reqs.map F)
    (hid : ∀ r, (F r).id = r.id) (hl : ∀ r, (F r).leaves = r.leaves.map (G r)) (hG : ∀ r x, (G r x).idx = x.idx) {i j : Nat}
    {x : ReqLeaf} (hx : leafBy s i j = some x) {g : ReqLeaf → ReqLeaf} (hg : ∀ r, r.id = i → x.idx = j → G r x = g x) :
    leafBy t i j = some (g x) := by
  unfold leafBy at hx ⊢
  obtain ⟨r, hr, hf⟩ := Option.bind_eq_some_iff.mp hx
  have hri : r.id = i := by simpa using List.find?_some hr
  have hxj : x.idx = j := by simpa using List.find?_some hf
  have hk : ((fun y : ReqLeaf => decide (y.idx = j)) ∘ G r) = fun y => decide (y.idx = j) := by
    funext y
    simp [hG]
  rw [reqBy_of_map h hid, hr, Option.map_some, Option.bind_some, hl, List.find?_map, hk, hf, Option.map_some, hg r hri hxj]

/-- A request with one leaf number changed, as `onLeaf` leaves it. -/
def reqOn (id idx : Nat) (f : ReqLeaf → ReqLeaf) (r : Request) : Request :=
  if r.id = id then { r with leaves := r.leaves.map fun l => if l.idx = idx then f l else l } else r

theorem onLeaf_reqs (s : State) (id idx : Nat) (f : ReqLeaf → ReqLeaf) :
    (onLeaf s id idx f).reqs = s.reqs.map (reqOn id idx f) := rfl

theorem reqOn_kept (id idx : Nat) (f : ReqLeaf → ReqLeaf) (r : Request) :
    (reqOn id idx f r).id = r.id ∧ (reqOn id idx f r).purpose = r.purpose := by
  unfold reqOn
  split <;> exact ⟨rfl, rfl⟩

theorem reqOn_leaves (id idx : Nat) (f : ReqLeaf → ReqLeaf) (r : Request) :
    (reqOn id idx f r).leaves = r.leaves.map fun x => if r.id = id ∧ x.idx = idx then f x else x := by
  unfold reqOn
  split
  · next h => simp [h]
  · next h => simp [h]

theorem reqBy_onLeaf {s : State} {i : Nat} {q : Request} (h : reqBy s i = some q) (id idx : Nat) (f : ReqLeaf → ReqLeaf) :
    reqBy (onLeaf s id idx f) i = some (reqOn id idx f q) := by
  rw [reqBy_of_map (onLeaf_reqs s id idx f) (fun r => (reqOn_kept id idx f r).1), h, Option.map_some]

theorem leafBy_onLeaf_same {s : State} {id idx : Nat} {x : ReqLeaf} {f : ReqLeaf → ReqLeaf} (hf : ∀ l, (f l).idx = l.idx)
    (h : leafBy s id idx = some x) : leafBy (onLeaf s id idx f) id idx = some (f x) := by
  refine leafBy_of_map (onLeaf_reqs s id idx f) (fun r => (reqOn_kept id idx f r).1) (reqOn_leaves id idx f) ?_ h ?_
  · intro r y
    split
    · exact hf y
    · rfl
  · intro r hr hx
    exact if_pos ⟨hr, hx⟩

theorem leafBy_onLeaf_other {s : State} {id idx i j : Nat} {x : ReqLeaf} {f : ReqLeaf → ReqLeaf} (hf : ∀ l, (f l).idx = l.idx)
    (hne : ¬(i = id ∧ j = idx)) (h : leafBy s i j = some x) : leafBy (onLeaf s id idx f) i j = some x := by
  refine leafBy_of_map (g := fun x => x) (onLeaf_reqs s id idx f) (fun r => (reqOn_kept id idx f r).1)
    (reqOn_leaves id idx f) ?_ h ?_
  · intro r y
    split
    · exact hf y
    · rfl
  · intro r hr hx
    exact if_neg (by rw [hr, hx]; exact hne)

/-! ## A leaf settled -/

/-- A leaf as its settling leaves it: ready with its data, or unreadable. -/
def leafEnd (res : Option Leaf) (x : ReqLeaf) : ReqLeaf :=
  { x with
    phase := if res.isSome then LeafPhase.ready else LeafPhase.unreadable, soft := none, reread := false, ahead := false, data := res }

/-- A leaf of a request when the leaf `l` with a number is settled: it ends if it is that leaf, or shares its line. -/
def leafSettle (id idx : Nat) (l : ReqLeaf) (res : Option Leaf) (r : Request) (x : ReqLeaf) : ReqLeaf :=
  if (r.id = id ∧ x.idx = idx) ∨ (x.phase = .sharing ∧ x.stripe = l.stripe ∧ x.piece = l.piece) then leafEnd res x else x

theorem leafSettle_idx (id idx : Nat) (l : ReqLeaf) (res : Option Leaf) (r : Request) (x : ReqLeaf) :
    (leafSettle id idx l res r x).idx = x.idx := by
  unfold leafSettle
  split <;> rfl

/-- A request when the leaf `l` with a number is settled. -/
def reqSettle (id idx : Nat) (l : ReqLeaf) (res : Option Leaf) (r : Request) : Request :=
  let leaves := r.leaves.map (leafSettle id idx l res r)
  { r with leaves := leaves, released := (leaves.takeWhile leafSettled).length }

theorem settleLeaf_reqs {s : State} {id idx : Nat} {l : ReqLeaf} (h : leafBy s id idx = some l) (res : Option Leaf) :
    (settleLeaf s id idx res).reqs = s.reqs.map (reqSettle id idx l res) := by
  unfold settleLeaf releaseLeaves
  rw [h]
  dsimp only
  rw [List.map_map]
  refine congrArg (List.map (reqSettle id idx l res)) ?_
  split
  · rfl
  · exact cacheFail_reqs _ _ _
  · rfl

theorem settleLeaf_grt (s : State) (id idx : Nat) (res : Option Leaf) : (settleLeaf s id idx res).grt = s.grt := by
  unfold settleLeaf releaseLeaves
  split
  · rfl
  · dsimp only
    split
    · rfl
    · exact cacheFail_grt _ _ _
    · rfl

theorem leafBy_settleLeaf_same {s : State} {id idx : Nat} {l : ReqLeaf} (h : leafBy s id idx = some l) (res : Option Leaf) :
    leafBy (settleLeaf s id idx res) id idx = some (leafEnd res l) :=
  leafBy_of_map (settleLeaf_reqs h res) (fun _ => rfl) (fun _ => rfl) (leafSettle_idx id idx l res) h
    fun _ hr hx => if_pos (.inl ⟨hr, hx⟩)

/-- Settling a leaf leaves every other leaf that is ready as it is. -/
theorem leafBy_settleLeaf_other {s : State} {id idx i j : Nat} {x : ReqLeaf} (hne : ¬(i = id ∧ j = idx))
    (h : leafBy s i j = some x) (hx : x.phase = .ready) (res : Option Leaf) :
    leafBy (settleLeaf s id idx res) i j = some x := by
  cases hl : leafBy s id idx with
  | none =>
    unfold settleLeaf
    rw [hl]
    exact h
  | some l =>
    refine leafBy_of_map (g := fun x => x) (settleLeaf_reqs hl res) (fun _ => rfl) (fun _ => rfl) (leafSettle_idx id idx l res) h ?_
    intro r hr hj
    refine if_neg ?_
    rw [hr, hj, hx]
    rintro (h | ⟨h, -⟩)
    · exact hne h
    · cases h

/-- Once a leaf is settled no leaf of its request and number waits. -/
theorem settleLeaf_not_waiting {s : State} {id idx : Nat} {l : ReqLeaf} (h : leafBy s id idx = some l) (lf : Leaf) :
    ∀ r ∈ (settleLeaf s id idx (some lf)).reqs, r.id = id → ∀ x ∈ r.leaves, x.idx = idx → x.phase = .ready := by
  intro r hr hid x hx hidx
  rw [settleLeaf_reqs h, List.mem_map] at hr
  obtain ⟨r', -, rfl⟩ := hr
  obtain ⟨x', -, rfl⟩ := List.mem_map.mp hx
  have hi : x'.idx = idx := (leafSettle_idx _ _ _ _ _ _).symm.trans hidx
  rw [leafSettle, if_pos (.inl ⟨hid, hi⟩)]
  rfl

/-! ## Reconstruction, the ladder and the leaves that lie on a head no longer read -/

theorem leafLost_grt (s : State) (id idx : Nat) : (leafLost s id idx).grt = s.grt := by
  unfold leafLost
  split
  · extract_lets s1
    have h1 : s1.grt = s.grt := settleLeaf_grt _ _ _ _
    split
    · split
      · split
        · exact ((damageLeaf_onlyService _ _).grt).trans h1
        · exact h1
      · exact h1
    · exact h1
  · rfl

theorem startRebuild_grt (s : State) (id idx : Nat) : (startRebuild s id idx).grt = s.grt := by
  unfold startRebuild
  split
  · split
    · exact settleLeaf_grt _ _ _ _
    · split
      · exact settleLeaf_grt _ _ _ _
      · dsimp only
        split
        · exact leafLost_grt _ _ _
        · rfl
  · rfl

theorem leafLost_reqs (s : State) (id idx : Nat) : (leafLost s id idx).reqs = (settleLeaf s id idx none).reqs := by
  unfold leafLost
  split
  · dsimp only
    split
    · split
      · split
        · exact (damageLeaf_onlyService _ _).reqs
        · rfl
      · rfl
    · rfl
  · next h =>
    unfold settleLeaf
    rw [h]

/-- A reconstruction begun for one leaf leaves every other leaf that is ready as it is. -/
theorem leafBy_startRebuild_other {s : State} {id idx i j : Nat} {x : ReqLeaf} (hne : ¬(i = id ∧ j = idx))
    (h : leafBy s i j = some x) (hx : x.phase = .ready) : leafBy (startRebuild s id idx) i j = some x := by
  unfold startRebuild
  split
  · split
    · exact leafBy_settleLeaf_other hne h hx none
    · split
      · exact leafBy_settleLeaf_other hne h hx none
      · extract_lets st slot cands held src s1
        have h1 : leafBy s1 i j = some x := leafBy_onLeaf_other (by exact fun _ => rfl) hne h
        split
        · rw [leafBy_congr (leafLost_reqs s1 id idx)]
          exact leafBy_settleLeaf_other hne h1 hx none
        · unfold leafBy reqBy at h1 ⊢
          obtain ⟨r, hr, hf⟩ := Option.bind_eq_some_iff.mp h1
          simp [List.find?_append, hr, hf]
  · exact h

theorem rebuildDue_grt (s : State) : (rebuildDue s).grt = s.grt :=
  foldl_frame (fun s t => t.grt = s.grt) (fun _ => rfl) (fun _ _ _ h k => k.trans h) _ (fun s (x : Nat × Nat) => startRebuild_grt s x.1 x.2) _ s

/-- A ready leaf stays as it is while the leaves that wait on heads no longer read go to reconstruction, when no leaf of its
request and number waits. -/
theorem leafBy_rebuildDue_ready {s : State} {i j : Nat} {x : ReqLeaf} (h : leafBy s i j = some x) (hx : x.phase = .ready)
    (hall : ∀ r ∈ s.reqs, r.id = i → ∀ y ∈ r.leaves, y.idx = j → y.phase = .ready) : leafBy (rebuildDue s) i j = some x := by
  unfold rebuildDue
  refine List.foldlRecOn (motive := fun t => leafBy t i j = some x) _ _ h ?_
  intro t ht p hp
  refine leafBy_startRebuild_other ?_ ht hx
  rintro ⟨rfl, rfl⟩
  obtain ⟨r, hr, hp⟩ := List.mem_flatMap.mp hp
  obtain ⟨y, hy, rfl⟩ := List.mem_map.mp hp
  obtain ⟨hy, hw⟩ := List.mem_filter.mp hy
  have := hall r hr rfl y hy rfl
  simp [this] at hw

end Sys2Proof.Machine
end

section
/-! PROOF. The retry ladder and the collector's judgement of a leaf. -/
namespace Sys2Proof.Machine
open Sys2Proof

/-! ## The retry ladder -/

/-- Of the grates' state at most the shared queue, the counts of the ladder's steps and the correctable-error logs differ. -/
def OnlyLadder (s t : State) : Prop :=
  t.grt = { s.grt with
    queue := t.grt.queue, enter1 := t.grt.enter1, enter2 := t.grt.enter2, enter3 := t.grt.enter3, enter4 := t.grt.enter4,
    ceCnt := t.grt.ceCnt, ceLog := t.grt.ceLog }

namespace OnlyLadder

theorem of_grt {s t : State} (h : t.grt = s.grt) : OnlyLadder s t := by
  unfold OnlyLadder
  rw [h]

theorem refl (s : State) : OnlyLadder s s := rfl

theorem trans {s t u : State} (h : OnlyLadder s t) (k : OnlyLadder t u) : OnlyLadder s u :=
  Eq.trans k (congrArg (fun x : GrtS => { x with
    queue := u.grt.queue, enter1 := u.grt.enter1, enter2 := u.grt.enter2, enter3 := u.grt.enter3, enter4 := u.grt.enter4,
    ceCnt := u.grt.ceCnt, ceLog := u.grt.ceLog }) h)

theorem after {s t u : State} (k : OnlyLadder t u) (h : t.grt = s.grt) : OnlyLadder s u := (of_grt h).trans k

theorem grate {s t : State} (h : OnlyLadder s t) : t.grt.grate = s.grt.grate := by rw [h]
theorem last {s t : State} (h : OnlyLadder s t) : t.grt.last = s.grt.last := by rw [h]
theorem miscor {s t : State} (h : OnlyLadder s t) : t.grt.miscor = s.grt.miscor := by rw [h]

end OnlyLadder

theorem ceEvent_onlyLadder (s : State) (p : Pos) (step iter corrected : Nat) : OnlyLadder s (ceEvent s p step iter corrected) := rfl

theorem sourceFailed_grt (s : State) (id i : Nat) : (sourceFailed s id i).grt = s.grt := by
  unfold sourceFailed
  split
  · rfl
  · split
    · rfl
    · dsimp only
      split
      · split
        · rfl
        · exact leafLost_grt _ _ _
      · split
        · rfl
        · exact leafLost_grt _ _ _

theorem leafDone_grt (s : State) (id idx : Nat) (res : Option Leaf) (corrected step : Nat) :
    (leafDone s id idx res corrected step).grt = s.grt := by
  have h := settleLeaf_grt s id idx res
  unfold leafDone
  split
  · dsimp only
    split
    · split
      · exact h
      · exact (sourceFailed_grt _ _ _).trans h
    · exact h
  · rfl

/-- A leaf of a request that is no reconstruction's ends as it is settled. -/
theorem leafDone_eq_settleLeaf {s : State} {id idx : Nat} {q : Request} {l : ReqLeaf} (hq : reqBy s id = some q)
    (hl : leafBy s id idx = some l) (hp : q.purpose ≠ .source) (res : Option Leaf) (corrected step : Nat) :
    leafDone s id idx res corrected step = settleLeaf s id idx res := by
  simp [leafDone, hq, hl, hp]

theorem ladderStep4_onlyLadder (s : State) (id idx : Nat) (event : Bool) : OnlyLadder s (ladderStep4 s id idx event) := by
  unfold ladderStep4
  split
  · split
    · exact .of_grt (leafDone_grt _ _ _ _ _ _)
    · extract_lets _ s1
      have h1 : OnlyLadder s s1 := by
        unfold s1
        split <;> rfl
      split
      · exact h1.trans (.of_grt (settleLeaf_grt _ _ _ _))
      · refine h1.trans (.trans ?_ (.of_grt (startRebuild_grt _ _ _)))
        split
        · exact ceEvent_onlyLadder _ _ _ _ _
        · exact .refl s1
  · exact .refl s

theorem queueCodeword_onlyLadder (s : State) (id idx step : Nat) (soft : List Soft) :
    OnlyLadder s (queueCodeword s id idx step soft) := by
  unfold queueCodeword
  split <;> rfl

theorem enterStep2_onlyLadder (s : State) (id idx : Nat) : OnlyLadder s (enterStep2 s id idx) := by
  unfold enterStep2
  extract_lets _ s1
  have h1 : OnlyLadder s s1 := rfl
  split
  · split
    · exact h1.trans ((queueCodeword_onlyLadder _ _ _ _ _).after rfl)
    · exact h1
  · exact h1

theorem ladderFail_onlyLadder (s : State) (id idx step : Nat) (byErased : Bool) :
    OnlyLadder s (ladderFail s id idx step byErased) := by
  unfold ladderFail
  split
  · extract_lets s1
    have h1 : OnlyLadder s s1 := rfl
    split
    · exact h1.trans (enterStep2_onlyLadder _ _ _)
    · exact h1.trans (.trans (t := { s1 with grt.enter1 := satInc s1.grt.enter1 }) rfl (queueCodeword_onlyLadder _ _ _ _ _))
  · extract_lets s1
    have h1 : OnlyLadder s s1 := rfl
    split
    · exact h1
    · exact h1.trans (enterStep2_onlyLadder _ _ _)
  · rfl
  · exact ladderStep4_onlyLadder _ _ _ _
  · exact .refl s

theorem queueCodeword_grt {s : State} {id idx : Nat} {q : Request} {l : ReqLeaf} (hq : reqBy s id = some q)
    (hl : leafBy s id idx = some l) (step : Nat) (soft : List Soft) :
    ∃ c, (queueCodeword s id idx step soft).grt = { s.grt with queue := s.grt.queue ++ [c] } ∧
      c.step = step ∧ c.req = id ∧ c.leafIdx = idx ∧ c.pos = l.pos := by
  unfold queueCodeword
  rw [hq, hl]
  exact ⟨_, rfl, rfl, rfl, rfl, rfl⟩

/-- A leaf at its iteration limit at step 0 enters step 1: its codeword joins the queue again (Table 5.4). -/
theorem ladderFail_step0_grt {s : State} {id idx : Nat} {q : Request} {l : ReqLeaf} (hq : reqBy s id = some q)
    (hl : leafBy s id idx = some l) :
    ∃ c, (ladderFail s id idx 0 false).grt =
        { s.grt with queue := s.grt.queue ++ [c], enter1 := satInc s.grt.enter1 } ∧
      c.step = 1 ∧ c.req = id ∧ c.leafIdx = idx ∧ c.pos = l.pos := by
  have hl1 := leafBy_onLeaf_same (f := fun l => { l with reread := true }) (fun _ => rfl) hl
  obtain ⟨c, hc, hcs⟩ := queueCodeword_grt (s := { onLeaf s id idx (fun l => { l with reread := true }) with
    grt.enter1 := satInc s.grt.enter1 }) (reqBy_onLeaf hq id idx _) hl1 1 (l.soft.getD [])
  refine ⟨c, ?_, hcs⟩
  unfold ladderFail
  rw [hl]
  exact hc

/-! ## The collector's judgement -/

/-- The state a leaf's decode is judged in: the leaf notes the decode, and the capture of R103 takes its outcome. -/
def judged (s : State) (r : GrateResult) (l : ReqLeaf) (res : Option Leaf) : State :=
  captureDecoded (onLeaf s r.req r.leafIdx fun l => { l with lastIter := r.iter, lastCorrected := r.corrected, grate := r.grate })
    (actOf l.pos.surface) r.req r.leafIdx res

theorem judged_grt (s : State) (r : GrateResult) (l : ReqLeaf) (res : Option Leaf) : (judged s r l res).grt = s.grt := rfl

theorem reqBy_judged {s : State} {r : GrateResult} {q : Request} (h : reqBy s r.req = some q) (l : ReqLeaf) (res : Option Leaf) :
    ∃ p, reqBy (judged s r l res) r.req = some p ∧ p.purpose = q.purpose :=
  ⟨_, reqBy_onLeaf h r.req r.leafIdx _, (reqOn_kept _ _ _ q).2⟩

theorem leafBy_judged {s : State} {r : GrateResult} {x : ReqLeaf} (h : leafBy s r.req r.leafIdx = some x) (l : ReqLeaf)
    (res : Option Leaf) : ∃ y, leafBy (judged s r l res) r.req r.leafIdx = some y ∧ y.pos = x.pos :=
  ⟨_, leafBy_onLeaf_same (by exact fun _ => rfl) h, rfl⟩

/-- The checks of R120 on a result, for the leaf it was decoded for. -/
def resultPasses (l : ReqLeaf) (r : GrateResult) : Bool :=
  leafPasses l.pos l.kinds ((l.stripe.map fun st => (st, l.piece)) <|> l.home) (leafOfBytes r.info)

/-- The correctable-error logs after a leaf that passed: its event noted (R128), its entry invalidated by a clean scrub (R130). -/
def judgedEvents (q : Request) (l : ReqLeaf) (r : GrateResult) (s : State) : State :=
  let s := if r.step ≥ 1 ∨ ceIter s < r.iter then ceEvent s l.pos r.step r.iter r.corrected else s
  if q.purpose = .scrub ∧ r.step = 0 ∧ r.iter ≤ ceIter s then ceClear s l.pos else s

/-- The logs and counts of correctable errors alone differ, and the count grows exactly for an event. -/
theorem judgedEvents_frame (q : Request) (l : ReqLeaf) (r : GrateResult) (s : State) :
    ∃ log, judgedEvents q l r s = { s with
      grt.ceLog := log,
      grt.ceCnt := if r.step ≥ 1 ∨ ceIter s < r.iter then vmod s.grt.ceCnt (actOf l.pos.surface) satInc else s.grt.ceCnt } := by
  unfold judgedEvents
  by_cases h : r.step ≥ 1 ∨ ceIter s < r.iter
  · simp only [if_pos h]
    split <;> exact ⟨_, rfl⟩
  · simp only [if_neg h]
    split <;> exact ⟨_, rfl⟩

theorem judgedEvents_reqs (q : Request) (l : ReqLeaf) (r : GrateResult) (s : State) : (judgedEvents q l r s).reqs = s.reqs := by
  obtain ⟨log, h⟩ := judgedEvents_frame q l r s
  rw [h]

theorem hobJudge_dead {s : State} {r : GrateResult} (h : r.cw.dead = true) : hobJudge s r = s := by
  unfold hobJudge
  split
  · exact if_pos (.inl h)
  · rfl

section
variable {s : State} {r : GrateResult} {q : Request} {l : ReqLeaf} (hq : reqBy s r.req = some q)
  (hl : leafBy s r.req r.leafIdx = some l) (hd : r.cw.dead = false) (hs : leafSettled l = false) (hp : l.phase ≠ .rebuilding)
include hq hl hd hs hp

/-- A codeword that has not converged takes its leaf up the ladder. -/
theorem hobJudge_failed (h0 : r.status ≠ 0) :
    hobJudge s r = ladderFail (judged s r l none) r.req r.leafIdx r.step (r.status = 2) := by
  simp only [hobJudge, hq, hl, hd, hs, hp, h0, judged]
  simp

/-- A converged codeword whose leaf fails the checks: no grate is touched, and the miscorrection is counted unless the frame
was read without its header (R95, R120). -/
theorem hobJudge_failsChecks (h0 : r.status = 0) (hf : resultPasses l r = false) :
    OnlyLadder { s with grt.miscor := if r.cw.unsure then s.grt.miscor else satInc s.grt.miscor } (hobJudge s r) := by
  unfold resultPasses at hf
  simp only [hobJudge, hq, hl, hd, hs, hp, h0, hf]
  cases r.cw.unsure with
  | true => exact (ladderFail_onlyLadder _ _ _ _ _).after rfl
  | false =>
    simp
    split
    · exact (ladderStep4_onlyLadder _ _ _ _).after rfl
    · exact (ladderFail_onlyLadder _ _ _ _ _).after rfl

/-- A converged codeword whose leaf passes the checks: the leaf is done with its data, once its event is counted. -/
theorem hobJudge_passes (h0 : r.status = 0) (hf : resultPasses l r = true) :
    hobJudge s r = leafDone (judgedEvents q l r (judged s r l (some (leafOfBytes r.info)))) r.req r.leafIdx
      (some (leafOfBytes r.info)) r.corrected r.step := by
  unfold resultPasses at hf
  simp only [hobJudge, hq, hl, hd, hs, hp, h0, hf]
  rfl

end

end Sys2Proof.Machine
end

section
/-! PROOF. The fail-stop, grates by number, and a grate declared faulty. -/
namespace Sys2Proof.Machine
open Sys2Proof

/-! ## The fail-stop leaves the grates as they are and class 3 declared -/

/-- The grates and the declaration of class 3 are as they were. -/
def SameGratesAndClass3 (s t : State) : Prop := t.grt = s.grt ∧ t.flt.class3 = s.flt.class3

namespace SameGratesAndClass3

theorem trans {s t u : State} (h : SameGratesAndClass3 s t) (k : SameGratesAndClass3 t u) : SameGratesAndClass3 s u :=
  ⟨k.1.trans h.1, k.2.trans h.2⟩

theorem of_service {s t : State} (h : OnlyService s t) : SameGratesAndClass3 s t := by
  rw [h]
  exact ⟨rfl, rfl⟩

end SameGratesAndClass3

theorem patchStop_frame (s : State) : ∃ q n, patchStop s = { s with seq := q, freeCtr := n } := by
  unfold patchStop
  split
  · split
    · exact ⟨s.seq, s.freeCtr, rfl⟩
    · exact ⟨_, _, rfl⟩
  · exact ⟨s.seq, s.freeCtr, rfl⟩

theorem bankRecord_onlyService (s : State) (c : BankCause) : OnlyService s (bankRecord s c) := by
  cases c <;> exact ashRecord_onlyService _ _ _ _ _

theorem bankToMram_onlyService (s : State) : OnlyService s (bankToMram s) :=
  .foldl (fun s g => (rfl : OnlyService s (mramGroup s g))) _ _

theorem bankToRings_onlyService (s : State) : OnlyService s (bankToRings s) := by
  unfold bankToRings
  extract_lets s1 ember
  have h0 : OnlyService s (buffersBack s fun j => j.leaf.kind = .ember) := rfl
  have h1 : OnlyService s s1 := h0.trans (.foldl (fun s (l : StagedLeaf) =>
    (OnlyService.of_store (formLeaf_onlyStore s l.uid)).trans
      ((emberCopy_onlyService _ l.uid).trans (emberCopy_onlyService _ l.uid))) _ _)
  exact h1.trans rfl

theorem bankStart_keeps (s : State) (c : BankCause) : SameGratesAndClass3 s (bankStart s c) := by
  unfold bankStart
  split
  · split <;> exact ⟨rfl, rfl⟩
  · obtain ⟨q, n, h⟩ := patchStop_frame s
    extract_lets dest s1 _ _ _ _ s2 s3
    have h2 : SameGratesAndClass3 s s2 := by
      unfold s2 s1
      rw [h]
      exact ⟨rfl, rfl⟩
    have h3 : SameGratesAndClass3 s2 s3 := by
      obtain ⟨q, hq⟩ := trapAll_frame s2 .banking
      refine .of_service (.trans ?_ (bankRecord_onlyService _ c))
      rw [hq]
      rfl
    refine (h2.trans h3).trans (.of_service ?_)
    clear_value dest
    cases dest
    · exact bankToRings_onlyService _
    · exact bankToMram_onlyService _

theorem spindleHalt_keeps (s : State) : SameGratesAndClass3 s (spindleHalt s) := by
  obtain ⟨p, h⟩ := spindleHalt_frame s
  rw [h]
  exact ⟨rfl, rfl⟩

theorem failStopPark_keeps (s : State) : SameGratesAndClass3 s (failStopPark s) := by
  obtain ⟨l, w, f, q, h⟩ := retractAll_frame s
  refine .trans (t := { retractAll s with flt.bankLimitDone := true }) ?_ (spindleHalt_keeps _)
  rw [h]
  exact ⟨rfl, rfl⟩

theorem failStopAgain_keeps (s : State) (c : BitVec 3) (e : Element) : SameGratesAndClass3 s (failStopAgain s c e) := by
  unfold failStopAgain
  split
  · exact ⟨rfl, rfl⟩
  · extract_lets _ s1
    have h1 : SameGratesAndClass3 s s1 :=
      .trans (t := { s with flt.held := e :: s.flt.held }) ⟨rfl, rfl⟩ (.of_service (ashRecord_onlyService _ _ _ _ _))
    split
    · exact h1.trans (failStopPark_keeps _)
    · split
      · exact h1.trans (spindleHalt_keeps _)
      · exact h1

/-- A class 3 fault is declared, and no grate changes (R493). -/
theorem failStop_declares (s : State) (c : BitVec 3) (e : Element) :
    (failStop s c e).grt = s.grt ∧ (failStop s c e).flt.class3 = true := by
  unfold failStop
  split
  · next h =>
    obtain ⟨hg, hc⟩ := failStopAgain_keeps s c e
    exact ⟨hg, hc.trans h⟩
  · extract_lets _ _ s1 s2
    have h2 : SameGratesAndClass3 s1 s2 := .of_service (ashRecord_onlyService _ _ _ _ _)
    obtain ⟨hg, hc⟩ := h2.trans (bankStart_keeps s2 .failStop)
    exact ⟨hg, hc⟩

/-! ## Grates by number -/

theorem grateAt_onGrate_same (s : State) (g : Fin 14) (f : Grate → Grate) : grateAt (onGrate s g f) g = f (grateAt s g) :=
  vget_vmod_same _ g.isLt f _

theorem grateAt_onGrate_other (s : State) {g h : Nat} (ne : h ≠ g) (f : Grate → Grate) : grateAt (onGrate s g f) h = grateAt s h :=
  vget_vmod_other _ ne f _

theorem grateAt_onGrate_ne (s : State) {g h : Fin 14} (ne : h ≠ g) (f : Grate → Grate) :
    grateAt (onGrate s g f) h = grateAt s h :=
  grateAt_onGrate_other s (fun e => ne (Fin.ext e)) f

theorem grateAt_congr {s t : State} (h : t.grt.grate = s.grt.grate) (g : Nat) : grateAt t g = grateAt s g := by
  unfold grateAt
  rw [h]

theorem map_vmod {α β : Type} {n : Nat} (v : Vector α n) (i : Nat) {f : α → α} {p : α → β} (h : ∀ x, p (f x) = p x) :
    (vmod v i f).map p = v.map p := by
  ext j hj
  unfold vmod
  split
  · simp only [Vector.getElem_map, Vector.getElem_set]
    split
    · next h' => subst h'; exact h _
    · rfl
  · rfl

/-- A change that takes no grate into or out of service leaves their number. -/
theorem gratesIn_onGrate (s : State) (g : Nat) {f : Grate → Grate} (h : ∀ x, (f x).inService = x.inService) :
    gratesIn (onGrate s g f) = gratesIn s := by
  have key : ∀ u : State, gratesIn u = ((u.grt.grate.map (·.inService)).toList.filter id).length := by
    intro u
    rw [Vector.toList_map, List.filter_map, List.length_map]
    rfl
  rw [key, key]
  exact congrArg (fun v => (v.toList.filter id).length) (map_vmod s.grt.grate g h)

/-! ## A grate declared faulty (R126, R127) -/

/-- A spare that fails its test is marked, leaves the budget and is recorded. -/
theorem grateFault_spare {s : State} {g : Nat} (hf : (grateAt s g).failed = false) (hi : (grateAt s g).inService = false) :
    grateFault s g =
      fault1 { onGrate s g (fun x => { x with failed := true }) with str.gratesLeft := s.str.gratesLeft - 1 } (.grate g) 0x24 [2, g] := by
  simp [grateFault, hf, hi]

/-- The last grate in service stays there: its fault is class 3. -/
theorem grateFault_last {s : State} {g : Nat} (hf : (grateAt s g).failed = false) (hi : (grateAt s g).inService = true)
    (h1 : gratesIn s = 1) : grateFault s g = failStop s 5 (.grate g) := by
  simp [grateFault, hf, hi, h1]

/-- The codewords that a grate gives back: one finished but held back, the one it works on, the one in its input buffer. -/
def givenBack (x : Grate) : List Codeword :=
  ((x.heldBack.toList.map (·.cw)) ++ x.working.toList ++ x.inputBuf.toList).filter fun c => !c.dead

/-- A faulty grate leaves service, keeps the results it has posted and gives its codewords back to the head of the queue. -/
theorem grateFault_retires {s : State} {g : Fin 14} (hf : (grateAt s g).failed = false) (hi : (grateAt s g).inService = true)
    (h1 : gratesIn s ≠ 1) :
    grateAt (grateFault s g) g =
      { grateAt s g with inService := false, failed := true, working := none, inputBuf := none, heldBack := none } ∧
      (grateFault s g).grt.queue = givenBack (grateAt s g) ++ s.grt.queue := by
  unfold grateFault
  extract_lets x _ _ _ s1 s2
  rw [if_neg (by simp [x, hf]), if_neg (by simp [x, hi]), if_neg h1]
  have hx : grateAt s2 g =
      { x with inService := false, failed := true, working := none, inputBuf := none, heldBack := none } :=
    grateAt_onGrate_same s1 g _
  split
  · next i hi =>
    have ne : g.val ≠ i := by
      rintro rfl
      have := List.find?_some hi
      simp [hx] at this
    have hu := (spareUsed_onlyService { onGrate s2 i (fun x => { x with inService := true, sinceKat := 0 }) with
      str.gratesLeft := s2.str.gratesLeft - 1 } (.grate g) (.grate i)).grt
    refine ⟨?_, congrArg GrtS.queue hu⟩
    rw [grateAt_congr (congrArg GrtS.grate hu)]
    exact (grateAt_onGrate_other s2 ne _).trans hx
  · have hu := (budgetSpent_onlyService s2 (.grate g)).grt
    exact ⟨(grateAt_congr (congrArg GrtS.grate hu) g).trans hx, congrArg GrtS.queue hu⟩

end Sys2Proof.Machine
end

section
/-! PROOF. The commands of the grates and the collector. -/
namespace Sys2Proof.Machine
open Sys2Proof

/-! ## Taking and finishing a codeword (R32, R119) -/

theorem grateTakeCodeword_idle {s : State} {g : Fin 14} (h : (grateAt s g).inService = false ∨ gratesPaused s = true) :
    grateTakeCodeword s g = s := by
  unfold grateTakeCodeword
  refine if_pos ?_
  rcases h with h | h
  · exact .inl (by simp [h])
  · exact .inr (.inl h)

section
variable {s : State} {g : Fin 14} (hi : (grateAt s g).inService = true) (hp : gratesPaused s = false)
  (hh : (grateAt s g).heldBack = none) (hb : (grateAt s g).inputBuf = none)
include hi hp hh hb

theorem grateTakeCodeword_none (h : nextCodeword s = none) : grateTakeCodeword s g = s := by
  simp [grateTakeCodeword, hi, hp, hh, hb, h]

/-- The codeword taken leaves the queue, and the grate works on it or keeps it in its input buffer. -/
theorem grateTakeCodeword_some {i : Nat} {c : Codeword} (h : nextCodeword s = some (i, c)) :
    grateTakeCodeword s g = onGrate { s with grt.queue := s.grt.queue.eraseIdx i } g
      fun x => if x.working.isNone then { x with working := some c } else { x with inputBuf := some c } := by
  simp [grateTakeCodeword, hi, hp, hh, hb, h]

end

/-- The result record of a decode of a codeword on a grate. -/
def decodeResult (s : State) (g : Fin 14) (c : Codeword) : GrateResult :=
  let d := decodeSoft c.strength c.step (stepLimit s c.step c.scrub) c.soft
  ⟨c.req, c.leafIdx, g, d.status, d.iter, c.step, d.corrected, d.erased, d.info, c⟩

/-- A grate at the end of a decode, before its result is posted. -/
def decodeEnd (x : Grate) : Grate := { x with working := none, sinceKat := x.sinceKat + 1 }

section
variable {s : State} {g : Fin 14} {bad : Bool} {c : Codeword} (hw : (grateAt s g).working = some c)
  (hh : (grateAt s g).heldBack = none)
include hw hh

/-- A decode that the syndrome checker does not contradict is counted, and its result posted. -/
theorem grateDecodeDone_posts (h : (decodeResult s g c).status ≠ 0 ∨ bad = false) :
    grateAt (grateDecodeDone s g bad) g = grateGoOn (postResult (decodeEnd (grateAt s g)) (decodeResult s g c)) ∧
      grateDecodeDone s g bad = { s with grt := (grateDecodeDone s g bad).grt } := by
  have hn : ¬((decodeSoft c.strength c.step (stepLimit s c.step c.scrub) c.soft).status = 0 ∧ bad = true) := by
    rintro ⟨h0, hb⟩
    rcases h with h | h
    · exact h h0
    · simp [h] at hb
  have e : ∃ busy, grateDecodeDone s g bad = onGrate { s with grt.busy := busy } g
      fun x => grateGoOn (postResult (decodeEnd x) (decodeResult s g c)) := by
    simp only [grateDecodeDone, hw, hh]
    exact ⟨_, if_neg hn⟩
  obtain ⟨busy, e⟩ := e
  rw [e]
  exact ⟨grateAt_onGrate_same _ g _, rfl⟩

/-- A converged codeword with a syndrome that is not zero: the grate is faulty (R126). -/
theorem grateDecodeDone_faulty (h : (decodeResult s g c).status = 0) (hb : bad = true) : grateDecodeDone s g bad = grateFault s g := by
  simp only [grateDecodeDone, hw, hh]
  exact if_pos ⟨h, hb⟩

end

/-- With room in its slot a grate posts its result and goes on with the codeword in its input buffer. -/
theorem grateGoOn_post_room {x : Grate} (r : GrateResult) (hh : x.heldBack = none) (h : x.slot.length < 2) :
    grateGoOn (postResult (decodeEnd x) r) =
      { x with slot := x.slot ++ [r], working := x.inputBuf, inputBuf := none, sinceKat := x.sinceKat + 1 } := by
  simp [grateGoOn, postResult, decodeEnd, h, hh]

/-- With its slot full a grate holds its result back and waits (R119). -/
theorem grateGoOn_post_full {x : Grate} (r : GrateResult) (h : 2 ≤ x.slot.length) :
    grateGoOn (postResult (decodeEnd x) r) = { decodeEnd x with heldBack := some r } := by
  simp [grateGoOn, postResult, decodeEnd, Nat.not_lt.mpr h]

/-! ## The collector (R118, R120) -/

/-- The state once the collector has taken the older result of a grate's slot, the grate posting what it held back. -/
def servedFrom (s : State) (g : Nat) (rest : List GrateResult) : State :=
  { onGrate s g (fun x =>
      let x := { x with slot := rest }
      match x.heldBack with
      | some h => grateGoOn (postResult { x with heldBack := none } h)
      | none => x) with grt.last := g }

theorem nextServed_lt {s : State} {g : Nat} (h : nextServed s = some g) : g < 14 := by
  obtain ⟨i, -, rfl⟩ := List.mem_map.mp (List.mem_of_find?_eq_some h)
  exact Nat.mod_lt _ (by decide)

theorem grateGoOn_slot (x : Grate) : (grateGoOn x).slot = x.slot := by
  unfold grateGoOn
  split <;> rfl

theorem servedFrom_slot {s : State} {g : Nat} (hg : g < 14) {rest : List GrateResult} (hr : rest.length < 2) :
    (grateAt (servedFrom s g rest) g).slot = rest ++ (grateAt s g).heldBack.toList := by
  rw [show grateAt (servedFrom s g rest) g = _ from grateAt_onGrate_same s ⟨g, hg⟩ _]
  dsimp only
  split
  · next h e =>
    rw [grateGoOn_slot, postResult, if_pos hr, e]
    rfl
  · next e =>
    rw [e]
    simp

theorem collectorServe_none {s : State} (h : nextServed s = none) : collectorServe s = s := by
  unfold collectorServe
  rw [h]

theorem collectorServe_some {s : State} {g : Nat} {r : GrateResult} {rest : List GrateResult} (h : nextServed s = some g)
    (hs : (grateAt s g).slot = r :: rest) :
    collectorServe s = rebuildDue (laneJudge (hobJudge (servedFrom s g rest) r) r.cw.act) := by
  unfold collectorServe
  rw [h]
  dsimp only
  rw [hs]
  rfl

/-- What follows the judgement of a leaf touches no grate. -/
theorem collectorServe_grt {s : State} {g : Nat} {r : GrateResult} {rest : List GrateResult} (h : nextServed s = some g)
    (hs : (grateAt s g).slot = r :: rest) : (collectorServe s).grt = (hobJudge (servedFrom s g rest) r).grt := by
  rw [collectorServe_some h hs, rebuildDue_grt]
  exact (laneJudge_onlyService _ _).grt

section
variable {s : State} {r : GrateResult} {q : Request} {l : ReqLeaf} (hq : reqBy s r.req = some q)
  (hl : leafBy s r.req r.leafIdx = some l) (hs : leafSettled l = false) (hp : l.phase ≠ .rebuilding)
include hq hl hs hp

/-- The judgement of a leaf leaves the grates and the one last served as they are. -/
theorem hobJudge_grates : (hobJudge s r).grt.grate = s.grt.grate ∧ (hobJudge s r).grt.last = s.grt.last := by
  cases hd : r.cw.dead with
  | true => rw [hobJudge_dead hd]; exact ⟨rfl, rfl⟩
  | false =>
    by_cases h0 : r.status = 0
    · cases hf : resultPasses l r with
      | true =>
        rw [hobJudge_passes hq hl hd hs hp h0 hf, leafDone_grt]
        obtain ⟨log, h⟩ := judgedEvents_frame q l r (judged s r l (some (leafOfBytes r.info)))
        rw [h]
        exact ⟨rfl, rfl⟩
      | false =>
        have h := hobJudge_failsChecks hq hl hd hs hp h0 hf
        exact ⟨h.grate, h.last⟩
    · rw [hobJudge_failed hq hl hd hs hp h0]
      have h := (ladderFail_onlyLadder (judged s r l none) r.req r.leafIdx r.step (r.status = 2)).after (judged_grt s r l none)
      exact ⟨h.grate, h.last⟩

/-- A leaf that passes the checks is ready with its data, and no leaf of its request and number waits. -/
theorem hobJudge_passes_ready (hd : r.cw.dead = false) (hn : q.purpose ≠ .source) (h0 : r.status = 0) (hf : resultPasses l r = true) :
    (∃ x, leafBy (hobJudge s r) r.req r.leafIdx = some x ∧ x.phase = .ready ∧ x.data = some (leafOfBytes r.info)) ∧
      ∀ p ∈ (hobJudge s r).reqs, p.id = r.req → ∀ y ∈ p.leaves, y.idx = r.leafIdx → y.phase = .ready := by
  have he := judgedEvents_reqs q l r (judged s r l (some (leafOfBytes r.info)))
  obtain ⟨p, hp', hpp⟩ := reqBy_judged hq l (some (leafOfBytes r.info))
  obtain ⟨y, hy, -⟩ := leafBy_judged hl l (some (leafOfBytes r.info))
  rw [← reqBy_congr he] at hp'
  rw [← leafBy_congr he] at hy
  rw [hobJudge_passes hq hl hd hs hp h0 hf, leafDone_eq_settleLeaf hp' hy (hpp ▸ hn)]
  exact ⟨⟨_, leafBy_settleLeaf_same hy _, rfl, rfl⟩, settleLeaf_not_waiting hy _⟩

/-- The count of correctable errors grows exactly for an event (R128). -/
theorem hobJudge_passes_ceCnt (hd : r.cw.dead = false) (h0 : r.status = 0) (hf : resultPasses l r = true) :
    (hobJudge s r).grt.ceCnt =
      if 1 ≤ r.step ∨ ceIter s < r.iter then vmod s.grt.ceCnt (actOf l.pos.surface) satInc else s.grt.ceCnt := by
  obtain ⟨log, h⟩ := judgedEvents_frame q l r (judged s r l (some (leafOfBytes r.info)))
  rw [hobJudge_passes hq hl hd hs hp h0 hf, leafDone_grt, h]
  rfl

/-- A leaf at its iteration limit at step 0 is queued at step 1 and counted. -/
theorem hobJudge_limit (hd : r.cw.dead = false) (h1 : r.status = 1) (h0 : r.step = 0) :
    ∃ c, (hobJudge s r).grt = { s.grt with queue := s.grt.queue ++ [c], enter1 := satInc s.grt.enter1 } ∧
      c.step = 1 ∧ c.req = r.req ∧ c.leafIdx = r.leafIdx ∧ c.pos = l.pos := by
  obtain ⟨p, hp', -⟩ := reqBy_judged hq l none
  obtain ⟨y, hy, hpos⟩ := leafBy_judged hl l none
  rw [hobJudge_failed hq hl hd hs hp (by simp [h1]), h0, h1, ← hpos]
  exact ladderFail_step0_grt hp' hy

end

/-! ## Known-answer tests (R126) -/

theorem grateKatDue_idle {s : State} {g : Fin 14} (h : (grateAt s g).inService = false ∨ (grateAt s g).sinceKat < 65536)
    (pass : Bool) : grateKatDue s g pass = s := by
  unfold grateKatDue
  exact if_pos (h.imp (by simp) id)

theorem grateKatDue_passes {s : State} {g : Fin 14} (hi : (grateAt s g).inService = true) (h : 65536 ≤ (grateAt s g).sinceKat) :
    grateKatDue s g true = onGrate s g fun x => { x with sinceKat := 0 } := by
  unfold grateKatDue
  exact if_neg (by simp [hi, h])

/-- An in-service grate that fails its test leaves service, unless it is the last: then class 3 is declared. -/
theorem grateKatDue_fails {s : State} {g : Fin 14} (hi : (grateAt s g).inService = true) (h : 65536 ≤ (grateAt s g).sinceKat)
    (hf : (grateAt s g).failed = false) :
    let t := grateKatDue s g false
    (gratesIn s ≠ 1 → (grateAt t g).inService = false ∧ (grateAt t g).failed = true) ∧
      (gratesIn s = 1 → t.flt.class3 = true ∧ (grateAt t g).inService = true) := by
  have hn : gratesIn (onGrate s g fun x => { x with sinceKat := 0 }) = gratesIn s := gratesIn_onGrate s g fun _ => rfl
  have e : grateKatDue s g false = grateFault (onGrate s g fun x => { x with sinceKat := 0 }) g := by
    unfold grateKatDue
    exact if_neg (by simp [hi, h])
  rw [e, ← hn]
  generalize hu : (onGrate s g fun x => { x with sinceKat := 0 }) = u
  have hx : grateAt u g = { grateAt s g with sinceKat := 0 } := hu ▸ grateAt_onGrate_same s g _
  have hui : (grateAt u g).inService = true := by rw [hx]; exact hi
  have huf : (grateAt u g).failed = false := by rw [hx]; exact hf
  refine ⟨fun h1 => ?_, fun h1 => ?_⟩
  · rw [(grateFault_retires huf hui h1).1]
    exact ⟨rfl, rfl⟩
  · obtain ⟨hg, hc⟩ := failStop_declares u 5 (.grate g)
    rw [grateFault_last huf hui h1, grateAt_congr (congrArg GrtS.grate hg)]
    exact ⟨hc, hui⟩

theorem spareGrateKat_idle {s : State} {g : Fin 14} {pass : Bool}
    (h : (grateAt s g).inService = true ∨ (grateAt s g).failed = true ∨ pass = true) : spareGrateKat s g pass = s := by
  unfold spareGrateKat
  exact if_pos h

/-- A spare that fails its test: the grate is marked, the budget and the count of class 1 faults change, no other grate does. -/
theorem spareGrateKat_fails {s : State} {g : Fin 14} (hi : (grateAt s g).inService = false) (hf : (grateAt s g).failed = false) :
    let t := spareGrateKat s g false
    grateAt t g = { grateAt s g with failed := true } ∧ t.str.gratesLeft = s.str.gratesLeft - 1 ∧
      t.flt.cnt1 = satInc s.flt.cnt1 ∧ ∀ h : Fin 14, h ≠ g → grateAt t h = grateAt s h := by
  have e : spareGrateKat s g false = grateFault s g := by
    unfold spareGrateKat
    exact if_neg (by simp [hi, hf])
  intro t
  obtain ⟨w, a, r, n, f, k⟩ := fault1_frame { onGrate s g (fun x => { x with failed := true }) with
    str.gratesLeft := s.str.gratesLeft - 1 } (.grate g) 0x24 [2, g] (.class1 (.grate g))
  have ht : t = _ := (e.trans (grateFault_spare hf hi)).trans k
  rw [ht]
  exact ⟨grateAt_onGrate_same s g _, rfl, rfl, fun h ne => grateAt_onGrate_ne s ne _⟩

end Sys2Proof.Machine
end

section
/-! PROOF. The statement about the grates and the collector. -/
namespace Sys2Proof.Machine
open Sys2Proof

/-! ## The statement about grates and the collector -/

/-- A leaf that passes the checks is still ready with its data once lanes are judged and reconstructions begun. -/
theorem collectorServe_passes_ready {s : State} {g : Nat} {r : GrateResult} {rest : List GrateResult} {q : Request} {l : ReqLeaf}
    (h : nextServed s = some g) (hr : (grateAt s g).slot = r :: rest) (hq : reqBy s r.req = some q)
    (hl : leafBy s r.req r.leafIdx = some l) (hs : leafSettled l = false) (hp : l.phase ≠ .rebuilding) (hn : q.purpose ≠ .source)
    (hd : r.cw.dead = false) (h0 : r.status = 0) (hf : resultPasses l r = true) :
    (leafBy (collectorServe s) r.req r.leafIdx).map (fun x => (x.phase, x.data)) = some (.ready, some (leafOfBytes r.info)) := by
  obtain ⟨⟨x, hx, hph, hdata⟩, hall⟩ := hobJudge_passes_ready (s := servedFrom s g rest) hq hl hs hp hd hn h0 hf
  have hreqs := (laneJudge_onlyService (hobJudge (servedFrom s g rest) r) r.cw.act).reqs
  rw [← hreqs] at hall
  rw [collectorServe_some h hr, leafBy_rebuildDue_ready ((leafBy_congr hreqs _ _).trans hx) hph hall, Option.map_some, hph, hdata]

/-- What COLLECTOR_SERVE leaves of the grates' state, for each outcome of the decode it serves. -/
theorem collectorServe_outcomes {s : State} {g : Nat} {r : GrateResult} {rest : List GrateResult} {q : Request} {l : ReqLeaf}
    (h : nextServed s = some g) (hr : (grateAt s g).slot = r :: rest) (hq : reqBy s r.req = some q)
    (hl : leafBy s r.req r.leafIdx = some l) (hs : leafSettled l = false) (hp : l.phase ≠ .rebuilding) (hsf : l.pos.surface < 32) :
    (r.cw.dead = true → (collectorServe s).grt.miscor = s.grt.miscor ∧ (collectorServe s).grt.enter1 = s.grt.enter1 ∧
      (collectorServe s).grt.queue = s.grt.queue) ∧
    (r.cw.dead = false → r.status = 0 → resultPasses l r = true →
      vget (collectorServe s).grt.ceCnt (actOf l.pos.surface) 0 =
        if 1 ≤ r.step ∨ ceIter s < r.iter then satInc (vget s.grt.ceCnt (actOf l.pos.surface) 0)
        else vget s.grt.ceCnt (actOf l.pos.surface) 0) ∧
    (r.cw.dead = false → r.status = 0 → resultPasses l r = false →
      (collectorServe s).grt.miscor = if r.cw.unsure then s.grt.miscor else satInc s.grt.miscor) ∧
    (r.cw.dead = false → r.status = 1 → r.step = 0 → (collectorServe s).grt.enter1 = satInc s.grt.enter1 ∧
      ∃ c, (collectorServe s).grt.queue = s.grt.queue ++ [c] ∧ c.step = 1 ∧ c.req = r.req ∧ c.leafIdx = r.leafIdx ∧ c.pos = l.pos) := by
  have hact : actOf l.pos.surface < 4 := Nat.div_lt_of_lt_mul hsf
  rw [collectorServe_grt h hr]
  refine ⟨fun hd => ?_, fun hd h0 hf => ?_, fun hd h0 hf => ?_, fun hd h1 h0 => ?_⟩
  · rw [hobJudge_dead hd]
    exact ⟨rfl, rfl, rfl⟩
  · rw [hobJudge_passes_ceCnt (s := servedFrom s g rest) hq hl hs hp hd h0 hf, apply_ite (vget · (actOf l.pos.surface) 0),
      vget_vmod_same _ hact]
    rfl
  · exact (hobJudge_failsChecks (s := servedFrom s g rest) hq hl hd hs hp h0 hf).miscor
  · obtain ⟨c, hc, hcs⟩ := hobJudge_limit (s := servedFrom s g rest) hq hl hs hp hd h1 h0
    rw [hc]
    exact ⟨rfl, c, rfl, hcs⟩

/-- Settles O52: each command's equations give its clause; of the collector's, that what follows the judgement of a leaf
touches neither the grates nor a leaf that is ready. -/
theorem gratesAndCollector : Obligations.GratesAndCollector := by
  unfold Obligations.GratesAndCollector
  refine ⟨?_, ?_, ?_, ?_, ?_, ?_, ?_⟩
  · intro s g hi hp hh hb
    refine ⟨fun hn => congrArg Host.Outcome.next (grateTakeCodeword_none hi hp hh hb hn), fun i c hc => ⟨_, rfl, ?_⟩⟩
    rw [grateTakeCodeword_some hi hp hh hb hc]
    refine ⟨rfl, ?_, fun h ne => grateAt_onGrate_ne _ ne _, rfl⟩
    rw [grateAt_onGrate_same]
    simp only [Option.isNone_iff_eq_none]
    rfl
  · exact fun s g h => congrArg Host.Outcome.next (grateTakeCodeword_idle h)
  · intro s g bad c hw hh
    refine ⟨_, rfl, fun h => ?_, fun h0 hb hi hf h1 => ?_⟩
    · obtain ⟨hx, ht⟩ := grateDecodeDone_posts hw hh h
      rcases Nat.lt_or_ge (grateAt s g).slot.length 2 with hl | hl
      · rw [grateGoOn_post_room (decodeResult s g c) hh hl] at hx
        rw [hx]
        exact ⟨rfl, ht, fun _ => ⟨rfl, hh, rfl, rfl⟩, fun h2 => absurd h2 (Nat.not_le.mpr hl)⟩
      · rw [grateGoOn_post_full (decodeResult s g c) hl] at hx
        rw [hx]
        exact ⟨rfl, ht, fun h2 => absurd hl (Nat.not_le.mpr h2), fun _ => ⟨rfl, rfl, rfl, rfl⟩⟩
    · obtain ⟨hx, hq⟩ := grateFault_retires hf hi h1
      rw [grateDecodeDone_faulty hw hh h0 hb, hx, hq, givenBack, hw, hh]
      exact ⟨rfl, rfl, rfl, rfl⟩
  · exact fun s h => congrArg Host.Outcome.next (collectorServe_none h)
  · intro s g r rest q l h hr hlen hq hl hs hp hn hsf
    have hgr := hobJudge_grates (s := servedFrom s g rest) hq hl hs hp
    obtain ⟨hdead, hce, hmis, hlim⟩ := collectorServe_outcomes h hr hq hl hs hp hsf
    refine ⟨_, rfl, ?_, ?_, hdead, fun hd h0 hf => ⟨?_, hce hd h0 hf⟩, hmis, hlim⟩
    · exact congrArg GrtS.last (collectorServe_grt h hr) |>.trans hgr.2
    · rw [← servedFrom_slot (nextServed_lt h) hlen]
      exact congrArg Grate.slot (grateAt_congr ((congrArg GrtS.grate (collectorServe_grt h hr)).trans hgr.1) g)
    · exact collectorServe_passes_ready h hr hq hl hs hp hn hd h0 hf
  · intro s g pass
    refine ⟨_, rfl, fun h => grateKatDue_idle h pass, fun hi hk => ?_⟩
    refine ⟨?_, ?_, ?_⟩
    · rintro rfl
      rw [grateKatDue_passes hi hk]
      exact ⟨grateAt_onGrate_same s g _, fun h ne => grateAt_onGrate_ne s ne _, rfl⟩
    · rintro rfl hf
      exact (grateKatDue_fails hi hk hf).1
    · rintro rfl hf
      exact (grateKatDue_fails hi hk hf).2
  · intro s g pass
    refine ⟨_, rfl, spareGrateKat_idle, fun hi hf hp => ?_⟩
    subst hp
    exact spareGrateKat_fails hi hf

end Sys2Proof.Machine
end

section
/-! PROOF. The draft, banking and starting. -/
namespace Sys2Proof.Machine
open Sys2Proof

/-! ## The draft, its terms and the voltage cap stand while the spindle changes its target or banks -/

/-- The clock with the draft, its terms and the voltage cap: what a change of the spindle's target or state leaves alone. -/
def draftView (s : State) : Nat × SpnS :=
  (s.time, { draft := s.spn.draft, lastDraft := s.spn.lastDraft, draftQ := s.spn.draftQ, draftB := s.spn.draftB,
             draftG := s.spn.draftG, vcap := s.spn.vcap, vmot := s.spn.vmot, capBlock := s.spn.capBlock })

theorem draftView_eq_iff (s t : State) : draftView t = draftView s ↔
    t.time = s.time ∧ t.spn.draft = s.spn.draft ∧ t.spn.lastDraft = s.spn.lastDraft ∧ t.spn.draftQ = s.spn.draftQ ∧
      t.spn.draftB = s.spn.draftB ∧ t.spn.draftG = s.spn.draftG ∧ t.spn.vcap = s.spn.vcap ∧ t.spn.vmot = s.spn.vmot ∧
      t.spn.capBlock = s.spn.capBlock := by
  simp only [draftView, Prod.mk.injEq, SpnS.mk.injEq, true_and, and_true]
  tauto

theorem OnlyStore.spn {s t : State} (h : OnlyStore s t) : t.spn = s.spn := by rw [h]
theorem OnlyStore.time {s t : State} (h : OnlyStore s t) : t.time = s.time := by rw [h]

theorem writeHome_draftView (s : State) : draftView (writeHome s) = draftView s := by
  unfold draftView
  rw [(writeHome_onlyStore s).spn, (writeHome_onlyStore s).time]

/-- A pending change signalled is noted by the spindle and the ACT islands, and changes nothing else (R198, step 2). -/
theorem signalChange_frame (s : State) : ∃ b w, signalChange s = { s with spn.signalled := b, wrt.act := w } := by
  unfold signalChange
  split
  · split
    · exact ⟨_, _, rfl⟩
    · exact ⟨_, _, rfl⟩
  · exact ⟨_, _, rfl⟩

theorem signalChange_draftView (s : State) : draftView (signalChange s) = draftView s := by
  obtain ⟨b, w, h⟩ := signalChange_frame s
  rw [h]
  rfl

theorem unloadAll_spn (s : State) (why : Nat) : (unloadAll s why).spn = s.spn := by
  obtain ⟨l, h⟩ := unloadAll_frame s why
  rw [h]

theorem unloadAll_time (s : State) (why : Nat) : (unloadAll s why).time = s.time := by
  obtain ⟨l, h⟩ := unloadAll_frame s why
  rw [h]

theorem spindleHalt_draftView (s : State) : draftView (spindleHalt s) = draftView s := by
  unfold spindleHalt
  split <;> rfl

theorem spnStart_draftView (s : State) : draftView (spnStart s) = draftView s := by
  unfold spnStart
  split <;> rfl

theorem bankProgress_draftView (s : State) : draftView (bankProgress s) = draftView s := by
  unfold bankProgress
  split
  · rfl
  · rfl
  · split
    · unfold draftView
      rw [unloadAll_spn, unloadAll_time]
    · rfl
  · split
    · rfl
    · split
      · exact spindleHalt_draftView s
      · split <;> rfl
  · split
    · split <;> rfl
    · split <;> rfl

theorem askTarget_draftView (s : State) (v : Nat) : draftView (askTarget s v) = draftView s := by
  unfold askTarget
  split
  · rfl
  · extract_lets st _ s1
    have h1 : draftView s1 = draftView s := rfl
    refine (signalChange_draftView _).trans (Eq.trans ?_ h1)
    split
    · rfl
    · exact writeHome_draftView s1

theorem spnBank_draftView (s : State) : draftView (spnBank s) = draftView s := by
  unfold spnBank
  split
  · rfl
  · extract_lets _ s1
    have h1 : draftView s1 = draftView s := rfl
    refine (bankProgress_draftView _).trans (Eq.trans ?_ h1)
    split
    · rfl
    · exact writeHome_draftView s1

/-! ## Banking and starting (R212, R217) -/

theorem bankProgress_waitDirty {s : State} (h : s.spn.bank = .waitDirty) :
    (bankProgress s).spn = if dirtyCount s ≤ 128 then { s.spn with bank := .unloading } else s.spn := by
  simp only [bankProgress, h]
  split
  · exact unloadAll_spn _ 1
  · rfl

/-- A spindle that begins to bank waits for its dirty data, or unloads at once when 4 MiB or less is dirty. -/
theorem spnBank_begins {s : State} (hb : s.spn.bank = .none) (hs : s.spn.state ≠ .banked) :
    (spnBank s).spn.bank ≠ .none ∧ (spnBank s).spn.bankTimer = none ∧
      (dirtyCount s ≤ 128 → (spnBank s).spn.bank = .unloading) := by
  unfold spnBank
  rw [if_neg (by simp [hb, hs])]
  extract_lets _ s1
  have hd : dirtyCount s1 = dirtyCount s := rfl
  by_cases h : dirtyCount s ≤ 128
  · rw [hd, if_pos h, bankProgress_waitDirty rfl, hd, if_pos h]
    exact ⟨by simp, rfl, fun _ => rfl⟩
  · have hw : (writeHome s1).spn = s1.spn := (writeHome_onlyStore s1).spn
    rw [hd, if_neg h, bankProgress_waitDirty (congrArg SpnS.bank hw), hw]
    refine ⟨?_, ?_, fun h' => absurd h' h⟩
    · split <;> simp [s1]
    · split <;> rfl

/-- A spindle that may start begins its 20 ms measurement. -/
theorem spnStart_begins {s : State} (h : mayStart s = true) :
    (spnStart s).spn.state = .starting ∧ (spnStart s).spn.mode = .measuring := by
  unfold spnStart
  rw [if_neg (by simp [h])]
  exact ⟨rfl, rfl⟩

/-! ## The draft (R33, R35) -/

/-- Below the draft before it the raw value pulls the draft down, though never under itself; at or above it the draft follows. -/
theorem draftNext_bounds (draft raw : Nat) :
    (draft ≤ raw → draftNext draft raw = raw) ∧ (raw < draft → raw ≤ draftNext draft raw ∧ draftNext draft raw < draft) := by
  refine ⟨fun h => if_pos h, fun h => ?_⟩
  unfold draftNext
  rw [if_neg (Nat.not_le.mpr h)]
  omega

/-- DRAFT_UPDATE: the draft from its terms (R35), then what the spindle does with it, which changes neither. -/
theorem draftUpdate_draftView (s : State) :
    let u := s.at (s.spn.lastDraft + 10000)
    let q := draftQ (tOn u) (mediaWaiters u)
    let d := draftNext s.spn.draft (min 255 (q + draftB u + bgLevel u))
    draftView (draftUpdate s) = draftView { u with
      spn.lastDraft := u.time, spn.draft := if s.pwr.restore then max d (tOn u) else d, spn.draftQ := q,
      spn.draftB := draftB u, spn.draftG := bgLevel u } := by
  intro u q d
  unfold draftUpdate
  extract_lets _ s1 q1 b1 g1 raw old new new1 _ s2 crossed _ _ _ s3 v p fixed s4
  have h1 : draftView s2 = draftView { u with
      spn.lastDraft := u.time, spn.draft := if s.pwr.restore then max d (tOn u) else d, spn.draftQ := q,
      spn.draftB := draftB u, spn.draftG := bgLevel u } := by
    obtain ⟨c, hc⟩ : ∃ c, s1 = { u with chan := c } := by
      unfold s1
      split <;> exact ⟨_, rfl⟩
    clear_value s1
    subst hc
    rfl
  have h3 : draftView s3 = draftView s2 := rfl
  have h4 : draftView s4 = draftView s2 := by
    unfold s4
    split
    · split
      · exact spnStart_draftView s2
      · rfl
    · split
      · exact spnStart_draftView s2
      · rfl
    · split
      · exact h3
      · split
        · exact (askTarget_draftView s3 v).trans h3
        · exact h3
  exact (bankProgress_draftView _).trans ((signalChange_draftView _).trans (h4.trans h1))

end Sys2Proof.Machine
end

section
/-! PROOF. Target changes, the voltage cap, and the statement about the draft. -/
namespace Sys2Proof.Machine
open Sys2Proof

/-! ## Target changes (R147, R198, R202) -/

/-- The banking timer runs out below T_BANK: the spindle banks at the instant the timer states. -/
theorem bankingTimerExpire_banks {s : State} {u : Nat} (h : s.spn.bankTimer = some u) (hd : s.spn.draft < tBank s)
    (ht : spnTurning s.spn.state = true) : bankingTimerExpire s = spnBank (s.at (u + bankS s * 1000000)) := by
  simp [bankingTimerExpire, h, hd, ht]

theorem spnTurning_not_banked {st : SpnState} (h : spnTurning st = true) : st ≠ .banked := by
  rintro rfl
  cases h

/-- A change that is signalled is not signalled again. -/
theorem signalChange_signalled {s : State} {v : Nat} (hw : s.spn.wanted = some v) (hs : s.spn.signalled = true) : signalChange s = s := by
  unfold signalChange
  rw [hw]
  exact if_pos (.inl hs)

/-- A target signalled, within the dirty limit and acknowledged by every write path applies (R198). -/
theorem speedTargetApply_applies {s : State} {v : Nat} (hw : s.spn.wanted = some v) (hs : s.spn.signalled = true)
    (hd : dirtyWithin s = true) (ha : s.wrt.act.toList.all (·.acked) = true) :
    speedTargetApply s = { dropChange s with
      spn.target := v, spn.settled := 0, spn.state := if s.spn.state = .running then .changing else s.spn.state } := by
  unfold speedTargetApply
  rw [signalChange_signalled hw hs]
  simp only [hw]
  exact if_pos ⟨hs, hd, ha⟩

theorem dropChange_changePend (s : State) : ∀ w ∈ (dropChange s).wrt.act.toList, w.changePend = false := by
  intro w hw
  obtain ⟨x, -, rfl⟩ := List.mem_map.mp (Vector.toList_map (f := fun w : WrAct => { w with changePend := false, acked := false }) ▸ hw)
  rfl

theorem targetChangeAck_acks {s : State} {a : Fin 4} (hp : s.wrt.act[a].changePend = true) (hf : s.wrt.act[a].frame = none) :
    targetChangeAck s a = { s with wrt.act := s.wrt.act.set a { s.wrt.act[a] with acked := true } } := by
  unfold targetChangeAck
  exact if_pos ⟨hp, hf⟩

theorem targetChangeAck_waits {s : State} {a : Fin 4} (hf : s.wrt.act[a].frame ≠ none) : targetChangeAck s a = s := by
  unfold targetChangeAck
  exact if_neg fun h => hf h.2

/-! ## The voltage cap (R209 to R211) -/

/-- VCAP_UPDATE notes the cap in a state `u` that differs from `s` in neither state nor target of the spindle; then a cap below
3,650 rpm banks a turning spindle, and one below its target asks for the cap. -/
theorem vcapUpdate_cases (s : State) (vm : Qty) :
    ∃ u : State,
      draftView u = draftView { s with
        spn.vcap := vcapOf s.prof vm, spn.vmot := vm,
        spn.capBlock := s.spn.capBlock || decide (vcapOf s.prof vm < s.spn.floor) } ∧
      u.spn.state = s.spn.state ∧ u.spn.bank = s.spn.bank ∧ u.spn.wanted = s.spn.wanted ∧ u.spn.target = s.spn.target ∧
      vcapUpdate s vm =
        if ¬ spnTurning s.spn.state then u
        else if vcapOf s.prof vm < 3650 then (if u.spn.bank = .none then spnBank (noteHealth u .vcapBanked) else u)
        else if vcapOf s.prof vm < u.spn.wanted.getD u.spn.target then askTarget u (vcapOf s.prof vm)
        else u := by
  unfold vcapUpdate
  extract_lets cap okSince _ s1 _ s2 need _ s3
  by_cases h : spnTurning s.spn.state = true
  · refine ⟨s3, rfl, rfl, rfl, rfl, rfl, ?_⟩
    rw [if_neg (not_not.mpr h), if_neg (not_not.mpr (show spnTurning s1.spn.state = true from h))]
  · refine ⟨{ s1 with spn.limitV := false }, rfl, rfl, rfl, rfl, rfl, ?_⟩
    rw [if_pos h, if_pos (show ¬spnTurning s1.spn.state = true from h)]

theorem vcapUpdate_draftView (s : State) (vm : Qty) :
    draftView (vcapUpdate s vm) = draftView { s with
      spn.vcap := vcapOf s.prof vm, spn.vmot := vm,
      spn.capBlock := s.spn.capBlock || decide (vcapOf s.prof vm < s.spn.floor) } := by
  obtain ⟨u, hu, -, -, -, -, e⟩ := vcapUpdate_cases s vm
  rw [e, ← hu]
  split
  · rfl
  · split
    · split
      · exact spnBank_draftView (noteHealth u .vcapBanked)
      · rfl
    · split
      · exact askTarget_draftView u _
      · rfl

theorem vcapUpdate_banks {s : State} {vm : Qty} (ht : spnTurning s.spn.state = true) (hc : vcapOf s.prof vm < 3650) :
    (vcapUpdate s vm).spn.bank ≠ .none := by
  obtain ⟨u, -, hs, -, -, -, e⟩ := vcapUpdate_cases s vm
  rw [e, if_neg (not_not.mpr ht), if_pos hc]
  split
  · next hb => exact (spnBank_begins (s := noteHealth u .vcapBanked) hb (spnTurning_not_banked (hs ▸ ht))).1
  · next hb => exact hb

theorem vcapUpdate_stands {s : State} {vm : Qty} (ht : spnTurning s.spn.state = true) (hc : 3650 ≤ vcapOf s.prof vm)
    (hv : s.spn.target ≤ vcapOf s.prof vm) (hw : s.spn.wanted = none) :
    (vcapUpdate s vm).spn.wanted = none ∧ (vcapUpdate s vm).spn.target = s.spn.target := by
  obtain ⟨u, -, -, -, huw, hut, e⟩ := vcapUpdate_cases s vm
  have hn : ¬vcapOf s.prof vm < u.spn.wanted.getD u.spn.target := by
    rw [huw, hut, hw]
    exact Nat.not_lt.mpr hv
  rw [e, if_neg (not_not.mpr ht), if_neg (Nat.not_lt.mpr hc), if_neg hn]
  exact ⟨huw.trans hw, hut⟩

/-- The cap has been at the floor or above for 1 s: the spindle is blocked no longer, and a banked one starts at T_ON or above. -/
theorem vcapRecoverStart_frees {s : State} {u : Nat} (h : s.spn.vcapOkSince = some u) (hb : s.spn.capBlock = true) :
    let f : State := { s.at (u + 1000000) with spn.capBlock := false }
    vcapRecoverStart s = if s.spn.state = .banked ∧ s.spn.draft ≥ tOn s then spnStart f else f := by
  simp only [vcapRecoverStart, h, hb]
  rfl

/-! ## The statement about the draft and the speed targets -/

/-- Settles O43: `draftView` carries the draft and the cap through what the spindle does next, and each command's equation
gives the rest. -/
theorem draftAndSpeedTargets : Obligations.DraftAndSpeedTargets := by
  unfold Obligations.DraftAndSpeedTargets
  refine ⟨?_, draftNext_bounds, ?_, ?_, ?_, ?_, ?_, ?_, ?_⟩
  · intro s u q d
    obtain ⟨htime, hd, hlast, hq, hb, hg, -⟩ := (draftView_eq_iff _ _).mp (draftUpdate_draftView s)
    exact ⟨_, rfl, htime, hlast, hq, hb, hg, hd⟩
  · exact fun n => ⟨rfl, rfl⟩
  · intro s u ht hd hturn hb
    obtain ⟨h1, h2, h3⟩ := spnBank_begins (s := s.at (u + bankS s * 1000000)) hb (spnTurning_not_banked hturn)
    have htime := ((draftView_eq_iff _ _).mp (spnBank_draftView (s.at (u + bankS s * 1000000)))).1
    refine ⟨_, rfl, ?_⟩
    rw [bankingTimerExpire_banks ht hd hturn]
    exact ⟨h1, h2, htime, h3⟩
  · intro s v hw hs hd ha
    refine ⟨_, rfl, ?_⟩
    rw [speedTargetApply_applies hw hs hd ha]
    exact ⟨rfl, rfl, rfl, rfl, dropChange_changePend s, rfl⟩
  · intro s a hp
    refine ⟨_, rfl, fun hf => ?_, targetChangeAck_waits, fun b ne => ?_⟩
    · rw [targetChangeAck_acks hp hf]
      simp
    · by_cases hf : s.wrt.act[a].frame = none
      · rw [targetChangeAck_acks hp hf]
        exact Vector.getElem_set_ne a.isLt b.isLt fun e => ne (Fin.ext e.symm)
      · rw [targetChangeAck_waits hf]
  · exact fun s h16 hw hc => congrArg Host.Outcome.next (if_pos ⟨h16, hw, .inl hc⟩)
  · intro s vm
    obtain ⟨-, -, -, -, -, -, hv, hm, hb⟩ := (draftView_eq_iff _ _).mp (vcapUpdate_draftView s vm)
    exact ⟨_, rfl, hv, hm, fun h => hb.trans (by simp [h]), vcapUpdate_banks, vcapUpdate_stands⟩
  · intro s u h hb
    have e := vcapRecoverStart_frees h hb
    have hv : draftView (vcapRecoverStart s) = draftView { s.at (u + 1000000) with spn.capBlock := false } := by
      rw [e]
      split
      · exact spnStart_draftView _
      · rfl
    obtain ⟨htime, -, -, -, -, -, -, -, hcap⟩ := (draftView_eq_iff _ _).mp hv
    refine ⟨_, rfl, hcap, htime, fun hs hd h3 hm hk => ?_⟩
    rw [e, if_pos ⟨hs, hd⟩]
    exact spnStart_begins (by simp [mayStart, h3, hm, hk])

end Sys2Proof.Machine
end

section
/-! PROOF. Read paths that read no frame, and the ladder's step 4. -/
namespace Sys2Proof.Machine
open Sys2Proof

/-! ## Read paths by number -/

theorem chanAt_onChan_same (s : State) {a : Nat} (h : a < 4) (f : ChanAct → ChanAct) : chanAt (onChan s a f) a = f (chanAt s a) :=
  vget_vmod_same _ h f _

theorem chanAt_congr {s t : State} (h : t.chan.act = s.chan.act) (a : Nat) : chanAt t a = chanAt s a := by
  unfold chanAt
  rw [h]

/-! ## Damage found changes no read path (R399) -/

theorem ashRecord_chan (s : State) (tr c : Nat) (e : Element) (d : List Nat) : (ashRecord s tr c e d).chan = s.chan := by
  obtain ⟨a, r, n, f, h⟩ := ashRecord_frame s tr c e d
  rw [h]

theorem damageVersion_chan (s : State) (key : List Byte) (no oid : Nat) : (damageVersion s key no oid).chan = s.chan := by
  unfold damageVersion
  split
  · rfl
  · exact ashRecord_chan (noteHealth s (.damaged oid no)) _ _ _ _

theorem damageZone_chan (s : State) (z : Nat) (ords : List Nat) : (damageZone s z ords).chan = s.chan := by
  unfold damageZone
  extract_lets no s1
  split
  · rfl
  · exact ashRecord_chan (noteHealth s1 (.damaged (2 ^ 63 + z) no)) _ _ _ _

theorem damageLeaf_chan (s : State) (p : Nat × Nat) : (damageLeaf s p).chan = s.chan := by
  unfold damageLeaf
  split
  · exact damageVersion_chan _ _ _ _
  · exact foldl_frame (fun s t => t.chan = s.chan) (fun _ => rfl) (fun _ _ _ h k => k.trans h) _
      (fun s z => damageZone_chan s z _) _ s

/-! ## Read paths that read no frame -/

/-- Every read path that reads no frame is as it was. -/
def KeepsIdlePaths (s t : State) : Prop := ∀ a, (chanAt s a).read = none → chanAt t a = chanAt s a

namespace KeepsIdlePaths

theorem of_act {s t : State} (h : t.chan.act = s.chan.act) : KeepsIdlePaths s t := fun a _ => chanAt_congr h a

theorem of_chan {s t : State} (h : t.chan = s.chan) : KeepsIdlePaths s t := of_act (congrArg ChanS.act h)

theorem refl (s : State) : KeepsIdlePaths s s := fun _ _ => rfl

theorem trans {s t u : State} (h : KeepsIdlePaths s t) (k : KeepsIdlePaths t u) : KeepsIdlePaths s u := by
  intro a ha
  rw [k a (h a ha ▸ ha), h a ha]

theorem after {s t u : State} (k : KeepsIdlePaths t u) (h : t.chan = s.chan) : KeepsIdlePaths s u := (of_chan h).trans k

end KeepsIdlePaths

theorem vget_map {α β : Type} {n : Nat} (v : Vector α n) (f : α → β) (i : Nat) (d : α) : vget (v.map f) i (f d) = f (vget v i d) := by
  unfold vget
  rw [Vector.toList_map, List.getD_map]

theorem dropRead_keepsIdlePaths (s : State) (id idx : Nat) : KeepsIdlePaths s (dropRead s id idx) := by
  intro a ha
  refine (vget_map s.chan.act _ a {}).trans (if_neg ?_)
  rw [show (vget s.chan.act a {}).read = none from ha]
  exact Bool.false_ne_true

theorem settleLeaf_keepsIdlePaths (s : State) (id idx : Nat) (res : Option Leaf) : KeepsIdlePaths s (settleLeaf s id idx res) := by
  unfold settleLeaf releaseLeaves
  split
  · exact .refl s
  · refine (dropRead_keepsIdlePaths s id idx).trans (.of_chan ?_)
    dsimp only
    split
    · rfl
    · obtain ⟨l, h⟩ := cacheFail_frame (dropRead s id idx) _ _
      rw [h]
    · rfl

theorem leafLost_keepsIdlePaths (s : State) (id idx : Nat) : KeepsIdlePaths s (leafLost s id idx) := by
  unfold leafLost
  split
  · extract_lets s1
    have h1 : KeepsIdlePaths s s1 := settleLeaf_keepsIdlePaths _ _ _ _
    split
    · split
      · split
        · exact h1.trans (.of_chan (damageLeaf_chan _ _))
        · exact h1
      · exact h1
    · exact h1
  · exact .refl s

theorem startRebuild_keepsIdlePaths (s : State) (id idx : Nat) : KeepsIdlePaths s (startRebuild s id idx) := by
  unfold startRebuild
  split
  · split
    · exact settleLeaf_keepsIdlePaths _ _ _ _
    · split
      · exact settleLeaf_keepsIdlePaths _ _ _ _
      · extract_lets _ _ _ _ _ s1
        split
        · exact (leafLost_keepsIdlePaths s1 _ _).after rfl
        · exact .of_chan rfl
  · exact .refl s

theorem sourceFailed_keepsIdlePaths (s : State) (id i : Nat) : KeepsIdlePaths s (sourceFailed s id i) := by
  unfold sourceFailed
  split
  · exact .refl s
  · split
    · exact .refl s
    · dsimp only
      split
      · split
        · exact .of_chan rfl
        · exact (leafLost_keepsIdlePaths _ _ _).after rfl
      · split
        · exact .of_chan rfl
        · exact (leafLost_keepsIdlePaths _ _ _).after rfl

theorem leafDone_keepsIdlePaths (s : State) (id idx : Nat) (res : Option Leaf) (corrected step : Nat) :
    KeepsIdlePaths s (leafDone s id idx res corrected step) := by
  have h := settleLeaf_keepsIdlePaths s id idx res
  unfold leafDone
  split
  · dsimp only
    split
    · split
      · exact h.trans (.of_chan rfl)
      · exact h.trans (sourceFailed_keepsIdlePaths _ _ _)
    · exact h
  · exact .refl s

/-- The ladder's step 4 drops at most reads in progress: a read path that reads no frame is as it was. -/
theorem ladderStep4_keepsIdlePaths (s : State) (id idx : Nat) (event : Bool) :
    KeepsIdlePaths s (ladderStep4 s id idx event) := by
  unfold ladderStep4
  split
  · split
    · exact leafDone_keepsIdlePaths _ _ _ _ _ _
    · extract_lets _ s1
      have h1 : KeepsIdlePaths s s1 := by
        unfold s1
        split <;> exact .of_chan rfl
      split
      · exact h1.trans (settleLeaf_keepsIdlePaths _ _ _ _)
      · refine (h1.trans ?_).trans (startRebuild_keepsIdlePaths _ _ _)
        split <;> exact .of_chan rfl
  · exact .refl s

/-- A striped leaf of a request that is no reconstruction's enters step 4 with a count in ENTER4 (R120). -/
theorem ladderStep4_counts {s : State} {id idx : Nat} {q : Request} {l : ReqLeaf} (hq : reqBy s id = some q)
    (hl : leafBy s id idx = some l) (hp : q.purpose ≠ .source) (hs : l.stripe.isSome = true) :
    (ladderStep4 s id idx true).grt.enter4 = satInc s.grt.enter4 := by
  have hn : ¬l.stripe.isNone = true := fun h => by simp [Option.isNone_iff_eq_none.mp h] at hs
  unfold ladderStep4
  rw [hq, hl]
  dsimp only
  rw [if_neg hp, if_neg hn, startRebuild_grt, if_pos rfl, if_pos ⟨rfl, .inl hs⟩]
  rfl

end Sys2Proof.Machine
end

section
/-! PROOF. Read windows, and locating a frame. -/
namespace Sys2Proof.Machine
open Sys2Proof

/-! ## The channel state record loaded for a window (R101) -/

/-- Loading a record changes only the channels, keeps the acquisition, and takes the values saved for the head and zone where
those are not loaded already. -/
theorem chanLoad_loads (s : State) {a : Nat} (ha : a < 4) (surface zone : Nat) :
    let t := chanLoad s a surface zone
    t = { s with chan := t.chan } ∧ (chanAt t a).loaded = some (surface, zone) ∧ (chanAt t a).acquired = (chanAt s a).acquired ∧
      ((chanAt s a).loaded ≠ some (surface, zone) → (chanAt t a).adapted = savedRec t surface zone) := by
  intro t
  by_cases h : (chanAt s a).loaded = some (surface, zone)
  · have ht : t = s := if_pos h
    rw [ht]
    exact ⟨rfl, h, rfl, absurd h⟩
  · obtain ⟨v, hv⟩ : ∃ v, t = afeApply (onChan { s with chan.saved := v } a fun c =>
        { c with loaded := some (surface, zone), adapted := savedRec { s with chan.saved := v } surface zone,
                 errs := [], highRun := 0, cap := [] }) a := by
      unfold t chanLoad
      rw [if_neg h]
      dsimp only
      split
      · split
        · exact ⟨_, rfl⟩
        · exact ⟨s.chan.saved, rfl⟩
      · exact ⟨s.chan.saved, rfl⟩
    have hc : chanAt t a = { chanAt s a with
        loaded := some (surface, zone), adapted := savedRec { s with chan.saved := v } surface zone,
        errs := [], highRun := 0, cap := [] } := by
      rw [hv]
      exact chanAt_onChan_same { s with chan.saved := v } ha _
    rw [hc, hv]
    exact ⟨rfl, rfl, rfl, fun _ => rfl⟩

/-! ## A window opens (R88, R89, R125) -/

/-- A leaf as its read begins: the soft values of step 0 are freed by the read of step 2. -/
def leafRead (l : ReqLeaf) : ReqLeaf :=
  { l with phase := if l.reread then .ladder else .reading, soft := if l.phase = .ladder ∧ l.step = 2 then none else l.soft }

/-- The read that begins at a predicted start; `tracking`: back to back with the last. -/
def jobAtStart (id i : Nat) (l : ReqLeaf) (w b dz wedges : Nat) (tracking : Bool) : ReadJob :=
  { req := id, leafIdx := i, pos := l.pos, blind := decide (l.phase = .blind), tracking := tracking,
    wedge := w, dataBit := b, dz := dz, wedges := wedges }

/-- A read path as the window opens on it: the read at the synthesiser's frequency, `rate` where acquisition is run. -/
def pathOpened (id i : Nat) (l : ReqLeaf) (w b dz wedges : Nat) (far : Bool) (rate : Qty) (c : ChanAct) : ChanAct :=
  let track := c.acquired && !far
  { c with
    read := some (jobAtStart id i l w b dz wedges track), acquired := true, buf := ⟨[], []⟩, bufAt := -256, outQ := [],
    synth := if track then c.synth else rate, tim := if track then c.tim else {} }

section
variable {s : State} {id : Fin 8192} {i : Nat} {r : Request} {l : ReqLeaf} {w b dz : Nat} (hr : reqBy s id = some r)
  (hl : leafBy s id i = some l) (hp : predictedStart s l.pos = some (w, b, dz))
  (hen : blkEn s (6 + actOf l.pos.surface) = true) (hdue : leafDue l = true) (hi : i < r.released + 64)
  (hread : (chanAt s (actOf l.pos.surface)).read = none)
  (hsf : (vget s.srv.loop (actOf l.pos.surface) {}).surface = l.pos.surface)
  (htrack : (vget s.srv.loop (actOf l.pos.surface) {}).onTrack = true)
  (hmiss : (vget s.srv.loop (actOf l.pos.surface) {}).missRun < 2)
  (htgt : trackTarget s l.pos false = some (vget s.srv.loop (actOf l.pos.surface) {}).target)
  (hw : (vget s.srv.loop (actOf l.pos.surface) {}).wedge = some w)
  (hsel : (wrAt s (actOf l.pos.surface)).paSel = some (l.pos.surface % 8)) (hpa : (wrAt s (actOf l.pos.surface)).paReady ≤ s.time)
  (hv : 3600 ≤ s.spn.speed)
include hr hl hp hen hdue hi hread hsf htrack hmiss htgt hw hsel hpa hv

/-- A window that may open either waits for room in the soft-value store, a slip counted, or opens on its leaf. -/
theorem readWindowOpen_due (far : Bool) :
    readWindowOpen s id i far =
      if l.soft.isNone ∧ 8 ≤ storeUsed s (actOf l.pos.surface) then
        { s with wrt.act := vmod s.wrt.act (actOf l.pos.surface) fun w => { w with slips := satInc w.slips } }
      else
        let u := onLeaf (chanLoad s (actOf l.pos.surface) l.pos.surface (zoneAt s l.pos)) id i leafRead
        onChan u (actOf l.pos.surface) (pathOpened id i l w b dz (vget s.srv.loop (actOf l.pos.surface) {}).wedges far
          (bitRate u (actOf l.pos.surface))) := by
  unfold readWindowOpen
  rw [hr, hl]
  dsimp only
  rw [hp]
  refine if_neg ?_
  rintro (h | h | h | h | h | h | h | h | h | h | h | h)
  · exact h hen
  · exact h hdue
  · exact absurd hi (Nat.not_lt.mpr h)
  · rw [hread] at h
    cases h
  · exact h hsf
  · exact h htrack
  · exact absurd hmiss (Nat.not_lt.mpr h)
  · exact h htgt
  · exact h hw
  · exact h hsel
  · exact absurd hpa (Nat.not_le.mpr h)
  · exact absurd hv (not_le.mpr h)

end

/-! ## A frame located (R94, R96) -/

/-- The samples of a search enter the buffer of a read path (R93). -/
def bufferSearch (s : State) (a : Nat) (smp : Samples) : State :=
  onChan s a fun c => { c with buf := lastSamples smp, bufAt := smp.lead.length - 256 - min 16384 smp.lead.length }

theorem chanAt_bufferSearch (s : State) (a : Fin 4) (smp : Samples) :
    chanAt (bufferSearch s a smp) a =
      { chanAt s a with buf := lastSamples smp, bufAt := smp.lead.length - 256 - min 16384 smp.lead.length } :=
  chanAt_onChan_same s a.isLt _

/-- A frame located in the samples of a search is noted on its read path with its counters, and nothing else changes. -/
theorem applyLocated_notes {s : State} {a : Fin 4} {j : ReadJob} (h : (chanAt s a).read = some j) (smp : Samples) (x : ReadSpan)
    (out : List Qty) (r : Located) :
    let t := applyLocated (bufferSearch s a smp) a x out r
    t = { s with chan := t.chan } ∧
      (∃ m p, (chanAt t a).read = some { j with
          located := true, start := r.start, inverted := r.inverted, unsure := r.unsure, locAt := m, replay := p } ∧
        (r.replayFrom = none → p = [])) ∧
      (chanAt t a).slip = (if r.slip then satInc (chanAt s a).slip else (chanAt s a).slip) ∧
      (chanAt t a).priMiss = (if r.priMiss then satInc (chanAt s a).priMiss else (chanAt s a).priMiss) ∧
      (chanAt t a).blindOk = (chanAt s a).blindOk := by
  intro t
  unfold t applyLocated
  rw [chanAt_onChan_same _ a.isLt, chanAt_bufferSearch]
  refine ⟨rfl, ⟨_, _, congrArg (Option.map _) h, ?_⟩, rfl, rfl, rfl⟩
  intro hn
  rw [hn]

/-- The offset from the servo prediction at which a header passes, on the bits of a blind re-read's replay (R96). -/
def headerTrial (s : State) (a : Fin 4) (j : ReadJob) (smp : Samples) : Option Int :=
  trialOffsets.find? fun x =>
    headerPasses (replayHeader (decisions (replayOf (openingSeen s a j smp).1 (chanAt s a).adapted 80 320)) x) false j.pos

section
variable {s : State} {a : Fin 4} {j : ReadJob} (h : (chanAt s a).read = some j) (hl : j.located = false)
include h hl

theorem frameLocate_found {smp : Samples} (hb : j.blind = false) (hf : (openingSeen s a j smp).2.2.found = true) :
    frameLocate s a smp =
      applyLocated (bufferSearch s a smp) a (openingSeen s a j smp).1 (openingSeen s a j smp).2.1 (openingSeen s a j smp).2.2 := by
  simp only [frameLocate, h, hl, hb]
  exact if_pos hf

theorem frameLocate_missed {smp : Samples} (hb : j.blind = false) (hf : (openingSeen s a j smp).2.2.found = false) :
    frameLocate s a smp =
      let u := onChan (bufferSearch s a smp) a fun c => { c with read := none }
      if blindEn s a then onLeaf u j.req j.leafIdx fun l => { l with phase := .blind } else ladderStep4 u j.req j.leafIdx false := by
  simp only [frameLocate, h, hl, hb]
  exact if_neg (Bool.eq_false_iff.mp hf)

theorem blindReread_found {smp : Samples} (hb : j.blind = true) (hf : (openingSeen s a j smp).2.2.found = true) :
    blindReread s a smp =
      applyLocated (bufferSearch s a smp) a (openingSeen s a j smp).1 (openingSeen s a j smp).2.1 (openingSeen s a j smp).2.2 := by
  simp only [blindReread, h, hl, hb]
  exact if_pos hf

theorem blindReread_missed {smp : Samples} (hb : j.blind = true) (hf : (openingSeen s a j smp).2.2.found = false) :
    blindReread s a smp = (headerTrial s a j smp).elim
      (ladderStep4 (onChan (bufferSearch s a smp) a fun c => { c with read := none, blindFail := satInc c.blindFail })
        j.req j.leafIdx true)
      fun x => onChan (applyLocated (bufferSearch s a smp) a (openingSeen s a j smp).1 (openingSeen s a j smp).2.1
        ⟨true, x, false, false, false, none, false⟩) a fun c => { c with blindOk := satInc c.blindOk } := by
  simp only [blindReread, h, hl, hb]
  refine (if_neg (Bool.eq_false_iff.mp hf)).trans ?_
  rw [chanAt_onChan_same s a.isLt]
  cases hx : headerTrial s a j smp <;> rw [headerTrial] at hx <;> rw [hx] <;> rfl

end

end Sys2Proof.Machine
end

section
/-! PROOF. A codeword complete: what it leaves in the read path, and its place in the shared queue. -/
namespace Sys2Proof.Machine
open Sys2Proof

/-! ## Soft values (R84) -/

theorem length_scramble (l : List Bool) : ∀ st, (scramble st l).length = l.length := by
  induction l with
  | nil => exact fun _ => rfl
  | cons c l ih => exact fun st => congrArg Nat.succ (ih _)

theorem length_softValues (p : Pos) (n : Nat) (inverted : Bool) (det : Nat → Qty) (erased : Nat → Bool) :
    (softValues p n inverted det erased).length = n := by
  simp [softValues, scramBits, length_scramble]

/-! ## What a codeword leaves in the channel and the defect map (R85, R87, R101, R103) -/

/-- A codeword read ends its read path's read, and beyond the channels uses up one free value. -/
theorem chanAfter_endsRead (s : State) (a : Fin 4) (run : ChanRun) (tm : Timing) (n : Nat) (slewing : Bool) (eJoint eL eT : Qty) :
    let t := chanAfter s a run tm n slewing eJoint eL eT
    (chanAt t a).read = none ∧ t = { s with chan := t.chan, freeCtr := s.freeCtr + 1 } := by
  refine ⟨?_, rfl⟩
  unfold chanAfter
  exact congrArg ChanAct.read (chanAt_onChan_same s a.isLt _)

theorem captureAdd_read (s : State) (a : Fin 4) (j : ReadJob) (x : ReadSpan) (t0 n : Nat) (det : Nat → Qty) :
    (chanAt (captureAdd s a j x t0 n det) a).read = (chanAt s a).read := by
  unfold captureAdd
  rw [chanAt_onChan_same s a.isLt]

theorem defectAdd_frame (s : State) (d : Defect) :
    ∃ ds rt, defectAdd s d = { s with str.defects := ds, str.retiring := rt } := by
  unfold defectAdd
  dsimp only
  split
  · split <;> exact ⟨_, _, rfl⟩
  · exact ⟨_, s.str.retiring, rfl⟩

/-- Spans noted change only the spans of earlier reads, the defect map and the rings to be retired (R87, R260). -/
theorem spansNoted_frame (s : State) (p : Pos) (spans : List (Nat × Nat)) :
    ∃ sp ds rt, spansNoted s p spans = { s with chan.spans := sp, str.defects := ds, str.retiring := rt } := by
  refine foldl_frame (fun s t => ∃ sp ds rt, t = { s with chan.spans := sp, str.defects := ds, str.retiring := rt })
    (fun s => ⟨s.chan.spans, s.str.defects, s.str.retiring, rfl⟩) ?_ _ ?_ _ s
  · rintro s t u ⟨_, _, _, rfl⟩ ⟨sp, ds, rt, rfl⟩
    exact ⟨sp, ds, rt, rfl⟩
  · intro u x
    split
    · split
      · exact ⟨u.chan.spans, u.str.defects, u.str.retiring, rfl⟩
      · obtain ⟨ds, rt, h⟩ := defectAdd_frame u ⟨p, x.1, x.2⟩
        exact ⟨u.chan.spans, ds, rt, h⟩
    · exact ⟨_, u.str.defects, u.str.retiring, rfl⟩

/-- Spans noted do not touch the read of a read path, and change only the channels, the defect map and the rings to be retired. -/
theorem spansNoted_keepsRead (s : State) (p : Pos) (spans : List (Nat × Nat)) (a : Nat) :
    let t := spansNoted s p spans
    (chanAt t a).read = (chanAt s a).read ∧ ∃ ch ds rt, t = { s with chan := ch, str.defects := ds, str.retiring := rt } := by
  intro t
  obtain ⟨sp, ds, rt, h⟩ := spansNoted_frame s p spans
  have ht : t = _ := h
  rw [ht]
  exact ⟨rfl, _, ds, rt, rfl⟩

/-- From a codeword's equalised stream to its noted spans the read ends, and only the channels, the defect map, the rings to be
retired and a free value change. -/
theorem codewordChannel_ends (s : State) (a : Fin 4) (x : ReadSpan) (run : ChanRun) (tm : Timing) (n : Nat) (slewing : Bool)
    (eJoint eL eT : Qty) (j : ReadJob) (t0 m : Nat) (det : Nat → Qty) (p : Pos) (spans : List (Nat × Nat)) :
    let u := spansNoted (captureAdd (chanAfter (highPassAfter s a x) a run tm n slewing eJoint eL eT) a j x t0 m det) p spans
    (chanAt u a).read = none ∧
      ∃ ch ds rt, u = { s with chan := ch, str.defects := ds, str.retiring := rt, freeCtr := s.freeCtr + 1 } := by
  intro u
  obtain ⟨hread, hafter⟩ := chanAfter_endsRead (highPassAfter s a x) a run tm n slewing eJoint eL eT
  have hu : u = spansNoted (captureAdd (chanAfter (highPassAfter s a x) a run tm n slewing eJoint eL eT) a j x t0 m det) p spans := rfl
  generalize chanAfter (highPassAfter s a x) a run tm n slewing eJoint eL eT = v at hread hafter hu
  obtain ⟨hkeep, ch, ds, rt, hspans⟩ := spansNoted_keepsRead (captureAdd v a j x t0 m det) p spans a
  rw [hu]
  refine ⟨hkeep.trans ((captureAdd_read v a j x t0 m det).trans hread), ch, ds, rt, ?_⟩
  rw [hspans]
  unfold captureAdd onChan
  rw [hafter]
  rfl

/-! ## A codeword joins the shared queue (R32, R116) -/

/-- The codeword of a leaf at a ladder step. -/
def codewordOf (s : State) (id idx step : Nat) (soft : List Soft) (q : Request) (l : ReqLeaf) : Codeword :=
  ⟨id, idx, actOf l.pos.surface, l.pos, (match ringAt s l.pos.surface l.pos.ring with | some x => x.strength | none => 0), step,
    q.purpose = .scrub, q.activity, soft, l.unsure, false⟩

/-- A leaf whose codeword is queued at a ladder step. -/
def leafQueued (step : Nat) (soft : List Soft) (l : ReqLeaf) : ReqLeaf := { l with phase := .ladder, step := step, soft := some soft }

theorem queueCodeword_some {s : State} {id idx : Nat} {q : Request} {l : ReqLeaf} (hq : reqBy s id = some q)
    (hl : leafBy s id idx = some l) (step : Nat) (soft : List Soft) :
    queueCodeword s id idx step soft =
      { onLeaf s id idx (leafQueued step soft) with grt.queue := s.grt.queue ++ [codewordOf s id idx step soft q l] } := by
  unfold queueCodeword
  rw [hq, hl]
  rfl

theorem queueCodeword_frame (s : State) (id idx step : Nat) (soft : List Soft) :
    ∃ g r, queueCodeword s id idx step soft = { s with grt := g, reqs := r } := by
  unfold queueCodeword
  split
  · exact ⟨_, _, rfl⟩
  · exact ⟨s.grt, s.reqs, rfl⟩

/-- Soft values taken for a leaf change only the grates' state and the requests. -/
theorem codewordQueued_frame (s : State) (j : ReadJob) (strength : Nat) (soft : List Soft) :
    ∃ g r, codewordQueued s j strength soft = { s with grt := g, reqs := r } := by
  have queued : ∀ {u : State} (step : Nat) (soft : List Soft), (∃ g r, u = { s with grt := g, reqs := r }) →
      ∃ g r, queueCodeword u j.req j.leafIdx step soft = { s with grt := g, reqs := r } := by
    rintro u step soft ⟨g, r, rfl⟩
    obtain ⟨g, r, h⟩ := queueCodeword_frame { s with grt := g, reqs := r } j.req j.leafIdx step soft
    exact ⟨g, r, h⟩
  unfold codewordQueued
  dsimp only
  split
  · exact ⟨s.grt, _, rfl⟩
  · split
    · refine queued _ _ ?_
      split
      · exact ⟨_, _, rfl⟩
      · exact ⟨s.grt, _, rfl⟩
    · split
      · split
        · exact ⟨s.grt, _, rfl⟩
        · split <;> exact queued _ _ ⟨s.grt, _, rfl⟩
      · exact ⟨s.grt, _, rfl⟩

theorem firstStep_cases (strength : Nat) (soft : List Soft) : firstStep strength soft = 0 ∨ firstStep strength soft = 1 := by
  unfold firstStep
  dsimp only
  split
  · exact .inr rfl
  · exact .inl rfl

/-- The first read of a leaf is queued once, at the step that R116 gives, with a count in ENTER1 at step 1. -/
theorem codewordQueued_reading {s : State} {j : ReadJob} {l : ReqLeaf} (hl : leafBy s j.req j.leafIdx = some l)
    (hp : l.phase = .reading) (strength : Nat) (soft : List Soft) :
    let t := codewordQueued s j strength soft
    let step := firstStep strength soft
    ∃ c, t.grt.queue = s.grt.queue ++ [c] ∧ c.req = j.req ∧ c.leafIdx = j.leafIdx ∧ c.pos = l.pos ∧ c.act = actOf l.pos.surface ∧
      c.soft = soft ∧ c.unsure = j.unsure ∧ c.step = step ∧
      t.grt.enter1 = (if step = 1 then satInc s.grt.enter1 else s.grt.enter1) ∧
      leafBy t j.req j.leafIdx = some { l with phase := .ladder, step := step, soft := some soft, unsure := j.unsure } := by
  intro t step
  obtain ⟨q, hq, -⟩ := Option.bind_eq_some_iff.mp hl
  let u := onLeaf s j.req j.leafIdx fun l => { l with unsure := j.unsure }
  let v : State := if step = 1 then { u with grt.enter1 := satInc u.grt.enter1 } else u
  have hv : v.reqs = u.reqs ∧ v.grt.queue = s.grt.queue ∧
      v.grt.enter1 = if step = 1 then satInc s.grt.enter1 else s.grt.enter1 := by
    unfold v
    split <;> exact ⟨rfl, rfl, rfl⟩
  obtain ⟨hreqs, hqueue, hent⟩ := hv
  have hlu : leafBy u j.req j.leafIdx = some { l with unsure := j.unsure } := leafBy_onLeaf_same (by exact fun _ => rfl) hl
  have hlv := (leafBy_congr hreqs j.req j.leafIdx).trans hlu
  have hqv := (reqBy_congr hreqs j.req).trans (reqBy_onLeaf hq j.req j.leafIdx _)
  have ht : t = queueCodeword v j.req j.leafIdx step soft := by
    unfold t codewordQueued
    dsimp only
    rw [hlu]
    exact if_pos hp
  rw [ht, queueCodeword_some hqv hlv]
  exact ⟨_, congrArg (· ++ _) hqueue, rfl, rfl, rfl, rfl, rfl, rfl, rfl, hent, leafBy_onLeaf_same (by exact fun _ => rfl) hlv⟩

/-! ## CODEWORD_COMPLETE (R32) -/

theorem codewordComplete_unlocated {s : State} {a : Fin 4} {j : ReadJob} (h : (chanAt s a).read = some j) (hl : j.located = false)
    (smp : Samples) : codewordComplete s a smp = s := by
  unfold codewordComplete
  rw [h]
  dsimp only
  split
  · rfl
  · exact if_pos (by simp [hl])

/-- A located frame ends its read; soft values of its whole codeword are taken for the leaf, from a state in which only the
channels, the defect map and a free value have changed. -/
theorem codewordComplete_located {s : State} {a : Fin 4} {j : ReadJob} {g : Ring} (h : (chanAt s a).read = some j)
    (hg : ringAt s j.pos.surface j.pos.ring = some g) (hl : j.located = true) (smp : Samples) :
    ∃ u soft, codewordComplete s a smp = codewordQueued u j g.strength soft ∧ soft.length = codeBits g.strength ∧
      (chanAt u a).read = none ∧ ∃ ch ds rt, u = { s with chan := ch, str.defects := ds, str.retiring := rt, freeCtr := s.freeCtr + 1 } := by
  unfold codewordComplete
  rw [h]
  dsimp only
  rw [hg]
  dsimp only
  rw [if_neg (by simp [hl])]
  exact ⟨_, _, rfl, length_softValues _ _ _ _ _, codewordChannel_ends (onChan s a _) a _ _ _ _ _ _ _ _ _ _ _ _ _ _⟩

end Sys2Proof.Machine
end

section
/-! PROOF. The statement about read windows, locating a frame and the shared queue. -/
namespace Sys2Proof.Machine
open Sys2Proof

/-! ## What an open window leaves (R88, R89) -/

/-- A window opened on a leaf: the read stands on the path with the record of its head and zone, and the leaf is marked. -/
theorem pathOpened_leaves {s : State} {id i : Nat} {l : ReqLeaf} (hl : leafBy s id i = some l) (ha : actOf l.pos.surface < 4)
    (w b dz wedges : Nat) (far : Bool) (rate : Qty) :
    let a := actOf l.pos.surface
    let z := zoneAt s l.pos
    let u := chanLoad s a l.pos.surface z
    let t := onChan (onLeaf u id i leafRead) a (pathOpened id i l w b dz wedges far rate)
    (chanAt t a).read = some (jobAtStart id i l w b dz wedges ((chanAt s a).acquired && !far)) ∧
      (chanAt t a).acquired = true ∧ (chanAt t a).loaded = some (l.pos.surface, z) ∧
      ((chanAt s a).loaded ≠ some (l.pos.surface, z) → (chanAt t a).adapted = savedRec u l.pos.surface z) ∧
      leafBy t id i = some (leafRead l) ∧ t = { s with chan := t.chan, reqs := t.reqs } := by
  intro a z u t
  obtain ⟨hu, hloaded, hacq, hadapted⟩ := chanLoad_loads s ha l.pos.surface z
  have hc : chanAt t a = pathOpened id i l w b dz wedges far rate (chanAt u a) :=
    chanAt_onChan_same (onLeaf u id i leafRead) ha _
  have hlu : leafBy u id i = some l := (leafBy_congr (congrArg State.reqs hu) id i).trans hl
  have hlt : leafBy (onLeaf u id i leafRead) id i = some (leafRead l) := leafBy_onLeaf_same (fun _ => rfl) hlu
  rw [hc]
  refine ⟨?_, rfl, hloaded, hadapted, hlt, ?_⟩
  · exact congrArg (fun acq => some (jobAtStart id i l w b dz wedges (acq && !far))) hacq
  · unfold t onChan onLeaf
    rw [show u = { s with chan := u.chan } from hu]

/-- Settles O49: each command's equation names the state it leaves; what follows it (the ladder's step 4, the noted spans, the
shared queue) keeps a read path that reads no frame. -/
theorem windowsLocateAndQueue : Obligations.WindowsLocateAndQueue := by
  unfold Obligations.WindowsLocateAndQueue
  refine ⟨?_, ?_, ?_, ?_⟩
  · -- READ_WINDOW_OPEN (R88): by whether the store has room for the leaf
    intro s id i far r l w b dz hr hl hp a lp ha hen hdue hi hread hsf htrack hmiss htgt hw hsel hpa hv
    refine ⟨_, rfl, ?_⟩
    rw [readWindowOpen_due hr hl hp hen hdue hi hread hsf htrack hmiss htgt hw hsel hpa hv far]
    refine ⟨fun hsoft hfull => ?_, fun hroom => ?_⟩
    · rw [if_pos ⟨Option.isNone_iff_eq_none.mpr hsoft, hfull⟩]
      exact ⟨congrArg WrAct.slips (vget_vmod_same _ ha _ _), rfl⟩
    · have hroom' : ¬(l.soft.isNone = true ∧ 8 ≤ storeUsed s a) := by
        rintro ⟨hsoft, hfull⟩
        exact hroom.elim (· (Option.isNone_iff_eq_none.mp hsoft)) (Nat.not_lt.mpr hfull)
      rw [if_neg hroom']
      exact pathOpened_leaves hl ha w b dz lp.wedges far _
  · -- FRAME_LOCATE (R94)
    intro s a smp j hread hloc hblind r
    refine ⟨_, rfl, fun hf => ?_, fun hf => ?_⟩
    · rw [frameLocate_found hread hloc hblind hf]
      obtain ⟨ht, ⟨m, p, hk, hreplay⟩, hslip, hpri, -⟩ := applyLocated_notes hread smp (openingSeen s a j smp).1 _ r
      exact ⟨ht, ⟨_, hk, rfl, rfl, rfl, rfl, rfl, hreplay⟩, hslip, hpri⟩
    · rw [frameLocate_missed hread hloc hblind hf]
      have hnone : (chanAt (onChan (bufferSearch s a smp) a fun c => { c with read := none }) a).read = none := by
        rw [chanAt_onChan_same _ a.isLt]
      cases hen : blindEn s a with
      | true => exact ⟨hnone, fun _ => ⟨rfl, fun l hl => leafBy_onLeaf_same (by exact fun _ => rfl) hl⟩⟩
      | false => exact ⟨(congrArg ChanAct.read (ladderStep4_keepsIdlePaths _ _ _ _ a hnone)).trans hnone, nofun⟩
  · -- BLIND_REREAD (R96): the marks, else the header trial around the servo prediction
    intro s a smp j hread hloc hblind o v
    refine ⟨_, rfl, ?_⟩
    split
    · next hf =>
      rw [blindReread_found hread hloc hblind hf]
      obtain ⟨ht, ⟨m, p, hk, -⟩, -⟩ := applyLocated_notes hread smp o.1 o.2.1 o.2.2
      exact ⟨ht, _, hk, rfl, rfl, rfl, rfl⟩
    · next hf =>
      rw [blindReread_missed hread hloc hblind (Bool.eq_false_iff.mpr hf)]
      cases hx : headerTrial s a j smp with
      | some x =>
        rw [show (trialOffsets.find? fun x => headerPasses (replayHeader v x) false j.pos) = some x from hx]
        obtain ⟨ht, ⟨m, p, hk, -⟩, -, -, hok⟩ :=
          applyLocated_notes hread smp o.1 o.2.1 ⟨true, x, false, false, false, none, false⟩
        dsimp only [Option.elim]
        rw [chanAt_onChan_same _ a.isLt]
        refine ⟨?_, congrArg satInc hok, _, hk, rfl, rfl, rfl, rfl⟩
        unfold onChan
        rw [ht]
      | none =>
        rw [show (trialOffsets.find? fun x => headerPasses (replayHeader v x) false j.pos) = none from hx]
        dsimp only [Option.elim]
        have hu := chanAt_onChan_same (bufferSearch s a smp) a.isLt fun c =>
          { c with read := none, blindFail := satInc c.blindFail }
        have ht := ladderStep4_keepsIdlePaths _ j.req j.leafIdx true a (congrArg ChanAct.read hu)
        rw [ht, hu, chanAt_bufferSearch]
        exact ⟨rfl, rfl, fun r l hr hl hp hs => ladderStep4_counts (s := onChan (bufferSearch s a smp) a _) hr hl hp hs⟩
  · -- CODEWORD_COMPLETE (R32)
    intro s a smp j g hread hg
    refine ⟨fun hloc => congrArg Host.Outcome.next (codewordComplete_unlocated hread hloc smp), fun hloc => ⟨_, rfl, ?_⟩⟩
    obtain ⟨_, soft, ht, hlen, hnone, ch, ds, rt, rfl⟩ := codewordComplete_located hread hg hloc smp
    rw [ht]
    obtain ⟨gr, rq, hq⟩ := codewordQueued_frame
      { s with chan := ch, str.defects := ds, str.retiring := rt, freeCtr := s.freeCtr + 1 } j g.strength soft
    refine ⟨?_, ?_, ?_, fun l hl hph => ?_⟩
    · rw [hq]
      exact hnone
    · rw [hq]
    · rw [hq]
    · obtain ⟨c, hqueue, hreq, hidx, hpos, hact, rfl, hunsure, hstep, hent, hleaf⟩ := codewordQueued_reading
        (s := { s with chan := ch, str.defects := ds, str.retiring := rt, freeCtr := s.freeCtr + 1 }) hl hph g.strength soft
      refine ⟨c, hqueue, hreq, hidx, hpos, hact, hlen, hunsure, hstep, ?_, hstep ▸ hleaf⟩
      rw [hent, hstep]
      exact (firstStep_cases g.strength c.soft).imp (fun h => ⟨h, by rw [h]; rfl⟩) fun h => ⟨h, if_pos h⟩

end Sys2Proof.Machine
end

section
/-! PROOF. The statement about lanes and channel state records fails: an ash record's snapshots may take more than it allows. -/
namespace Sys2Proof.Machine
open Sys2Proof

/-! ## Restoring a channel state record (R101) -/

/-- A restore that is due, under a profile whose ASH_LIST for trigger 0043h names a bank-conflict counter of the HOB
(HOB 400h, R308, R500): the fourth codeword above 1.5 times the saved error power of head 0, zone 0. -/
def restoreWithConflictSnapshot : State :=
  { State.reset with
    chan.act := vmod State.reset.chan.act 0 fun c => { c with loaded := some (0, 0), highRun := 4 },
    prof.ashList := [(0x43, [(2, 0x400)])] }

/-- The snapshot reads the counter, and a counter read takes a free value (R31; log entry 74). -/
theorem channelStateRestore_conflictSnapshot_freeCtr :
    (channelStateRestore restoreWithConflictSnapshot 0).freeCtr = restoreWithConflictSnapshot.freeCtr + 1 := by
  decide +kernel

/-- Refutes O50 in its clause on CHANNEL_STATE_RESTORE, which lets the restore change nothing but the channels, the ash log and
the registers: its ash record reads the registers of the profile's ASH_LIST, and a bank-conflict counter among them grows and
uses up a free value. -/
theorem not_lanesAndChannelRecords : ¬ Obligations.LanesAndChannelRecords := by
  unfold Obligations.LanesAndChannelRecords
  rintro ⟨-, hrestore, -⟩
  obtain ⟨t, ht, -, hdue⟩ := hrestore restoreWithConflictSnapshot 0 0 0 rfl
  obtain ⟨-, -, -, hframe⟩ := hdue (Nat.le_refl 4)
  have hstep : channelStateRestore restoreWithConflictSnapshot 0 = t := Host.Outcome.next.inj ht
  have hsame : t.freeCtr = restoreWithConflictSnapshot.freeCtr := by rw [hframe]
  rw [← hstep, channelStateRestore_conflictSnapshot_freeCtr] at hsame
  exact absurd hsame (Nat.succ_ne_self _)

end Sys2Proof.Machine
end

section
/-! PROOF. What a head leaving service leaves of the write paths and of the heads' states. -/
namespace Sys2Proof.Machine
open Sys2Proof

/-! ## The leaf store's operations keep the write paths and the heads -/

/-- Every actuator's write path and every head's state are as they were. -/
structure SamePathsAndHeads (s t : State) : Prop where
  paths : t.wrt.act = s.wrt.act
  heads : t.str.heads = s.str.heads

namespace SamePathsAndHeads

theorem refl (s : State) : SamePathsAndHeads s s := ⟨rfl, rfl⟩

theorem trans {s t u : State} (h : SamePathsAndHeads s t) (k : SamePathsAndHeads t u) : SamePathsAndHeads s u :=
  ⟨k.paths.trans h.paths, k.heads.trans h.heads⟩

theorem foldl {α : Type} {f : State → α → State} (hf : ∀ s a, SamePathsAndHeads s (f s a)) (l : List α) (s : State) :
    SamePathsAndHeads s (l.foldl f s) :=
  foldl_frame SamePathsAndHeads refl (fun _ _ _ => trans) f hf l s

end SamePathsAndHeads

theorem stageNew_samePaths (s : State) (kind : LeafKind) (o v off r : Nat) (p key : List Byte) (a : Nat) :
    SamePathsAndHeads s (stageNew s kind o v off r p key a).1 := ⟨rfl, rfl⟩

theorem skipDead_samePaths (gid n : Nat) : ∀ s, SamePathsAndHeads s (skipDead gid n s) := by
  induction n with
  | zero => exact .refl
  | succ n ih =>
    intro s
    unfold skipDead
    split
    · exact .refl s
    · split
      · refine .trans ?_ (ih _)
        exact ⟨rfl, rfl⟩
      · exact .refl s

theorem groupFilled_samePaths (s : State) (gid : Nat) : SamePathsAndHeads s (groupFilled s gid) := by
  unfold groupFilled
  split
  · split <;> exact ⟨rfl, rfl⟩
  · exact .refl s

theorem formGroup_samePaths (s : State) (role : RingRole) (z : Option Nat) : SamePathsAndHeads s (formGroup s role z).1 := by
  unfold formGroup
  dsimp only
  split <;> exact ⟨rfl, rfl⟩

theorem groupFor_samePaths (s : State) (role : RingRole) (z : Option Nat) : SamePathsAndHeads s (groupFor s role z).1 := by
  unfold groupFor
  split
  · next g _ =>
    have h := skipDead_samePaths g.id 8192 s
    dsimp only
    split
    · split
      · exact h
      · exact (h.trans (groupFilled_samePaths _ _)).trans (formGroup_samePaths _ role z)
    · exact h
  · exact formGroup_samePaths s role z

theorem placeIn_samePaths (s : State) (gid uid : Nat) : SamePathsAndHeads s (placeIn s gid uid) := by
  have h := skipDead_samePaths gid 8192 s
  unfold placeIn
  generalize skipDead gid 8192 s = u at h
  dsimp only
  split
  · exact h
  · refine (h.trans ?_).trans (groupFilled_samePaths _ gid)
    split <;> exact ⟨rfl, rfl⟩

theorem formLeaf_samePaths (s : State) (uid : Nat) : SamePathsAndHeads s (formLeaf s uid) := by
  unfold formLeaf
  split
  · next l _ =>
    have h := groupFor_samePaths s (if l.kind = .index then .index else .data) (zoneOfId l.objectId)
    split
    · exact .refl s
    · split
      · next t g e => exact .trans (by simpa only [e] using h) (placeIn_samePaths t g.id uid)
      · next t e => simpa only [e] using h
  · exact .refl s

theorem idxAdd_samePaths (s : State) (key : List Byte) (accept : Nat) (r : List Byte) :
    SamePathsAndHeads s (idxAdd s key accept r) := by
  unfold idxAdd
  split
  · exact ⟨rfl, rfl⟩
  · dsimp only
    split
    · next l _ => exact (formLeaf_samePaths s l.uid).trans (stageNew_samePaths _ _ _ _ _ _ _ _ _)
    · exact stageNew_samePaths s _ _ _ _ _ _ _ _

theorem idxWrite_samePaths (s : State) (key : List Byte) (accept : Nat) (recs : List (List Byte)) :
    SamePathsAndHeads s (idxWrite s key accept recs) :=
  .trans (t := { s with str.newGroups := [] }) ⟨rfl, rfl⟩
    ((SamePathsAndHeads.foldl (fun s r => idxAdd_samePaths s [] 0 r) _ _).trans
      (SamePathsAndHeads.foldl (fun s r => idxAdd_samePaths s key accept r) recs _))

theorem groupFull_samePaths (s : State) (gid : Nat) : SamePathsAndHeads s (groupFull s gid) := by
  refine .trans (t := groupDue (onGroup s gid fun g => { g with state := .full }) gid) ⟨rfl, rfl⟩ ?_
  unfold groupFull idxPending
  split
  · exact .refl _
  · dsimp only
    split
    · exact idxWrite_samePaths _ [] 0 []
    · exact .refl _

theorem emberCopy_samePaths (s : State) (uid : Nat) : SamePathsAndHeads s (emberCopy s uid) := by
  unfold emberCopy
  split
  · exact .refl s
  · split
    · exact .refl s
    · split <;> exact ⟨rfl, rfl⟩

/-! ## Write paths by number -/

theorem wrAt_onWr_same (s : State) {a : Nat} (h : a < 4) (f : WrAct → WrAct) : wrAt (onWr s a f) a = f (wrAt s a) :=
  vget_vmod_same _ h f _

theorem wrAt_congr {s t : State} (h : t.wrt.act = s.wrt.act) (a : Nat) : wrAt t a = wrAt s a := by
  unfold wrAt
  rw [h]

theorem headState_congr {s t : State} (h : t.str.heads = s.str.heads) (f : Nat) : headState t f = headState s f := by
  unfold headState
  rw [h]

/-! ## A head leaving service (R252) -/

/-- Of a write path at most the frames held, in progress and awaiting their verify differ, and no frame has started. -/
structure OnlyDrops (w x : WrAct) : Prop where
  rest : x = { w with buffer := x.buffer, frame := x.frame, verify := x.verify }
  idle : w.frame = none → x.frame = none

namespace OnlyDrops

theorem refl (w : WrAct) : OnlyDrops w w := ⟨rfl, id⟩

theorem trans {w x y : WrAct} (h : OnlyDrops w x) (k : OnlyDrops x y) : OnlyDrops w y :=
  ⟨k.rest.trans (congrArg (fun x => { x with buffer := y.buffer, frame := y.frame, verify := y.verify }) h.rest), k.idle ∘ h.idle⟩

end OnlyDrops

/-- At the same time, write paths have at most dropped frames, and no head has come into service. -/
structure DropsFrames (s t : State) : Prop where
  time : t.time = s.time
  paths : ∀ a, OnlyDrops (wrAt s a) (wrAt t a)
  heads : ∀ f, headState s f ≠ .inService → headState t f ≠ .inService

namespace DropsFrames

theorem of_same {s t : State} (ht : t.time = s.time) (h : SamePathsAndHeads s t) : DropsFrames s t := by
  refine ⟨ht, fun a => ?_, fun f hf => ?_⟩
  · rw [wrAt_congr h.paths]
    exact .refl _
  · rwa [headState_congr h.heads]

theorem refl (s : State) : DropsFrames s s := .of_same rfl (.refl s)

theorem trans {s t u : State} (h : DropsFrames s t) (k : DropsFrames t u) : DropsFrames s u :=
  ⟨k.time.trans h.time, fun a => (h.paths a).trans (k.paths a), fun f hf => k.heads f (h.heads f hf)⟩

theorem foldl {α : Type} {f : State → α → State} (hf : ∀ s a, DropsFrames s (f s a)) (l : List α) (s : State) :
    DropsFrames s (l.foldl f s) :=
  foldl_frame DropsFrames refl (fun _ _ _ => trans) f hf l s

end DropsFrames

theorem headState_set_same (s : State) {f : Nat} (h : f < 32) (st : HeadState) :
    headState { s with str.heads := vset s.str.heads f st } f = st :=
  vget_vmod_same _ h (fun _ => st) _

/-- A head set to a state that is not in service comes into service nowhere. -/
theorem headState_set_out {s : State} {f g : Nat} {st : HeadState} (h : st ≠ .inService) (hg : headState s g ≠ .inService) :
    headState { s with str.heads := vset s.str.heads f st } g ≠ .inService := by
  by_cases e : g = f
  · subst e
    by_cases hf : g < 32
    · rwa [headState_set_same s hf]
    · simpa [headState, vset, hf] using hg
  · exact (vget_vmod_other s.str.heads e (fun _ => st) .absent).trans_ne hg

/-- What `headChange` leaves after it has dropped the surface's frames: the groups it closes, ember copies, the event and the
fault. -/
theorem headChange_cases (s : State) (f : Nat) (st : HeadState) :
    (headChange s f st = s ∧ (st ≠ .inService → headState s f ≠ .inService)) ∨
      (st ≠ .inService ∧ SamePathsAndHeads (dropJobs { s with str.heads := vset s.str.heads f st } f) (headChange s f st)) := by
  unfold headChange
  extract_lets old code
  split
  · next h =>
    refine .inl ⟨rfl, fun hst hs => hst ?_⟩
    rw [show old = HeadState.inService from hs] at h
    cases st <;> simp [code] at h ⊢
  next cap opened undone jobs cut stripes embers _ s1 s2 _ s3 s4 _ s5 h =>
    refine .inr ⟨fun e => h (e ▸ Nat.zero_le _), ?_⟩
    have h2 : SamePathsAndHeads s1 s2 := .foldl (fun s (g : Group) => groupFull_samePaths s g.id) _ _
    have h3 : SamePathsAndHeads s2 s3 := ⟨rfl, rfl⟩
    have h4 : SamePathsAndHeads s3 s4 := .foldl emberCopy_samePaths _ _
    have h5 : SamePathsAndHeads s4 s5 := by
      unfold s5
      split <;> exact ⟨rfl, rfl⟩
    refine h2.trans (h3.trans (h4.trans (h5.trans ?_)))
    obtain ⟨w, a, r, n, c, k⟩ := fault1_frame s5 (.head f) 0x21 [f, code old, code st] (.headState f st)
    rw [k]
    exact ⟨rfl, rfl⟩

theorem headChange_time (s : State) (f : Nat) (st : HeadState) : (headChange s f st).time = s.time := by
  rw [headChange_onlyService s f st]

theorem dropJobs_onlyDrops (s : State) (f a : Nat) : OnlyDrops (wrAt s a) (wrAt (dropJobs s f) a) := by
  rw [show wrAt (dropJobs s f) a = _ from vget_map s.wrt.act _ a {}]
  refine ⟨rfl, fun h => ?_⟩
  rw [show (vget s.wrt.act a {}).frame = none from h]
  rfl

theorem headChange_dropsFrames (s : State) (f : Nat) (st : HeadState) : DropsFrames s (headChange s f st) := by
  obtain ⟨h, -⟩ | ⟨hst, hsame⟩ := headChange_cases s f st
  · rw [h]
    exact .refl s
  · refine ⟨headChange_time s f st, fun a => ?_, fun g hg => ?_⟩
    · rw [wrAt_congr hsame.paths]
      exact dropJobs_onlyDrops _ f a
    · exact (headState_congr hsame.heads g).trans_ne (headState_set_out hst hg)

/-- A head told to leave service is not in service. -/
theorem headChange_leaves (s : State) {f : Nat} (hf : f < 32) {st : HeadState} (hst : st ≠ .inService) :
    headState (headChange s f st) f ≠ .inService := by
  obtain ⟨h, hs⟩ | ⟨-, hsame⟩ := headChange_cases s f st
  · rw [h]
    exact hs hst
  · exact (headState_congr hsame.heads f).trans_ne ((headState_set_same s hf st).trans_ne hst)

theorem readersCheck_dropsFrames (s : State) (f : Nat) : DropsFrames s (readersCheck s f) := by
  unfold readersCheck
  dsimp only
  split
  · exact headChange_dropsFrames _ _ _
  · exact .refl s

theorem readerBad_dropsFrames (s : State) (f : Nat) (trail : Bool) : DropsFrames s (readerBad s f trail) := by
  unfold readerBad
  split
  · exact .refl s
  · refine .trans (.of_same ?_ ?_) (readersCheck_dropsFrames _ f)
    · rfl
    · exact ⟨rfl, rfl⟩

/-- A write path goes out of service, with all its heads, and keeps its slips (R112). -/
theorem writePathOut_leaves (s : State) {a : Nat} (ha : a < 4) :
    (wrAt (writePathOut s a) a).outOfService = true ∧ (wrAt (writePathOut s a) a).slips = (wrAt s a).slips := by
  have key {t : State} (h : DropsFrames (onWr s a fun w => { w with outOfService := true }) t) :
      (wrAt t a).outOfService = true ∧ (wrAt t a).slips = (wrAt s a).slips := by
    have hx := (h.paths a).rest
    rw [wrAt_onWr_same s ha] at hx
    rw [hx]
    exact ⟨rfl, rfl⟩
  unfold writePathOut
  split
  · next h => exact ⟨h, rfl⟩
  · exact key (.foldl (fun s h => headChange_dropsFrames s (8 * a + h) .readOnly) _ _)

end Sys2Proof.Machine
end

section
/-! PROOF. Encoding a leaf, and starting its frame. -/
namespace Sys2Proof.Machine
open Sys2Proof

/-! ## Encoding (R30, R112) -/

/-- The codeword that an encoder makes of a job's leaf, wrong at the given places. -/
def jobCodeword (j : FrameJob) (flips : List Nat) : List Bool := flipBits (encodeLeaf j.leaf.strength (leafBytes j.leaf)) flips

/-- A leaf held with its codeword: a row of failures goes on only where it is the leaf that failed. -/
def encodeHeld (j : FrameJob) (cw : List Bool) (w : WrAct) : WrAct :=
  { w with buffer := w.buffer ++ [(j, cw)], encFails := if w.encAgain = some j.pos then w.encFails else 0, encAgain := none }

/-- A leaf whose syndrome is not zero: a slip is counted and the leaf is encoded again. -/
def encodeFailed (j : FrameJob) (w : WrAct) : WrAct :=
  { w with slips := satInc w.slips, encFails := w.encFails + 1, encAgain := some j.pos }

section
variable {s : State} {a : Fin 4} {i : Nat} {j : FrameJob} {flips : List Nat} (h : nextJob s a = some (i, j))
include h

theorem leafEncode_full (hf : 2 ≤ wrHeld (wrAt s a) ∨ (wrAt s a).outOfService = true) : leafEncode s a flips = s := by
  simp only [leafEncode, h]
  exact if_pos hf

variable (hr : wrHeld (wrAt s a) < 2) (ho : (wrAt s a).outOfService = false)
include hr ho

theorem leafEncode_holds (hz : syndromeZero j.leaf.strength (jobCodeword j flips) = true) :
    wrAt (leafEncode s a flips) a = encodeHeld j (jobCodeword j flips) (wrAt s a) ∧
      (leafEncode s a flips).wrt.queue = s.wrt.queue.eraseIdx i ∧
      leafEncode s a flips = { s with wrt := (leafEncode s a flips).wrt } := by
  have hf : ¬(2 ≤ wrHeld (wrAt s a) ∨ (wrAt s a).outOfService = true) := by simp [ho, hr]
  unfold jobCodeword at hz
  simp only [leafEncode, h, if_neg hf, if_pos hz, decide_eq_true_eq]
  exact ⟨wrAt_onWr_same { s with wrt.queue := s.wrt.queue.eraseIdx i } a.isLt _, rfl, rfl⟩

/-- A second failure in succession, as `encFails` counts them, takes the write path out of service (R112). -/
theorem leafEncode_fails (hz : syndromeZero j.leaf.strength (jobCodeword j flips) = false) :
    leafEncode s a flips =
      if (wrAt s a).encFails = 0 then onWr s a (encodeFailed j) else writePathOut (onWr s a (encodeFailed j)) a := by
  have hf : ¬(2 ≤ wrHeld (wrAt s a) ∨ (wrAt s a).outOfService = true) := by simp [ho, hr]
  unfold jobCodeword at hz
  simp only [leafEncode, h, if_neg hf, hz, Bool.false_eq_true, if_false]
  by_cases h0 : (wrAt s a).encFails = 0
  · rw [if_pos h0, if_neg (by omega)]
    rfl
  · rw [if_neg h0, if_pos (by omega)]
    rfl

end

/-! ## A frame starts (R146, R149) -/

theorem onWr_onWr (s : State) (a : Fin 4) (f g : WrAct → WrAct) : onWr (onWr s a f) a g = onWr s a (g ∘ f) := by
  simp [onWr, vmod]

/-- The conditions of a frame's start (R146). -/
theorem frameMayStart_iff {s : State} {a : Fin 4} {j : FrameJob} {rate : Qty} : frameMayStart s a j rate = true ↔
    blkEn s (6 + a.val) = true ∧ speedAllows s j rate = true ∧ s.srv.loop[a].wrPermit = true ∧ s.srv.loop[a].inhibit = false ∧
      (wrAt s a).changePend = false ∧ (wrAt s a).holdUntil = none ∧ (wrAt s a).paReady ≤ s.time ∧
      (wrAt s a).paSel = some (j.pos.surface % 8) ∧ s.srv.loop[a].surface = j.pos.surface ∧ headWrites s j.pos.surface = true ∧
      (wrAt s a).readback = [] ∧ ringAllows s j.pos = true ∧ trackTarget s j.pos true = some s.srv.loop[a].target ∧
      ∃ p, predictedStart s j.pos = some p ∧ s.srv.loop[a].wedge = some p.1 := by
  have hl : vget s.srv.loop a {} = s.srv.loop[a] := vget_eq_getElem _ a.isLt _
  simp only [frameMayStart, hl]
  cases predictedStart s j.pos <;> simp [and_assoc]

/-- One of the conditions of a frame's start fails: the frame does not start. -/
theorem frameMayStart_refused {s : State} {a : Fin 4} {j : FrameJob} {rate : Qty}
    (h : s.srv.loop[a].wrPermit = false ∨ s.srv.loop[a].inhibit = true ∨ (wrAt s a).changePend = true ∨ speedAllows s j rate = false ∨
      (wrAt s a).readback ≠ [] ∨ blkEn s (6 + a.val) = false ∨ trackTarget s j.pos true ≠ some s.srv.loop[a].target ∨
      (predictedStart s j.pos).map (·.1) ≠ s.srv.loop[a].wedge ∨ ringAllows s j.pos = false) :
    frameMayStart s a j rate = false := by
  rw [Bool.eq_false_iff, Ne, frameMayStart_iff]
  rintro ⟨hen, hv, hp, hi, hc, -, -, -, -, -, hrb, hring, htrk, p, hpred, hw⟩
  simp [-Fin.getElem_fin, hen, hv, hp, hi, hc, hrb, hring, htrk, hpred, hw] at h

/-- A ring read after it is changed. -/
theorem ringAt_onRing_same {s : State} {f r : Nat} {g : Ring} (h : ringAt s f r = some g) (u : Ring → Ring) :
    ringAt (onRing s f r u) f r = some (u g) := by
  obtain ⟨e, he, rfl⟩ := Option.map_eq_some_iff.mp h
  have hkey : e.1 = (f, r) := by simpa using List.find?_some he
  have hsame : ((fun x : (Nat × Nat) × Ring => decide (x.1 = (f, r))) ∘ fun x => if x.1 = (f, r) then (x.1, u x.2) else x) =
      fun x => decide (x.1 = (f, r)) := by
    funext x
    by_cases hx : x.1 = (f, r) <;> simp [hx]
  simp only [ringAt, onRing, List.find?_map, hsame, he, Option.map_some, if_pos hkey]

section
variable {s : State} {a : Fin 4} {rate : Qty} {j : FrameJob} {cw : List Bool} {rest : List (FrameJob × List Bool)}
  (hb : (wrAt s a).buffer = (j, cw) :: rest) (hf : (wrAt s a).frame = none)
include hb hf

/-- The leaf's frame is in progress, write gate high, and the write pointer past its slot. -/
theorem frameWrite_starts (h : frameMayStart s a j rate = true) :
    frameWrite s a rate = onRing
      (onWr s a fun w => { w with buffer := rest, frame := some (j, cw), gate := true, pulses := framePulses s a j cw w.gate false })
      j.pos.surface j.pos.ring fun r => { r with wp := max r.wp (j.pos.slot + 1) } := by
  simp only [frameWrite, hb, hf, if_pos h]

theorem frameWrite_refused (h : frameMayStart s a j rate = false) :
    frameWrite s a rate = if j.fails ≠ 0 ∧ ringAllows s j.pos = false then
      cornerPump (verifyGivenUp (onWr s a fun w => { w with gate := false, buffer := rest }) j) else gateFall s a := by
  have hring : ringAllows (gateFall s a) j.pos = ringAllows s j.pos := rfl
  simp only [frameWrite, hb, hf, h, Bool.false_eq_true, if_false, Bool.not_eq_true, hring]
  rw [show gateFall s a = onWr s a fun w => { w with gate := false } from rfl, onWr_onWr]
  rfl

end

/-- A queued leaf that is held too late, when leaves wait for neither a speed change nor the window (R147). -/
abbrev SlipsRevolution (s : State) (a : Nat) : Prop :=
  (nextJob s a).isSome = true ∧ (wrAt s a).changePend = false ∧ (s.pwr.banking = true ∨ windowOpen s = true)

theorem not_speedWaits_gateFall (s : State) {a : Nat} (h : a < 4) :
    ¬ speedWaits (gateFall s a) a = true ↔ (wrAt s a).changePend = false ∧ (s.pwr.banking = true ∨ windowOpen s = true) := by
  have hw : wrAt (gateFall s a) a = { wrAt s a with gate := false } := wrAt_onWr_same s h _
  have hbk : (gateFall s a).pwr.banking = s.pwr.banking := rfl
  have hwin : windowOpen (gateFall s a) = windowOpen s := rfl
  unfold speedWaits
  rw [hw, hbk, hwin]
  cases s.pwr.banking <;> simp

/-- With no leaf held write gate falls, and the revolution slips where a queued leaf is late (R29). -/
theorem frameWrite_empty {s : State} {a : Fin 4} (rate : Qty) (hb : (wrAt s a).buffer = []) (hf : (wrAt s a).frame = none) :
    (SlipsRevolution s a → frameWrite s a rate = onWr s a fun w => { w with gate := false, slips := satInc w.slips }) ∧
      (¬ SlipsRevolution s a → frameWrite s a rate = gateFall s a) := by
  have hw : (nextJob (gateFall s a) a).isSome = true ∧ ¬ speedWaits (gateFall s a) a = true ↔ SlipsRevolution s a :=
    and_congr_right fun _ => not_speedWaits_gateFall s a.isLt
  simp only [frameWrite, hb, hf]
  refine ⟨fun h => ?_, fun h => if_neg (mt hw.mp h)⟩
  rw [if_pos (hw.mpr h), show gateFall s a = onWr s a fun w => { w with gate := false } from rfl, onWr_onWr]
  rfl

end Sys2Proof.Machine
end

section
/-! PROOF. A frame ends, and the verify read of its leaf. -/
namespace Sys2Proof.Machine
open Sys2Proof

/-! ## Staged leaves made clean (R397) -/

/-- No staged leaf of a name is dirty. -/
def StagedClean (s : State) (u : Nat) : Prop := ∀ l ∈ s.stg.leaves, l.uid = u → l.dirty = false

theorem StagedClean.stagedBy {s : State} {u : Nat} (h : StagedClean s u) {l : StagedLeaf} (hl : stagedBy s u = some l) :
    l.dirty = false :=
  h l (List.mem_of_find?_eq_some hl) (by simpa using List.find?_some hl)

theorem leafDurable_clean (s : State) (u : Nat) : StagedClean (leafDurable s u) u := by
  intro l hl hu
  obtain ⟨x, -, rfl⟩ := List.mem_map.mp hl
  by_cases hx : x.uid = u
  · rw [if_pos hx]
  · rw [if_neg hx] at hu
    exact absurd hu hx

/-- A staged leaf that loses its ember copies and its MRAM space stays clean. -/
theorem onStaged_clean {s : State} {u : Nat} (h : StagedClean s u) (v : Nat) {f : StagedLeaf → StagedLeaf}
    (hf : ∀ l, (f l).uid = l.uid ∧ (f l).dirty = l.dirty) : StagedClean (onStaged s v f) u := by
  intro l hl hu
  obtain ⟨x, hx, rfl⟩ := List.mem_map.mp hl
  obtain ⟨hid, hd⟩ := hf x
  by_cases hv : x.uid = v
  · rw [if_pos hv] at hu ⊢
    exact hd.trans (h x hx (hid.symm.trans hu))
  · rw [if_neg hv] at hu ⊢
    exact h x hx hu

theorem slotXor_leaves (g : StgS) (u : Nat) (d : List Byte) : (slotXor g u d).leaves = g.leaves := by
  unfold slotXor
  split <;> rfl

theorem slotFree_leaves (g : StgS) (u : Nat) (b : List Byte) : (slotFree g u b).leaves = g.leaves := slotXor_leaves g u b

theorem stagedKeep_leaves (s : State) (keep : StagedLeaf → Bool) : (stagedKeep s keep).stg.leaves = s.stg.leaves.filter keep := by
  have h (ls : List StagedLeaf) : ∀ g : StgS, (ls.foldl (fun g l => slotFree g l.uid l.payload) g).leaves = g.leaves := by
    induction ls with
    | nil => exact fun _ => rfl
    | cons l ls ih => exact fun g => (ih _).trans (slotFree_leaves g _ _)
  exact h _ _

theorem releaseStaged_clean {s : State} {u : Nat} (h : StagedClean s u) : StagedClean (releaseStaged s) u := by
  intro l hl
  unfold releaseStaged at hl
  rw [stagedKeep_leaves] at hl
  exact h l (List.mem_of_mem_filter hl)

theorem releaseStaged_keeps (s : State) : (releaseStaged s).wrt = s.wrt ∧ (releaseStaged s).grt = s.grt ∧
    (releaseStaged s).media = s.media := ⟨rfl, rfl, rfl⟩

/-! ## A frame ends (R148, R151) -/

theorem mediaAt_congr {s t : State} (h : t.media = s.media) (p : Pos) : mediaAt t p = mediaAt s p := by
  unfold mediaAt
  rw [h]

theorem mediaAt_mediaPut_same (s : State) (f : Frame) : mediaAt (mediaPut s f) f.pos = some f := by
  simp [mediaAt, mediaPut]

theorem mediaAt_mediaPut_other (s : State) (f : Frame) {p : Pos} (h : p ≠ f.pos) : mediaAt (mediaPut s f) p = mediaAt s p := by
  unfold mediaAt mediaPut
  rw [List.find?_cons_of_neg (by simpa using h.symm), List.find?_filter]
  refine congrArg (List.find? · s.media.frames) (funext fun g => ?_)
  by_cases hg : g.pos = p <;> simp [hg, h]

/-- The frame's bits stand on the media; write gate falls unless the next slot is written at once. -/
def frameEnded (s : State) (a : Nat) (j : FrameJob) (cw : List Bool) : State :=
  let s := onWr s a fun w => { w with frame := none }
  let go := nextAtOnce s a j.pos
  let s := onWr s a fun w =>
    { w with gate := go, pulses := framePulses s a j cw (w.pulses.head?.any fun p => p.rise.isNone) (!go) }
  mediaPut s ⟨j.pos, j.leaf, frameStream j.pos j.leaf cw, true⟩

/-- A leaf whose frame has ended counts as written or awaits its verify (Table 6.3). -/
def leafLanded (s : State) (a : Nat) (j : FrameJob) : State :=
  if needsVerify s j then onWr s a fun w => { w with verify := w.verify ++ [j] }
  else if j.leaf.kind = .ember then emberWritten s j
  else releaseStaged (match j.uid with | some u => leafDurable s u | none => s)

theorem frameWriteComplete_eq {s : State} {a : Fin 4} {j : FrameJob} {cw : List Bool} (h : (wrAt s a).frame = some (j, cw)) :
    frameWriteComplete s a = leafLanded (frameEnded s a j cw) a j := by
  unfold frameWriteComplete
  rw [h]
  rfl

theorem nextAtOnce_empty {s : State} {a : Nat} (h : (wrAt s a).buffer = []) (p : Pos) : nextAtOnce s a p = false := by
  unfold nextAtOnce
  rw [h]

/-- An ended frame leaves its write path with no frame, and write gate low where no leaf is held. -/
theorem wrAt_frameEnded (s : State) (a : Fin 4) (j : FrameJob) (cw : List Bool) :
    let x := wrAt (frameEnded s a j cw) a
    x = { wrAt s a with frame := none, gate := x.gate, pulses := x.pulses } ∧ ((wrAt s a).buffer = [] → x.gate = false) := by
  intro x
  have hx : x = _ := (congrArg (wrAt · a) (onWr_onWr s a _ _)).trans (wrAt_onWr_same s a.isLt _)
  have h1 := wrAt_onWr_same s a.isLt fun w => { w with frame := none }
  rw [hx]
  exact ⟨rfl, fun hb => nextAtOnce_empty ((congrArg WrAct.buffer h1).trans hb) j.pos⟩

theorem emberWritten_keeps (s : State) (j : FrameJob) : (emberWritten s j).wrt = s.wrt ∧ (emberWritten s j).media = s.media := by
  unfold emberWritten
  split
  · exact ⟨rfl, rfl⟩
  · dsimp only
    split
    · split <;> exact ⟨rfl, rfl⟩
    · exact ⟨rfl, rfl⟩

/-- A landed leaf awaits its verify on its write path; else no write path changes, and it is clean unless it is an ember copy. -/
theorem leafLanded_cases (s : State) (a : Nat) (j : FrameJob) :
    leafLanded s a j = onWr s a (fun w => { w with verify := w.verify ++ [j] }) ∨
      (leafLanded s a j).wrt = s.wrt ∧ (leafLanded s a j).media = s.media ∧
        (j.leaf.kind ≠ .ember → ∀ u, j.uid = some u → StagedClean (leafLanded s a j) u) := by
  unfold leafLanded
  split
  · exact .inl rfl
  · split
    · next hk =>
      obtain ⟨hw, hm⟩ := emberWritten_keeps s j
      exact .inr ⟨hw, hm, fun hn => absurd hk hn⟩
    · obtain ⟨hw, -, hm⟩ := releaseStaged_keeps (match j.uid with | some u => leafDurable s u | none => s)
      refine .inr ⟨hw.trans ?_, hm.trans ?_, fun _ u hu => ?_⟩
      · split <;> rfl
      · split <;> rfl
      · rw [hu]
        exact releaseStaged_clean (leafDurable_clean s u)

/-! ## Verify reads (R151, R152) -/

/-- Soft values of a data leaf decode at step 0 within the corrected-event limit to a leaf that passes its checks (R151). -/
def verifyOk (s : State) (j : FrameJob) (soft : Option (List Soft)) : Bool :=
  let d := (soft.map (decodeSoft j.leaf.strength 0 (iterFirst s))).getD default
  soft.isSome && decide (d.status = 0) && leafPasses j.pos [j.leaf.kind] (some (j.leaf.stripe, j.leaf.piece)) (leafOfBytes d.info) &&
    decide (d.iter ≤ ceIter s)

/-- The counters of chapter 5 alone note a verify that fails. -/
theorem verifyDecode_eq (s : State) {j : FrameJob} (soft : Option (List Soft)) (hk : j.leaf.kind ≠ .cornerstone) :
    ∃ g, verifyDecode s j soft = ({ s with grt := g }, verifyOk s j soft) ∧ g.queue = s.grt.queue ∧
      (verifyOk s j soft = true → g = s.grt) := by
  unfold verifyDecode verifyOk
  cases soft with
  | none => exact ⟨s.grt, rfl, rfl, fun _ => rfl⟩
  | some x =>
    dsimp only [Option.map_some, Option.getD_some]
    rw [if_neg hk]
    generalize decodeSoft j.leaf.strength 0 (iterFirst s) x = d
    split
    · next h => exact ⟨s.grt, by simp [h], rfl, fun _ => rfl⟩
    · next h =>
      split
      · next hp => exact ⟨{ s.grt with miscor := satInc s.grt.miscor }, by simp [hp], rfl, by simp [hp]⟩
      · next hp =>
        split
        · next hi =>
          exact ⟨(ceEvent s j.pos 0 d.iter d.corrected).grt, by simp [Nat.not_le.mpr hi]; rfl, rfl, by simp [Nat.not_le.mpr hi]⟩
        · next hi => exact ⟨s.grt, by simp [not_not.mp h, not_not.mp hp, Nat.not_lt.mp hi], rfl, fun _ => rfl⟩

/-- Queueing the next cornerstone copies changes the write queue, the list of copies, the write sequence and free values. -/
theorem cornerPump_frame (s : State) : ∃ q c w n,
    cornerPump s = { s with wrt.queue := q, str.corner := c, str.wseq := w, freeCtr := n } := by
  refine foldl_frame (fun s t => ∃ q c w n, t = { s with wrt.queue := q, str.corner := c, str.wseq := w, freeCtr := n })
    (fun s => ⟨_, _, _, _, rfl⟩) ?_ _ (fun s f => ?_) _ s
  · rintro s t u ⟨_, _, _, _, rfl⟩ ⟨q, c, w, n, rfl⟩
    exact ⟨q, c, w, n, rfl⟩
  · split
    · exact ⟨_, _, _, _, rfl⟩
    · split
      · unfold cornerWrite
        split <;> exact ⟨_, _, _, _, rfl⟩
      · exact ⟨_, _, _, _, rfl⟩

theorem cornerPump_keeps (s : State) :
    (cornerPump s).wrt.act = s.wrt.act ∧ (cornerPump s).grt = s.grt ∧ (cornerPump s).stg = s.stg := by
  obtain ⟨q, c, w, n, h⟩ := cornerPump_frame s
  rw [h]
  exact ⟨rfl, rfl, rfl⟩

/-- A leaf that passes its verify is clean; no write path and no grate changes. -/
theorem verifyPassed_leaves (s : State) (j : FrameJob) :
    (verifyPassed s j).wrt = s.wrt ∧ (verifyPassed s j).grt = s.grt ∧ ∀ u, j.uid = some u → StagedClean (verifyPassed s j) u := by
  unfold verifyPassed
  split
  · next u hu =>
    have hclean := releaseStaged_clean (onStaged_clean (leafDurable_clean s u) u
      (f := fun l => { l with emberCopies := [], mramGroup := none }) fun _ => ⟨rfl, rfl⟩)
    obtain ⟨hw, hg, -⟩ := releaseStaged_keeps (onStaged (leafDurable s u) u fun l => { l with emberCopies := [], mramGroup := none })
    refine ⟨hw, hg, fun v hv => ?_⟩
    obtain rfl : u = v := Option.some.inj (hu.symm.trans hv)
    exact hclean
  · next hn => exact ⟨rfl, rfl, fun u hu => nomatch hn.symm.trans hu⟩

/-- A leaf to be written again leads the queue; the write buffers hold nothing of its ring (R149). -/
theorem rewriteFirst_leaves (s : State) (j : FrameJob) :
    (∃ back, (rewriteFirst s j).wrt.queue = j :: (back ++ s.wrt.queue) ∧
      ∀ k ∈ back, k.pos.surface = j.pos.surface ∧ k.pos.ring = j.pos.ring) ∧
    (∀ b, ∃ q, wrAt (rewriteFirst s j) b = { wrAt s b with buffer := q } ∧
      ∀ k ∈ q, ¬(k.1.pos.surface = j.pos.surface ∧ k.1.pos.ring = j.pos.ring)) ∧
    rewriteFirst s j = { s with wrt := (rewriteFirst s j).wrt } := by
  refine ⟨⟨_, rfl, fun k hk => ?_⟩, fun b => ⟨_, vget_map s.wrt.act _ b {}, fun k hk => ?_⟩, rfl⟩
  · obtain ⟨w, -, hw⟩ := List.mem_flatMap.mp hk
    simpa using (List.mem_filter.mp hw).2
  · exact of_decide_eq_true (List.mem_filter.mp hk).2

/-- The slot's ring still takes it: a conventional ring any slot, a shingled one the slot just below its write pointer (R150). -/
def TakesAgain (s : State) (p : Pos) : Prop :=
  ∃ g, ringAt s p.surface p.ring = some g ∧ (conventional g.role = true ∨ p.slot + 1 = g.wp)

/-- The leaf read back awaits its verify no more. -/
def verifyTaken (i : Nat) (w : WrAct) : WrAct := { w with verify := w.verify.eraseIdx i }

/-- The leaf read back awaits its verify no more, and its failure is counted. -/
def verifyFailed (i : Nat) (w : WrAct) : WrAct := { w with verify := w.verify.eraseIdx i, verifyFail := satInc w.verifyFail }

section
variable {s : State} {a : Fin 4} {i : Nat} {j : FrameJob} {soft : Option (List Soft)} (h : (wrAt s a).verify[i]? = some j)
  (hk : j.leaf.kind ≠ .cornerstone)
include h hk

/-- A verify that passes: its counters stand, and the leaf is clean. -/
theorem verifyRead_passes (hok : verifyOk s j soft = true) :
    (wrAt (verifyRead s a i soft) a).verifyFail = (wrAt s a).verifyFail ∧ (verifyRead s a i soft).grt = s.grt ∧
      ∀ u, j.uid = some u → StagedClean (verifyRead s a i soft) u := by
  have hw := wrAt_onWr_same s a.isLt (verifyTaken i)
  obtain ⟨g, hd, -, hg⟩ := verifyDecode_eq (onWr s a (verifyTaken i)) soft hk
  obtain rfl := hg hok
  obtain ⟨hwrt, hgrt, hclean⟩ := verifyPassed_leaves (onWr s a (verifyTaken i)) j
  have ht : verifyRead s a i soft = cornerPump (verifyPassed (onWr s a (verifyTaken i)) j) := by
    unfold verifyRead
    rw [h]
    dsimp only
    rw [show verifyDecode (onWr s a fun w => { w with verify := w.verify.eraseIdx i }) j soft = _ from hd]
    exact if_pos hok
  obtain ⟨hact, hgrt', hstg⟩ := cornerPump_keeps (verifyPassed (onWr s a (verifyTaken i)) j)
  rw [ht]
  refine ⟨?_, hgrt'.trans hgrt, fun u hu => ?_⟩
  · rw [wrAt_congr hact, wrAt_congr (congrArg WrtS.act hwrt), hw]
    rfl
  · unfold StagedClean
    rw [hstg]
    exact hclean u hu

/-- A first failure on a ring that takes the slot again: counted, and the leaf is queued again (R152). -/
theorem verifyRead_again (hok : verifyOk s j soft = false) (hf : j.fails = 0) (hr : TakesAgain s j.pos) :
    ∃ g, g.queue = s.grt.queue ∧ verifyRead s a i soft =
      rewriteFirst (onWr { s with grt := g } a (verifyFailed i)) { j with fails := 1 } := by
  obtain ⟨g, hd, hq, -⟩ := verifyDecode_eq (onWr s a (verifyTaken i)) soft hk
  obtain ⟨r, hring, hr⟩ := hr
  refine ⟨g, hq, ?_⟩
  unfold verifyRead
  rw [h]
  dsimp only
  rw [show verifyDecode (onWr s a fun w => { w with verify := w.verify.eraseIdx i }) j soft = _ from hd,
    show verifyOk (onWr s a (verifyTaken i)) j soft = false from hok,
    show onWr { onWr s a (verifyTaken i) with grt := g } a
      (fun w => { w with verifyFail := satInc w.verifyFail }) = _ from onWr_onWr { s with grt := g } a _ _]
  have hring' : ∀ f, ringAt (onWr { s with grt := g } a f) j.pos.surface j.pos.ring = some r := fun _ => hring
  simp only [Bool.false_eq_true, if_false, if_neg hk, hf, hring', hr, decide_true, Bool.true_and, Bool.or_eq_true, decide_eq_true_eq,
    if_true]
  rfl

end

end Sys2Proof.Machine
end

section
/-! PROOF. Preamplifier faults: the flags acted on. -/
namespace Sys2Proof.Machine
open Sys2Proof

/-! ## The flags of Table 6.5 (R156) -/

/-- The flags that take a head's writing or a reader from service. -/
def paHeads (s : State) (f : Nat) (flags : BitVec 8) : State :=
  let s := if flags.getLsbD 0 ∨ flags.getLsbD 1 ∨ flags.getLsbD 4 then headChange s f .readOnly else s
  let s := if flags.getLsbD 2 then readerBad s f false else s
  if flags.getLsbD 3 then readerBad s f true else s

/-- Supply low or over-temperature holds writes for 1 ms. -/
def paHold (s : State) (a : Nat) (flags : BitVec 8) : State :=
  if flags.getLsbD 5 ∨ flags.getLsbD 6 then onWr s a fun w => { w with holdUntil := some (s.time + 1000) } else s

/-- A second no-transition flag within a second takes the head's writing from service. -/
def paNoTransition (s : State) (a f : Nat) (flags : BitVec 8) : State :=
  if flags.getLsbD 7 then
    match (wrAt s a).flag7At with
    | some t => if s.time ≤ t + 1000000 then headChange s f .readOnly else onWr s a fun w => { w with flag7At := some s.time }
    | none => onWr s a fun w => { w with flag7At := some s.time }
  else s

theorem paAct_eq (s : State) (a f : Nat) (flags : BitVec 8) :
    paAct s a f flags = paNoTransition (paHold (paHeads s f flags) a flags) a f flags := rfl

theorem paHeads_dropsFrames (s : State) (f : Nat) (flags : BitVec 8) : DropsFrames s (paHeads s f flags) := by
  unfold paHeads
  extract_lets s1 s2
  have h1 : DropsFrames s s1 := by
    unfold s1
    split
    · exact headChange_dropsFrames s f _
    · exact .refl s
  have h2 : DropsFrames s1 s2 := by
    unfold s2
    split
    · exact readerBad_dropsFrames s1 f false
    · exact .refl s1
  refine h1.trans (h2.trans ?_)
  split
  · exact readerBad_dropsFrames s2 f true
  · exact .refl s2

theorem paHeads_leaves (s : State) {f : Nat} (hf : f < 32) {flags : BitVec 8}
    (h : flags.getLsbD 0 = true ∨ flags.getLsbD 1 = true ∨ flags.getLsbD 4 = true) :
    headState (paHeads s f flags) f ≠ .inService := by
  unfold paHeads
  rw [if_pos h]
  extract_lets s1 s2
  have h1 : headState s1 f ≠ .inService := headChange_leaves s hf (by decide)
  have h2 : headState s2 f ≠ .inService := by
    unfold s2
    split
    · exact (readerBad_dropsFrames s1 f false).heads f h1
    · exact h1
  split
  · exact (readerBad_dropsFrames s2 f true).heads f h2
  · exact h2

/-- When the flags hold writes until: 1 ms from now, or as before. -/
def heldUntil (s : State) (old : Option Nat) (flags : BitVec 8) : Option Nat :=
  if flags.getLsbD 5 = true ∨ flags.getLsbD 6 = true then some (s.time + 1000) else old

theorem wrAt_paHold (s : State) {a : Nat} (ha : a < 4) (flags : BitVec 8) :
    wrAt (paHold s a flags) a = { wrAt s a with holdUntil := heldUntil s (wrAt s a).holdUntil flags } := by
  unfold paHold heldUntil
  split
  · exact wrAt_onWr_same s ha _
  · rfl

theorem paNoTransition_leaves (s : State) {a : Nat} (ha : a < 4) (f : Nat) (flags : BitVec 8) :
    (paNoTransition s a f flags).time = s.time ∧
      (∃ t, OnlyDrops { wrAt s a with flag7At := t } (wrAt (paNoTransition s a f flags) a)) ∧
      ∀ g, headState s g ≠ .inService → headState (paNoTransition s a f flags) g ≠ .inService := by
  have note : ∃ t, OnlyDrops { wrAt s a with flag7At := t } (wrAt (onWr s a fun w => { w with flag7At := some s.time }) a) := by
    rw [wrAt_onWr_same s ha]
    exact ⟨_, .refl _⟩
  have drop {t : State} (h : DropsFrames s t) : t.time = s.time ∧ (∃ u, OnlyDrops { wrAt s a with flag7At := u } (wrAt t a)) ∧
      ∀ g, headState s g ≠ .inService → headState t g ≠ .inService := ⟨h.time, ⟨_, h.paths a⟩, h.heads⟩
  unfold paNoTransition
  split
  · split
    · split
      · exact drop (headChange_dropsFrames s f .readOnly)
      · exact ⟨rfl, note, fun _ => id⟩
    · exact ⟨rfl, note, fun _ => id⟩
  · exact drop (.refl s)

/-- What acting on the flags leaves: the write path with its hold and the time of its last no-transition flag, and a head with a
write flag out of service. -/
theorem paAct_leaves (s : State) {a f : Nat} (ha : a < 4) (flags : BitVec 8) :
    (paAct s a f flags).time = s.time ∧
      (∃ t, OnlyDrops { wrAt s a with holdUntil := heldUntil s (wrAt s a).holdUntil flags, flag7At := t } (wrAt (paAct s a f flags) a)) ∧
      (f < 32 → flags.getLsbD 0 = true ∨ flags.getLsbD 1 = true ∨ flags.getLsbD 4 = true →
        headState (paAct s a f flags) f ≠ .inService) := by
  rw [paAct_eq]
  obtain ⟨ht1, hw1, -⟩ := paHeads_dropsFrames s f flags
  have hout (hf : f < 32) := paHeads_leaves s hf (flags := flags)
  generalize paHeads s f flags = s1 at ht1 hw1 hout
  have ht2 : (paHold s1 a flags).time = s1.time := by
    unfold paHold
    split <;> rfl
  have hh2 : headState (paHold s1 a flags) f = headState s1 f := by
    unfold paHold
    split <;> rfl
  obtain ⟨ht3, ⟨t, hw3⟩, hh3⟩ := paNoTransition_leaves (paHold s1 a flags) ha f flags
  refine ⟨ht3.trans (ht2.trans ht1), ⟨t, .trans ?_ hw3⟩, fun hf h => hh3 f (hh2.trans_ne (hout hf h))⟩
  obtain ⟨hx, hn⟩ := hw1 a
  rw [wrAt_paHold s1 ha]
  refine ⟨?_, hn⟩
  rw [hx]
  simp only [heldUntil, ht1]

theorem paAct_none (s : State) (a f : Nat) : paAct s a f 0 = s := by
  simp [paAct]

/-! ## The status read and copied -/

/-- The write path with the fault status of a head copied to ACTn_PA_STAT. -/
theorem paStatus_leaves (s : State) (a : Fin 4) (flags : BitVec 8) :
    let n := s.srv.loop[a].surface % 8
    let t := paStatus s a flags
    t.time = s.time ∧
      (∃ b u, OnlyDrops { wrAt s a with
        paValid := true, paHead := n, paFlags := flags, paBus := b, holdUntil := heldUntil s (wrAt s a).holdUntil flags,
        flag7At := u } (wrAt t a)) ∧
      (flags.getLsbD 0 = true ∨ flags.getLsbD 1 = true ∨ flags.getLsbD 4 = true → headState t (8 * a.val + n) ≠ .inService) := by
  intro n t
  have hn : (vget s.srv.loop a {}).surface % 8 = n := congrArg (fun l : Loop => l.surface % 8) (vget_eq_getElem _ a.isLt _)
  have hf : 8 * a.val + n < 32 := by omega
  unfold t paStatus
  rw [hn]
  generalize (s.prof.paMap[7]?).toList.map (fun f => paWord true f.1 0) = b
  have hw := wrAt_onWr_same s a.isLt fun w => { w with paValid := true, paHead := n, paFlags := flags, paBus := b }
  obtain ⟨ht, ⟨u, hx⟩, hh⟩ := paAct_leaves
    (onWr s a fun w => { w with paValid := true, paHead := n, paFlags := flags, paBus := b }) a.isLt flags (f := 8 * a.val + n)
  rw [hw] at hx
  exact ⟨ht, ⟨b, u, hx⟩, hh hf⟩

theorem paStatus_none (s : State) (a : Nat) : paStatus s a 0 = { s with wrt := (paStatus s a 0).wrt } := by
  unfold paStatus
  rw [paAct_none]
  rfl

/-! ## The frame in progress abandoned (R148) -/

theorem wrAt_trapAct (s : State) (a b : Nat) (c : TrapCause) : wrAt (trapAct s a c) b = wrAt s b := by
  obtain ⟨q, h⟩ := trapAct_frame s a c
  rw [h]
  rfl

/-- An abandoned frame leaves its actuator with no frame in progress and write gate low. -/
theorem frameAbort_idle (s : State) {a : Nat} (ha : a < 4) :
    (wrAt (frameAbort s a) a).frame = none ∧ (wrAt (frameAbort s a) a).gate = false := by
  unfold frameAbort
  split
  · next h =>
    have hw := wrAt_onWr_same s ha fun w => { w with gate := false }
    exact ⟨(congrArg WrAct.frame hw).trans h, congrArg WrAct.gate hw⟩
  · next j h =>
    dsimp only
    rw [wrAt_trapAct]
    have hw := wrAt_onWr_same s ha fun w =>
      { w with frame := none, gate := false, pulses := [], abort := satInc w.abort, buffer := j :: w.buffer }
    exact ⟨congrArg WrAct.frame hw, congrArg WrAct.gate hw⟩

/-- The state in which the status is read: the frame abandoned and the sequencer told. -/
theorem paFault_before (s : State) (a : Fin 4) :
    ∃ u, (∀ flags, paFault s a flags = paStatus u a flags) ∧ (wrAt u a).frame = none ∧ (wrAt u a).gate = false ∧
      u = { s with wrt := u.wrt, media := u.media, seq := u.seq } := by
  refine ⟨trapAct (frameAbort s a) a .preamp, fun _ => rfl, ?_⟩
  rw [wrAt_trapAct]
  obtain ⟨hf, hg⟩ := frameAbort_idle s a.isLt
  refine ⟨hf, hg, ?_⟩
  obtain ⟨w, f, q, h⟩ := frameAbort_frame s a
  obtain ⟨r, k⟩ := trapAct_frame (frameAbort s a) a .preamp
  rw [k, h]

/-- Before the profile gives PA_FAULT_POL the flags are latched (R552). -/
theorem paFaultAssert_unloaded {s : State} (h : s.prof.paFaultPol = none) (a : Fin 4) (flags : BitVec 8) :
    paFaultAssert s a flags = onWr s a fun w => { w with paLatched := some ((w.paLatched.getD 0) ||| flags) } := by
  simp only [paFaultAssert, h, Option.isNone_none, if_true]

theorem paFaultAssert_loaded {s : State} (h : s.prof.paFaultPol ≠ none) (a : Fin 4) (flags : BitVec 8) :
    paFaultAssert s a flags = paFault s a flags :=
  if_neg (mt Option.isNone_iff_eq_none.mp h)

theorem paWriteHoldExpire_held {s : State} {a : Fin 4} {t : Nat} (h : (wrAt s a).holdUntil = some t) (flags : BitVec 8) :
    paWriteHoldExpire s a flags = paStatus (onWr (s.at t) a fun w => { w with holdUntil := none }) a flags := by
  simp only [paWriteHoldExpire, h]

end Sys2Proof.Machine
end

section
/-! PROOF. The statement about writing, verifying and the preamplifier. -/
namespace Sys2Proof.Machine
open Sys2Proof

/-- Settles O51: each command's equations give its clause; what follows an encoding failure or a preamplifier flag (a head leaving
service) drops frames of the write paths and brings no head back. -/
theorem writingVerifyingAndPreamp : Obligations.WritingVerifyingAndPreamp := by
  unfold Obligations.WritingVerifyingAndPreamp
  refine ⟨?_, ?_, ?_, ?_, ?_, ?_, ?_⟩
  · -- LEAF_ENCODE (R30, R112)
    intro s a flips i j hj w cw
    refine ⟨_, rfl, leafEncode_full hj, fun hr ho hz => leafEncode_holds hj hr ho hz, fun hr ho hz => ?_⟩
    have hw := wrAt_onWr_same s a.isLt (encodeFailed j)
    rw [leafEncode_fails hj hr ho hz]
    by_cases h0 : w.encFails = 0
    · rw [if_pos h0, hw]
      exact ⟨rfl, fun _ => ⟨rfl, rfl, by simp only [encodeFailed, h0, w, Nat.zero_add]⟩, fun hn => absurd h0 hn⟩
    · rw [if_neg h0]
      obtain ⟨hout, hslips⟩ := writePathOut_leaves (onWr s a (encodeFailed j)) a.isLt
      exact ⟨hslips.trans (congrArg WrAct.slips hw), fun hn => absurd hn h0, fun _ => hout⟩
  · -- FRAME_WRITE with a leaf held (R146, R149)
    intro s a rate j cw rest hb hf w l
    refine ⟨fun p hen hv hp hi hc hh hrdy hsel hsf hhead hrb hring htrk hpred hw => ⟨_, rfl, ?_⟩, fun h => ?_⟩
    · rw [frameWrite_starts hb hf (frameMayStart_iff.mpr
        ⟨hen, hv, hp, hi, hc, hh, hrdy, hsel, hsf, hhead, hrb, hring, htrk, p, hpred, hw⟩)]
      refine ⟨wrAt_onWr_same s a.isLt _, fun g hg => ?_, rfl⟩
      rw [ringAt_onRing_same (s := onWr s a _) hg]
      rfl
    · have hn := frameWrite_refused hb hf (frameMayStart_refused h)
      refine ⟨fun hk => congrArg Host.Outcome.next (hn.trans (if_neg ?_)),
        fun h0 hr => congrArg Host.Outcome.next (hn.trans (if_pos ⟨h0, hr⟩))⟩
      rintro ⟨h0, hr⟩
      exact hk.elim h0 (Bool.eq_false_iff.mp hr)
  · -- FRAME_WRITE with no leaf held (R29, R147)
    intro s a rate hb hf
    obtain ⟨hslip, hstay⟩ := frameWrite_empty rate hb hf
    refine ⟨_, rfl, ?_⟩
    by_cases h : SlipsRevolution s a
    · rw [hslip h, wrAt_onWr_same s a.isLt, if_pos h]
      exact ⟨rfl, rfl, rfl⟩
    · rw [hstay h, if_neg h]
      exact ⟨rfl, rfl, wrAt_onWr_same s a.isLt _⟩
  · -- FRAME_WRITE_COMPLETE (R148, R151)
    intro s a j cw hf
    refine ⟨_, rfl, ?_⟩
    rw [frameWriteComplete_eq hf]
    obtain ⟨hx, hgate⟩ := wrAt_frameEnded s a j cw
    have hat : mediaAt (frameEnded s a j cw) j.pos = _ := mediaAt_mediaPut_same _ _
    have hother (p : Pos) (hp : p ≠ j.pos) : mediaAt (frameEnded s a j cw) p = mediaAt s p := mediaAt_mediaPut_other _ _ hp
    have hstg : (frameEnded s a j cw).stg = s.stg := rfl
    generalize frameEnded s a j cw = e at hx hgate hat hother hstg
    obtain h | ⟨hwrt, hmedia, hclean⟩ := leafLanded_cases e a j
    · rw [h, wrAt_onWr_same e a.isLt, hx]
      exact ⟨rfl, hat, hother, hgate, .inl ⟨rfl, hstg⟩⟩
    · have hm (p : Pos) : mediaAt (leafLanded e a j) p = mediaAt e p := mediaAt_congr hmedia p
      rw [wrAt_congr (congrArg WrtS.act hwrt), hm]
      refine ⟨by rw [hx], hat, fun p hp => (hm p).trans (hother p hp), hgate, .inr ⟨by rw [hx], fun hk u l hu hl => ?_⟩⟩
      exact (hclean hk u hu).stagedBy hl
  · -- VERIFY_READ (R151, R152)
    intro s a i soft j hj hk d ok
    refine ⟨_, rfl, fun hok => ?_, fun hok h0 hr => ?_⟩
    · obtain ⟨hfail, hgrt, hclean⟩ := verifyRead_passes hj hk hok
      exact ⟨hfail, hgrt, fun u l hu hl => (hclean u hu).stagedBy hl⟩
    · obtain ⟨g, hq, ht⟩ := verifyRead_again hj hk hok h0 hr
      rw [ht]
      have hw := wrAt_onWr_same { s with grt := g } a.isLt (verifyFailed i)
      obtain ⟨hqueue, hbuf, hframe⟩ := rewriteFirst_leaves (onWr { s with grt := g } a (verifyFailed i)) { j with fails := 1 }
      obtain ⟨q, ha, -⟩ := hbuf a
      rw [hw] at ha
      refine ⟨congrArg WrAct.verifyFail ha, congrArg WrAct.verify ha, hqueue, fun b k hkb => ?_, ?_, ?_⟩
      · obtain ⟨q, hb, hq⟩ := hbuf b
        exact hq k (by rwa [hb] at hkb)
      · rw [hframe]
        rfl
      · rw [hframe]
        exact hq
  · -- PA_FAULT_ASSERT (R156, R552)
    intro s a f n
    refine ⟨_, rfl, fun hp => ?_, fun hp => ?_⟩
    · rw [paFaultAssert_unloaded hp, wrAt_onWr_same s a.isLt]
      exact ⟨rfl, rfl⟩
    · rw [paFaultAssert_loaded hp]
      obtain ⟨u, hu, hfr, hg, hframe⟩ := paFault_before s a
      have hn : u.srv.loop[a].surface % 8 = n := by rw [hframe]
      have hnow : u.time = s.time := by rw [hframe]
      obtain ⟨-, ⟨b, x, hx, hnone⟩, hout⟩ := paStatus_leaves u a f
      rw [hu, ← hn]
      refine ⟨hnone hfr, ?_, ?_, ?_, ?_, hout, fun h => ?_, fun h => ?_⟩
      · rw [hx]
        exact hg
      · rw [hx]
      · rw [hx]
      · rw [hx]
      · rw [hx, ← hnow]
        exact if_pos h
      · rw [h, paStatus_none, hframe]
  · -- PA_WRITE_HOLD_EXPIRE (R156)
    intro s a f u hu
    refine ⟨_, rfl, ?_⟩
    rw [paWriteHoldExpire_held hu]
    have hw := wrAt_onWr_same (s.at u) a.isLt fun w => { w with holdUntil := none }
    obtain ⟨ht, ⟨b, x, hx, -⟩, -⟩ := paStatus_leaves (onWr (s.at u) a fun w => { w with holdUntil := none }) a f
    rw [hw] at hx
    rw [ht, hx]
    exact ⟨rfl, rfl, rfl⟩

end Sys2Proof.Machine
end

section
/-! PROOF. The statement about seeks, loads and losses fails: a lost loop that the retract parked is told no unload. -/
namespace Sys2Proof.Machine
open Sys2Proof

/-! ## A lost servo's timeout after a retract (R180, R182) -/

/-- Actuator 0 has lost servo for 480 samples, and the bellows retract has parked it before the timeout's command comes. -/
def parkedWhileLost : State :=
  retractAct { State.reset with
    srv.loop := vmod State.reset.srv.loop 0 fun l => { l with mode := .reacquire, lost := true, lostRun := 480 } } 0

/-- The retract leaves the loss on record, and the timeout asks an unloaded actuator for no unload (R181). -/
theorem lostServoTimeout_parkedWhileLost_unloadWhy : (lostServoTimeout parkedWhileLost 0).srv.loop[0].unloadWhy = 0 := by
  decide +kernel

theorem parkedWhileLost_due :
    480 ≤ parkedWhileLost.srv.loop[0].lostRun ∧ parkedWhileLost.srv.loop[0].mode ≠ .loading ∧
      parkedWhileLost.srv.loop[0].lost = true ∧ reloadsWithinHour parkedWhileLost 0 = 0 := by
  decide +kernel

/-- Refutes O47 in its clause on LOST_SERVO_TIMEOUT, which has the first loss within the hour answered by an unload (reason 3)
whatever the loop's mode: heads that the retract parked while servo was lost are unloaded, and no unload is asked for. -/
theorem not_seeksLoadsAndLosses : ¬ Obligations.SeeksLoadsAndLosses := by
  unfold Obligations.SeeksLoadsAndLosses
  rintro ⟨-, -, -, -, -, -, -, -, htimeout⟩
  obtain ⟨t, l', ht, rfl, -, -, -, hfirst, -⟩ := htimeout parkedWhileLost 0
  obtain ⟨hrun, hmode, hlost, hnone⟩ := parkedWhileLost_due
  obtain ⟨hwhy, -, -⟩ := hfirst hrun hmode hlost hnone
  have hstep : lostServoTimeout parkedWhileLost 0 = t := Host.Outcome.next.inj ht
  rw [← hstep] at hwhy
  exact absurd (lostServoTimeout_parkedWhileLost_unloadWhy.symm.trans hwhy) (by decide)

end Sys2Proof.Machine
end

section
/-! PROOF. What heads and actuators leaving service leave of the stripes' lists. -/
namespace Sys2Proof.Machine
open Sys2Proof

/-! ## The leaf store's operations change groups and rings -/

/-- Of the stripes' state at most the groups, their records, the rings and the write sequence differ. -/
def OnlyGroups (s t : State) : Prop :=
  t.str = { s.str with
    groups := t.str.groups, newGroups := t.str.newGroups, nextGroup := t.str.nextGroup, rings := t.str.rings, wseq := t.str.wseq }

namespace OnlyGroups

theorem refl (s : State) : OnlyGroups s s := rfl

theorem trans {s t u : State} (h : OnlyGroups s t) (k : OnlyGroups t u) : OnlyGroups s u :=
  Eq.trans k (congrArg (fun x : StrS => { x with
    groups := u.str.groups, newGroups := u.str.newGroups, nextGroup := u.str.nextGroup, rings := u.str.rings, wseq := u.str.wseq }) h)

theorem foldl {α : Type} {f : State → α → State} (hf : ∀ s a, OnlyGroups s (f s a)) (l : List α) (s : State) :
    OnlyGroups s (l.foldl f s) :=
  foldl_frame OnlyGroups refl (fun _ _ _ => trans) f hf l s

end OnlyGroups

theorem skipDead_onlyGroups (gid n : Nat) : ∀ s, OnlyGroups s (skipDead gid n s) := by
  induction n with
  | zero => exact .refl
  | succ n ih =>
    intro s
    unfold skipDead
    split
    · exact .refl s
    · split
      · refine .trans ?_ (ih _)
        rfl
      · exact .refl s

theorem groupFilled_onlyGroups (s : State) (gid : Nat) : OnlyGroups s (groupFilled s gid) := by
  unfold groupFilled
  split
  · split <;> rfl
  · exact .refl s

theorem formGroup_onlyGroups (s : State) (role : RingRole) (z : Option Nat) : OnlyGroups s (formGroup s role z).1 := by
  unfold formGroup
  dsimp only
  split <;> rfl

theorem groupFor_onlyGroups (s : State) (role : RingRole) (z : Option Nat) : OnlyGroups s (groupFor s role z).1 := by
  unfold groupFor
  split
  · next g _ =>
    have h := skipDead_onlyGroups g.id 8192 s
    dsimp only
    split
    · split
      · exact h
      · exact (h.trans (groupFilled_onlyGroups _ _)).trans (formGroup_onlyGroups _ role z)
    · exact h
  · exact formGroup_onlyGroups s role z

theorem placeIn_onlyGroups (s : State) (gid uid : Nat) : OnlyGroups s (placeIn s gid uid) := by
  have h := skipDead_onlyGroups gid 8192 s
  unfold placeIn
  generalize skipDead gid 8192 s = u at h
  dsimp only
  split
  · exact h
  · refine (h.trans ?_).trans (groupFilled_onlyGroups _ gid)
    split <;> rfl

theorem formLeaf_onlyGroups (s : State) (uid : Nat) : OnlyGroups s (formLeaf s uid) := by
  unfold formLeaf
  split
  · next l _ =>
    have h := groupFor_onlyGroups s (if l.kind = .index then .index else .data) (zoneOfId l.objectId)
    split
    · exact .refl s
    · split
      · next t g e => exact .trans (by simpa only [e] using h) (placeIn_onlyGroups t g.id uid)
      · next t e => simpa only [e] using h
  · exact .refl s

theorem stageNew_onlyGroups (s : State) (kind : LeafKind) (o v off r : Nat) (p key : List Byte) (a : Nat) :
    OnlyGroups s (stageNew s kind o v off r p key a).1 := rfl

theorem idxAdd_onlyGroups (s : State) (key : List Byte) (accept : Nat) (r : List Byte) : OnlyGroups s (idxAdd s key accept r) := by
  unfold idxAdd
  split
  · rfl
  · dsimp only
    split
    · next l _ => exact (formLeaf_onlyGroups s l.uid).trans (stageNew_onlyGroups _ _ _ _ _ _ _ _ _)
    · exact stageNew_onlyGroups s _ _ _ _ _ _ _ _

theorem idxWrite_onlyGroups (s : State) (key : List Byte) (accept : Nat) (recs : List (List Byte)) :
    OnlyGroups s (idxWrite s key accept recs) :=
  .trans (t := { s with str.newGroups := [] }) rfl
    ((OnlyGroups.foldl (fun s r => idxAdd_onlyGroups s [] 0 r) _ _).trans
      (OnlyGroups.foldl (fun s r => idxAdd_onlyGroups s key accept r) recs _))

theorem groupFull_onlyGroups (s : State) (gid : Nat) : OnlyGroups s (groupFull s gid) := by
  refine .trans (t := groupDue (onGroup s gid fun g => { g with state := .full }) gid) rfl ?_
  unfold groupFull idxPending
  split
  · exact .refl _
  · dsimp only
    split
    · exact idxWrite_onlyGroups _ [] 0 []
    · exact .refl _

theorem emberCopy_onlyGroups (s : State) (uid : Nat) : OnlyGroups s (emberCopy s uid) := by
  unfold emberCopy
  split
  · exact .refl s
  · split
    · exact .refl s
    · split <;> rfl

/-! ## A head, an actuator and a slot leaving service (R250, R252, R253) -/

/-- The defect map and the actuators out of service are as they were, and no stripe has left the list of those to relocate. -/
structure KeepsLists (s t : State) : Prop where
  defects : t.str.defects = s.str.defects
  actOut : t.str.actOut = s.str.actOut
  reloc : s.str.relocPending ⊆ t.str.relocPending

namespace KeepsLists

theorem refl (s : State) : KeepsLists s s := ⟨rfl, rfl, List.Subset.refl _⟩

theorem trans {s t u : State} (h : KeepsLists s t) (k : KeepsLists t u) : KeepsLists s u :=
  ⟨k.defects.trans h.defects, k.actOut.trans h.actOut, List.Subset.trans h.reloc k.reloc⟩

theorem of_groups {s t : State} (h : OnlyGroups s t) : KeepsLists s t := by
  refine ⟨?_, ?_, ?_⟩ <;> rw [h]
  exact List.Subset.refl _

theorem of_str {s t : State} (h : t.str = s.str) : KeepsLists s t := by
  refine ⟨?_, ?_, ?_⟩ <;> rw [h]
  exact List.Subset.refl _

theorem foldl {α : Type} {f : State → α → State} (hf : ∀ s a, KeepsLists s (f s a)) (l : List α) (s : State) :
    KeepsLists s (l.foldl f s) :=
  foldl_frame KeepsLists refl (fun _ _ _ => trans) f hf l s

end KeepsLists

theorem fault1_str (s : State) (e : Element) (tr : Nat) (d : List Nat) (h : HealthEvent) : (fault1 s e tr d h).str = s.str := by
  obtain ⟨w, a, r, n, f, k⟩ := fault1_frame s e tr d h
  rw [k]

theorem fault2_str (s : State) (e : Element) (tr : Nat) (d : List Nat) (h : HealthEvent) : (fault2 s e tr d h).str = s.str := by
  obtain ⟨w, a, r, n, f, k⟩ := fault2_frame s e tr d h
  rw [k]

theorem headChange_keepsLists (s : State) (f : Nat) (st : HeadState) : KeepsLists s (headChange s f st) := by
  unfold headChange
  extract_lets old code
  split
  · exact .refl s
  next cap opened undone jobs cut stripes embers _ s1 s2 _ s3 s4 _ s5 _ =>
    have h1 : KeepsLists s s1 := ⟨rfl, rfl, List.Subset.refl _⟩
    have h2 : KeepsLists s1 s2 := .of_groups (.foldl (fun s (g : Group) => groupFull_onlyGroups s g.id) _ _)
    have h3 : KeepsLists s2 s3 := ⟨rfl, rfl, List.subset_append_left _ _⟩
    have h4 : KeepsLists s3 s4 := .of_groups (.foldl emberCopy_onlyGroups _ _)
    have h5 : KeepsLists s4 s5 := by
      refine .of_str ?_
      unfold s5
      split <;> rfl
    exact h1.trans (h2.trans (h3.trans (h4.trans (h5.trans (.of_str (fault1_str _ _ _ _ _))))))

/-- An actuator that leaves service is out of service. -/
theorem actuatorOut_out (s : State) {a : Nat} (ha : a < 4) (c : Nat) : vget (actuatorOut s a c).str.actOut a false = true := by
  unfold actuatorOut
  split
  · next h => rwa [vget_eq_getElem _ ha] at h ⊢
  · extract_lets s1 _ s2 s3
    have h2 : KeepsLists s2 s3 := .foldl (fun s h => by
      split
      · exact .refl s
      · exact headChange_keepsLists _ _ _) _ _
    rw [fault2_str, h2.actOut]
    exact vget_vmod_same _ ha (fun _ => true) _

theorem defectAdd_defects (s : State) (d : Defect) : (defectAdd s d).str.defects = s.str.defects ++ [d] := by
  unfold defectAdd
  dsimp only
  split
  · split <;> rfl
  · rfl

/-- A slot entered in the defect map and its stripe put on the list of those to relocate, before its head is judged (R250). -/
def slotListed (s : State) (p : Pos) (g : Group) : State :=
  { defectAdd s ⟨p, 0, 0⟩ with
    str.relocPending := (defectAdd s ⟨p, 0, 0⟩).str.relocPending ++ [(stripeNo g.id p.slot, false)], str.redundant := false,
    str.relocs := (p.surface, s.hours) :: (defectAdd s ⟨p, 0, 0⟩).str.relocs.filter fun r => s.hours < r.2 + 11520 }

theorem relocateSlot_cases {s : State} {p : Pos} {g : Group} (hg : groupOfRing s p.surface p.ring = some g) :
    relocateSlot s p = slotListed s p g ∨ relocateSlot s p = headChange (slotListed s p g) p.surface .out := by
  unfold relocateSlot
  rw [hg]
  dsimp only
  split
  · exact .inr rfl
  · exact .inl rfl

theorem slotListed_dropsFrames (s : State) (p : Pos) (g : Group) : DropsFrames s (slotListed s p g) := by
  unfold slotListed
  obtain ⟨ds, rt, h⟩ := defectAdd_frame s ⟨p, 0, 0⟩
  rw [h]
  exact .of_same rfl ⟨rfl, rfl⟩

/-- A slot relocated is in the defect map, its stripe is to be relocated, and write paths have at most dropped frames (R250). -/
theorem relocateSlot_leaves {s : State} {p : Pos} {g : Group} (hg : groupOfRing s p.surface p.ring = some g) :
    slotDefect (relocateSlot s p) p = true ∧ (stripeNo g.id p.slot, false) ∈ (relocateSlot s p).str.relocPending ∧
      DropsFrames s (relocateSlot s p) := by
  have key {t : State} (h : KeepsLists (slotListed s p g) t) (hf : DropsFrames (slotListed s p g) t) :
      slotDefect t p = true ∧ (stripeNo g.id p.slot, false) ∈ t.str.relocPending ∧ DropsFrames s t := by
    have hd : t.str.defects = s.str.defects ++ [⟨p, 0, 0⟩] := h.defects.trans (defectAdd_defects s _)
    refine ⟨?_, h.reloc (List.mem_append_right _ (List.mem_singleton_self _)), (slotListed_dropsFrames s p g).trans hf⟩
    simp [slotDefect, hd]
  obtain h | h := relocateSlot_cases hg <;> rw [h]
  · exact key (.refl _) (.refl _)
  · exact key (headChange_keepsLists _ _ _) (headChange_dropsFrames _ _ _)

end Sys2Proof.Machine
end

section
/-! PROOF. Write inhibit, a shock declared and ended, and the accelerometers. -/
namespace Sys2Proof.Machine
open Sys2Proof

/-! ## Vectors updated at an index -/

theorem getElem_vmod_same {α : Type} {n : Nat} (v : Vector α n) (i : Fin n) (f : α → α) : (vmod v i f)[i] = f v[i] := by
  simp [vmod]

theorem getElem_vmod_other {α : Type} {n : Nat} (v : Vector α n) {i j : Fin n} (h : j ≠ i) (f : α → α) :
    (vmod v i f)[j] = v[j] := by
  have hij : i.val ≠ j.val := fun e => h (Fin.ext e.symm)
  simp [vmod, hij]

/-! ## Write inhibit (R172) -/

/-- An actuator is write-inhibited, with no frame in progress. -/
structure Inhibited (s : State) (a : Nat) : Prop where
  inhibit : (vget s.srv.loop a {}).inhibit = true
  permit : (vget s.srv.loop a {}).wrPermit = false
  idle : (wrAt s a).frame = none

theorem wrAt_onWr_other (s : State) {a b : Nat} (h : b ≠ a) (f : WrAct → WrAct) : wrAt (onWr s a f) b = wrAt s b :=
  vget_vmod_other _ h f _

theorem wrAt_frameAbort_other (s : State) {a b : Nat} (h : b ≠ a) : wrAt (frameAbort s a) b = wrAt s b := by
  unfold frameAbort
  split
  · exact wrAt_onWr_other s h _
  · exact (wrAt_trapAct _ _ _ _).trans (wrAt_onWr_other s h _)

/-- The loop of an actuator told to inhibit writing. -/
def loopInhibited (l : Loop) : Loop := { l with inhibit := true, wrPermit := false }

/-- Of servo state, write inhibit changes the one loop. -/
theorem writeInhibit_srv (s : State) (a : Nat) : (writeInhibit s a).srv = { s.srv with loop := vmod s.srv.loop a loopInhibited } := by
  obtain ⟨w, f, q, h⟩ := frameAbort_frame { s with srv.loop := vmod s.srv.loop a loopInhibited } a
  exact congrArg State.srv h

theorem writeInhibit_inhibited (s : State) {a : Nat} (ha : a < 4) : Inhibited (writeInhibit s a) a := by
  have hl : vget (writeInhibit s a).srv.loop a {} = loopInhibited (vget s.srv.loop a {}) := by
    rw [writeInhibit_srv]
    exact vget_vmod_same _ ha _ _
  exact ⟨by rw [hl]; rfl, by rw [hl]; rfl, (frameAbort_idle _ ha).1⟩

/-- Inhibiting another actuator takes back no write inhibit. -/
theorem Inhibited.writeInhibit_other {s : State} {a b : Nat} (h : Inhibited s b) (hne : b ≠ a) : Inhibited (writeInhibit s a) b := by
  have hl : vget (writeInhibit s a).srv.loop b {} = vget s.srv.loop b {} := by
    rw [writeInhibit_srv]
    exact vget_vmod_other _ hne _ _
  have hw : wrAt (writeInhibit s a) b = wrAt s b := wrAt_frameAbort_other _ hne
  exact ⟨hl ▸ h.inhibit, hl ▸ h.permit, hw ▸ h.idle⟩

theorem Inhibited.trapAct {s : State} {b : Nat} (h : Inhibited s b) (a : Nat) (c : TrapCause) : Inhibited (trapAct s a c) b := by
  obtain ⟨q, k⟩ := trapAct_frame s a c
  rw [k]
  exact ⟨h.inhibit, h.permit, h.idle⟩

/-! ## A shock declared (R178) -/

/-- What a shock does at one actuator. -/
def shockAt (s : State) (a : Nat) : State := trapAct (writeInhibit s a) a .shock

theorem shockAt_frame (s : State) (a : Nat) :
    ∃ l w f q, shockAt s a = { s with srv.loop := l, wrt.act := w, media.frames := f, seq.sq := q } := by
  obtain ⟨l, w, f, q, h⟩ := writeInhibit_frame s a
  obtain ⟨r, k⟩ := trapAct_frame (writeInhibit s a) a .shock
  exact ⟨l, w, f, r, by rw [shockAt, k, h]⟩

theorem foldl_shockAt_frame (l : List Nat) (s : State) :
    ∃ p w f q, l.foldl shockAt s = { s with srv.loop := p, wrt.act := w, media.frames := f, seq.sq := q } := by
  refine foldl_frame (fun s t => ∃ p w f q, t = { s with srv.loop := p, wrt.act := w, media.frames := f, seq.sq := q })
    (fun s => ⟨_, _, _, _, rfl⟩) ?_ _ shockAt_frame _ s
  rintro s t u ⟨p, w, f, q, rfl⟩ ⟨p', w', f', q', rfl⟩
  exact ⟨p', w', f', q', rfl⟩

/-- Every actuator that a shock reaches, or that was inhibited before, is inhibited after it. -/
theorem foldl_shockAt_inhibited {b : Nat} (hb : b < 4) :
    ∀ (l : List Nat) (s : State), b ∈ l ∨ Inhibited s b → Inhibited (l.foldl shockAt s) b
  | [], _, h => h.resolve_left List.not_mem_nil
  | a :: l, s, h => by
    refine foldl_shockAt_inhibited hb l (shockAt s a) ?_
    by_cases e : b = a
    · subst e
      exact .inr ((writeInhibit_inhibited s hb).trapAct _ _)
    · refine h.imp (fun m => ?_) fun k => (k.writeInhibit_other e).trapAct _ _
      exact (List.mem_cons.mp m).resolve_left e

/-- The servo state in which a shock reaches the actuators. -/
def shockNoted (s : State) : State :=
  { s with
    srv.shock := true, srv.calmSince := none,
    srv.shockCnt := (List.range 4).foldl (fun v a => countEngine s a v) s.srv.shockCnt,
    srv.loop := s.srv.loop.map fun l => { l with seek := l.seek.map fun k => { k with clean := false } } }

theorem shockDeclare_again {s : State} (h : s.srv.shock = true) : shockDeclare s = s := if_pos h

theorem shockDeclare_first {s : State} (h : s.srv.shock = false) : shockDeclare s = (List.range 4).foldl shockAt (shockNoted s) :=
  if_neg (by rw [h]; exact Bool.false_ne_true)

/-- A first shock is declared at the same time, with every actuator inhibited, and leaves the accelerometers' record. -/
theorem shockDeclare_leaves {s : State} (h : s.srv.shock = false) :
    let t := shockDeclare s
    t.srv.shock = true ∧ t.time = s.time ∧ t.srv.accOut = s.srv.accOut ∧ t.srv.rvStale = s.srv.rvStale ∧
      t.srv.alpha = s.srv.alpha ∧ ∀ b < 4, Inhibited t b := by
  dsimp only
  rw [shockDeclare_first h]
  obtain ⟨p, w, f, q, k⟩ := foldl_shockAt_frame (List.range 4) (shockNoted s)
  refine ⟨?_, ?_, ?_, ?_, ?_, fun b hb => foldl_shockAt_inhibited hb _ _ (.inl (List.mem_range.mpr hb))⟩ <;> rw [k] <;> rfl

/-! ## The accelerometers (R176, R190) -/

/-- Judging a reading notes since when its accelerometer reads full scale, or takes it out of use besides. -/
theorem accJudge_cases (s : State) (i : Nat) (r : AccReading) : ∃ f, accJudge s i r = { s with srv.accFull := f } ∨
    accJudge s i r = noteHealth { s with srv.accFull := f, srv.accOut := vset s.srv.accOut i true } (.accelerometer i) := by
  unfold accJudge
  split
  · exact ⟨s.srv.accFull, .inl rfl⟩
  · extract_lets since bad
    cases bad
    · exact ⟨_, .inl rfl⟩
    · exact ⟨_, .inr rfl⟩

theorem accJudge_frame (s : State) (i : Nat) (r : AccReading) :
    ∃ o f h, accJudge s i r = { s with srv.accOut := o, srv.accFull := f, ash.health := h } := by
  obtain ⟨f, h | h⟩ := accJudge_cases s i r
  · exact ⟨s.srv.accOut, f, s.ash.health, h⟩
  · exact ⟨_, f, _, h⟩

/-- A reading within the scale takes no accelerometer out of use. -/
theorem accJudge_value (s : State) (i : Nat) (g : Qty) : (accJudge s i (.value g)).srv.accOut = s.srv.accOut := by
  unfold accJudge
  split <;> rfl

theorem accJudge_silent (s : State) {i : Nat} (hi : i < 2) : vget (accJudge s i .silent).srv.accOut i false = true := by
  unfold accJudge
  split
  · next h => rwa [vget_eq_getElem _ hi] at h ⊢
  · exact vget_vmod_same s.srv.accOut hi (fun _ => true) false

theorem accJudge_other (s : State) {i j : Nat} (h : j ≠ i) (r : AccReading) (d : Bool) :
    vget (accJudge s i r).srv.accOut j d = vget s.srv.accOut j d := by
  obtain ⟨f, k | k⟩ := accJudge_cases s i r <;> rw [k]
  exact vget_vmod_other s.srv.accOut h (fun _ => true) d

/-- Both readings judged, 20 µs on. -/
def accJudged (s : State) (r0 r1 : AccReading) : State := accJudge (accJudge { s with time := s.time + 20 } 0 r0) 1 r1

theorem accJudged_frame (s : State) (r0 r1 : AccReading) : ∃ o f h,
    accJudged s r0 r1 = { s with time := s.time + 20, srv.accOut := o, srv.accFull := f, ash.health := h } := by
  obtain ⟨o, f, h, k⟩ := accJudge_frame { s with time := s.time + 20 } 0 r0
  obtain ⟨o', f', h', k'⟩ := accJudge_frame (accJudge { s with time := s.time + 20 } 0 r0) 1 r1
  exact ⟨o', f', h', by rw [accJudged, k', k]⟩

/-- The readings show a shock (R178). -/
def accShock (s : State) (r0 r1 : AccReading) : Bool :=
  (accInUse (accJudged s r0 r1) && decide (absQ (accValue r0 + accValue r1) / 2 > s.prof.shockG)) || r0 = .full || r1 = .full

theorem accShock_full {s : State} {r0 r1 : AccReading} (h : r0 = .full ∨ r1 = .full) : accShock s r0 r1 = true := by
  unfold accShock
  obtain rfl | rfl := h <;> simp

theorem accInUse_values {s : State} {g0 g1 : Qty} (h0 : vget s.srv.accOut 0 true = false) (h1 : vget s.srv.accOut 1 true = false) :
    accInUse (accJudged s (.value g0) (.value g1)) = true := by
  unfold accInUse accJudged
  rw [accJudge_value, accJudge_value, h0, h1]
  rfl

theorem accShock_values {s : State} {g0 g1 : Qty} (h : accInUse (accJudged s (.value g0) (.value g1)) = true) :
    accShock s (.value g0) (.value g1) = decide (s.prof.shockG < absQ (g0 + g1) / 2) := by
  simp [accShock, h, accValue]

/-- The state in which a sample's shock is declared, if it shows one: its readings judged and rotational vibration taken. -/
theorem accelerometerSample_before {s : State} (hen : blkEn s 12 = true) (r0 r1 : AccReading) :
    ∃ u, accelerometerSample s r0 r1 = (if accShock s r0 r1 then shockDeclare u else u) ∧
      u = { s with time := s.time + 20, srv := u.srv, ash := u.ash } ∧ u.srv.shock = s.srv.shock ∧
      u.srv.accOut = (accJudged s r0 r1).srv.accOut ∧
      (accInUse (accJudged s r0 r1) = true → s.srv.accCal = false → s.prof.rvBase ≠ 0 →
        u.srv.rvStale = false ∧ u.srv.alpha.head? = some (980665 / 100000 * (accValue r0 - accValue r1) / s.prof.rvBase)) := by
  unfold accelerometerSample accShock
  rw [if_neg (not_not.mpr hen)]
  extract_lets s1 j usable a0 a1 shock calm _ s2 al sq rms _ s3 _ s4
  obtain ⟨o, f, h, hj⟩ := accJudged_frame s r0 r1
  have hj : j = _ := hj
  have h3 : s3 = { j with srv := s3.srv } ∧ s3.srv.shock = j.srv.shock ∧ s3.srv.accOut = j.srv.accOut ∧
      (usable = true → j.srv.accCal = false → j.prof.rvBase ≠ 0 → s3.srv.rvStale = false ∧ s3.srv.alpha.head? = some al) := by
    unfold s3
    split
    · exact ⟨rfl, rfl, rfl, fun _ _ _ => ⟨rfl, rfl⟩⟩
    · next hnot => exact ⟨rfl, rfl, rfl, fun hu hc hb =>
        absurd ⟨hu, by rw [show s2.srv.accCal = j.srv.accCal from rfl, hc]; decide, hb⟩ hnot⟩
  obtain ⟨hframe, hshock, hout, hrv⟩ := h3
  have hprof : j.prof = s.prof := by rw [hj]
  refine ⟨s4, ?_, ?_, ?_, hout, fun hu hc hb => ?_⟩
  · rw [← hprof]
    rfl
  · have hash : s3.ash = j.ash := by rw [hframe]
    rw [show s4.ash = j.ash from hash]
    refine (congrArg (fun x : State => { x with srv := s4.srv }) hframe).trans ?_
    rw [hj]
  · refine hshock.trans ?_
    rw [hj]
  · obtain ⟨hs, ha⟩ := hrv hu (by rw [hj]; exact hc) (by rwa [hprof])
    refine ⟨hs, ha.trans ?_⟩
    rw [← hprof]

/-- What a sample that declares a shock inhibits, and what it leaves (R176, R178). -/
theorem accelerometerSample_leaves {s : State} (hen : blkEn s 12 = true) (r0 r1 : AccReading) :
    let t := accelerometerSample s r0 r1
    t.time = s.time + 20 ∧ t.srv.shock = (s.srv.shock || accShock s r0 r1) ∧ t.srv.accOut = (accJudged s r0 r1).srv.accOut ∧
      (accInUse (accJudged s r0 r1) = true → s.srv.accCal = false → s.prof.rvBase ≠ 0 →
        t.srv.rvStale = false ∧ t.srv.alpha.head? = some (980665 / 100000 * (accValue r0 - accValue r1) / s.prof.rvBase)) ∧
      (s.srv.shock = false → t.srv.shock = true → ∀ b < 4, Inhibited t b) ∧
      (t.srv.shock = s.srv.shock → t = { s with time := s.time + 20, srv := t.srv, ash := t.ash }) := by
  obtain ⟨u, ht, hu, hshock, hout, hrv⟩ := accelerometerSample_before hen r0 r1
  have htime : u.time = s.time + 20 := by rw [hu]
  dsimp only
  rw [ht]
  by_cases hd : accShock s r0 r1 = true
  · rw [if_pos hd, hd, Bool.or_true]
    cases hs : s.srv.shock with
    | true =>
      have hagain : u.srv.shock = true := hshock.trans hs
      rw [shockDeclare_again hagain]
      exact ⟨htime, hagain, hout, hrv, fun h => absurd h (by decide), fun _ => hu⟩
    | false =>
      obtain ⟨h1, h2, h3, h4, h5, h6⟩ := shockDeclare_leaves (hshock.trans hs)
      rw [h1, h2, h3, h4, h5]
      exact ⟨htime, rfl, hout, hrv, fun _ _ => h6, fun h => absurd h (by decide)⟩
  · rw [if_neg hd, Bool.eq_false_iff.mpr hd, Bool.or_false]
    refine ⟨htime, hshock, hout, hrv, fun h k => ?_, fun _ => hu⟩
    rw [hshock, h] at k
    exact absurd k (by decide)

/-! ## Calm (R178) -/

/-- Both accelerometers have been calm for 2 ms in a shock, with every loaded actuator on track. -/
def ShockOver (s : State) : Prop :=
  s.srv.shock = true ∧ (∃ u, s.srv.calmSince = some u ∧ u + 2000 ≤ s.time) ∧
    ∀ b : Fin 4, s.srv.loop[b].mode = .unloaded ∨ s.srv.loop[b].onTrack = true

theorem all_loops_iff (v : Vector Loop 4) :
    (v.toList.all fun l => l.mode = .unloaded ∨ l.onTrack) = true ↔ ∀ b : Fin 4, v[b].mode = .unloaded ∨ v[b].onTrack = true := by
  simp only [List.all_eq_true, decide_eq_true_eq, Vector.mem_toList_iff, Vector.mem_iff_getElem]
  constructor
  · intro h b
    exact h _ ⟨b, b.isLt, rfl⟩
  · rintro h l ⟨i, hi, rfl⟩
    exact h ⟨i, hi⟩

theorem shockClear_over {s : State} (h : ShockOver s) : shockClear s = { s with srv.shock := false } := by
  obtain ⟨hs, ⟨u, hu, ht⟩, hl⟩ := h
  unfold shockClear
  rw [hu]
  exact if_pos ⟨hs, ht, (all_loops_iff _).mpr hl⟩

theorem shockClear_waits {s : State} (h : ¬ ShockOver s) : shockClear s = s := by
  unfold shockClear
  split
  · next u hu => exact if_neg fun ⟨hs, ht, hl⟩ => h ⟨hs, ⟨u, hu, ht⟩, (all_loops_iff _).mp hl⟩
  · rfl

end Sys2Proof.Machine
end

section
/-! PROOF. Engines and D5, gains, and the read-back of a track. -/
namespace Sys2Proof.Machine
open Sys2Proof

/-! ## An engine declared faulty (R183, R184, R225) -/

/-- A spare used is a class 1 fault, and its pair joins the substitution map (R258). -/
theorem spareUsed_frame (s : State) (old new : Element) : ∃ w a r n f, spareUsed s old new =
    { s with str.spareMap := s.str.spareMap ++ [(old, new)], flt.cnt1 := satInc s.flt.cnt1, flt.worst := w, ash := a,
             reg.caps := r, freeCtr := n, hob.conf := f } := by
  obtain ⟨w, a, r, n, f, h⟩ := fault1_frame { s with str.spareMap := s.str.spareMap ++ [(old, new)] } old 0x20
    [(elementCode old).1, (elementCode old).2, (elementCode new).1, (elementCode new).2] (.spareUsed old)
  exact ⟨w, a, r, n, f, h⟩

theorem spareUsed_srv (s : State) (old new : Element) : (spareUsed s old new).srv = s.srv := by
  obtain ⟨w, a, r, n, f, h⟩ := spareUsed_frame s old new
  rw [h]

theorem fault1_srv (s : State) (e : Element) (tr : Nat) (d : List Nat) (h : HealthEvent) : (fault1 s e tr d h).srv = s.srv := by
  obtain ⟨w, a, r, n, f, k⟩ := fault1_frame s e tr d h
  rw [k]

theorem fault2_srv (s : State) (e : Element) (tr : Nat) (d : List Nat) (h : HealthEvent) : (fault2 s e tr d h).srv = s.srv := by
  obtain ⟨w, a, r, n, f, k⟩ := fault2_frame s e tr d h
  rw [k]

theorem spindleEngineFault_mirrorN (s : State) : (spindleEngineFault s).srv.mirrorN = s.srv.mirrorN := by
  unfold spindleEngineFault
  extract_lets takeover
  have hd (u : State) : (if u.spn.wanted.isSome then dropChange u else u).srv.mirrorN = u.srv.mirrorN := by
    split <;> rfl
  have ht (u : State) : (takeover u).srv.mirrorN = u.srv.mirrorN :=
    (congrArg SrvS.mirrorN (fault2_srv _ _ _ _ _)).trans (hd _)
  split
  · split
    · rw [spareUsed_srv]
    · exact ht _
  · exact ht _
  · rfl
  · rfl

/-- The state in which D5 takes an actuator role over: the engine serves nothing, D5 the role, and writing is inhibited (R184). -/
def d5Serves (s : State) (n r : Nat) : State :=
  writeInhibit { s with srv.serves := vset (vset s.srv.serves n 6) 5 r, str.dmpLeft := false } r

/-- A loop taken over by D5: the mirror's state, the outputs held, and a soft start from the next sample on. -/
def loopTakenOver (soft : Nat) (mirror l : Loop) : Loop :=
  { mirror with
    vcm := l.vcm, ma := l.ma, inhibit := true, wrPermit := false, softLeft := soft + 1, softFrom := l.x, preload := true, okRun := 0 }

/-- A role that engine `n` gave up, its loop taken over by D5 with a soft start from the mirror (R184). -/
def d5TakesOver (s : State) (n r : Nat) : State :=
  onLoop (d5Serves s n r) r fun l => loopTakenOver (softN (d5Serves s n r) r) (vget (d5Serves s n r).srv.mirror r l) l

section
variable {s : State} {n : Fin 6} {r : Nat} (hr : s.srv.serves[n] = r) (h4 : r < 4)
include hr h4

theorem damperFault_spare (hd : s.str.dmpLeft = true) :
    damperFault s n = spareUsed (d5TakesOver s n r) (.damper n) (.damper 5) := by
  have hv : vget s.srv.serves n 6 = r := (vget_eq_getElem _ n.isLt _).trans hr
  unfold damperFault
  rw [hv]
  dsimp only
  rw [if_neg (by omega), if_pos h4, if_pos hd]
  rfl

theorem damperFault_noSpare (hd : s.str.dmpLeft = false) :
    damperFault s n = actuatorOut { s with srv.serves := vset s.srv.serves n 6 } r 1 := by
  have hv : vget s.srv.serves n 6 = r := (vget_eq_getElem _ n.isLt _).trans hr
  unfold damperFault
  rw [hv]
  dsimp only
  rw [if_neg (by omega), if_pos h4, if_neg (by rw [hd]; exact Bool.false_ne_true)]

end

theorem d5Serves_srv (s : State) (n r : Nat) : (d5Serves s n r).srv =
    { s.srv with serves := vset (vset s.srv.serves n 6) 5 r, loop := vmod s.srv.loop r loopInhibited } :=
  writeInhibit_srv _ r

theorem d5TakesOver_loop (s : State) (n : Nat) {r : Nat} (hr : r < 4) : ∃ m, vget (d5TakesOver s n r).srv.loop r {} =
    loopTakenOver (softN (d5Serves s n r) r) m (loopInhibited (vget s.srv.loop r {})) := by
  have hu : vget (d5Serves s n r).srv.loop r {} = loopInhibited (vget s.srv.loop r {}) := by
    rw [d5Serves_srv]
    exact vget_vmod_same _ hr _ _
  rw [← hu]
  exact ⟨_, vget_vmod_same (d5Serves s n r).srv.loop hr _ {}⟩

theorem softN_congr {s t : State} (hs : t.srv.serves = s.srv.serves) (hc : t.reg.ck = s.reg.ck) (a : Nat) : softN t a = softN s a := by
  unfold softN srvCfgOf engineOf
  rw [hs, hc]

/-- D5 takes the role of a faulty engine of an actuator over, with the outputs held and a soft start to come (R184). -/
theorem damperFault_spare_leaves {s : State} {n : Fin 6} {r : Nat} (hr : s.srv.serves[n] = r) (h4 : r < 4) (hn : n.val ≠ 5)
    (hd : s.str.dmpLeft = true) :
    let t := damperFault s n
    t.srv.serves[n] = 6 ∧ vget t.srv.serves 5 0 = r ∧ t.str.dmpLeft = false ∧ (wrAt t r).frame = none ∧
      (vget t.srv.loop r {}).softLeft = softN t r + 1 ∧ (vget t.srv.loop r {}).preload = true ∧
      (vget t.srv.loop r {}).vcm = (vget s.srv.loop r {}).vcm ∧ (vget t.srv.loop r {}).okRun = 0 ∧
      t.flt.cnt1 = satInc s.flt.cnt1 := by
  dsimp only
  rw [damperFault_spare hr h4 hd]
  obtain ⟨_, _, _, _, hu⟩ := writeInhibit_frame { s with srv.serves := vset (vset s.srv.serves n 6) 5 r, str.dmpLeft := false } r
  have hleft : (d5TakesOver s n r).str.dmpLeft = false := by rw [d5TakesOver, d5Serves, hu]; rfl
  have hcnt : (d5TakesOver s n r).flt.cnt1 = s.flt.cnt1 := by rw [d5TakesOver, d5Serves, hu]; rfl
  have hidle : (wrAt (d5TakesOver s n r) r).frame = none := (writeInhibit_inhibited _ h4).idle
  have hserves : (d5TakesOver s n r).srv.serves = vset (vset s.srv.serves n 6) 5 r := congrArg SrvS.serves (d5Serves_srv s n r)
  have hsoft : softN (d5TakesOver s n r) r = softN (d5Serves s n r) r := rfl
  obtain ⟨m, hloop⟩ := d5TakesOver_loop s n h4
  obtain ⟨_, _, _, _, _, k⟩ := spareUsed_frame (d5TakesOver s n r) (.damper n) (.damper 5)
  rw [softN_congr (congrArg SrvS.serves (spareUsed_srv (d5TakesOver s n r) (.damper n) (.damper 5))) (by rw [k]), hsoft, k]
  dsimp only
  rw [hloop, hserves]
  refine ⟨?_, vget_vmod_same _ (by decide) (fun _ => r) 0, hleft, hidle, rfl, rfl, rfl, rfl, congrArg satInc hcnt⟩
  exact (getElem_vmod_other _ (i := 5) (fun e => hn (congrArg Fin.val e)) fun _ => r).trans (getElem_vmod_same _ n fun _ => 6)

/-- With D5 used the actuator of a faulty engine leaves service (R184). -/
theorem damperFault_noSpare_leaves {s : State} {n : Fin 6} {r : Nat} (hr : s.srv.serves[n] = r) (h4 : r < 4)
    (hd : s.str.dmpLeft = false) :
    (damperFault s n).srv.serves[n] = 6 ∧ vget (damperFault s n).str.actOut r false = true := by
  rw [damperFault_noSpare hr h4 hd]
  refine ⟨?_, actuatorOut_out _ h4 1⟩
  rw [actuatorOut_onlyService]
  exact getElem_vmod_same _ n fun _ => 6

/-- Declaring an engine faulty leaves the counts of samples since the mirror checks. -/
theorem damperFault_mirrorN (s : State) (n : Fin 6) : (damperFault s n).srv.mirrorN = s.srv.mirrorN := by
  have hv : vget s.srv.serves n 6 = s.srv.serves[n] := vget_eq_getElem _ n.isLt _
  obtain h | h | h := lt_trichotomy s.srv.serves[n] 4
  · cases hd : s.str.dmpLeft with
    | true => rw [damperFault_spare rfl h hd, spareUsed_srv, d5TakesOver, onLoop_srv_mirrorN, d5Serves_srv]
    | false => rw [damperFault_noSpare rfl h hd, actuatorOut_onlyService]
  · unfold damperFault
    rw [hv, h]
    exact spindleEngineFault_mirrorN s
  · unfold damperFault
    rw [hv]
    dsimp only
    rw [if_neg (by omega), if_neg (by omega)]
    split
    · rw [fault1_srv]
    · rfl

/-! ## The mirror check (R183) -/

/-- An engine's codes differ from the mirror's by at most 1 LSB. -/
def MirrorNear (m : Int × Int) (c1 c2 : Int) : Prop := (m.1 - c1).natAbs ≤ 1 ∧ (m.2 - c2).natAbs ≤ 1

/-- The mirror check of an engine counted. -/
def mirrorCounted (s : State) (n : Fin 6) : State := { s with srv.mirrorN := s.srv.mirrorN.set n 0 }

theorem mirrorCounted_zero (s : State) (n : Fin 6) : (mirrorCounted s n).srv.mirrorN[n] = 0 := Vector.getElem_set_self _

section
variable {s : State} {n : Fin 6} {c1 c2 : Int} (h : 256 ≤ s.srv.mirrorN[n])
include h

theorem damperMirrorCheck_near (hm : MirrorNear (mirrorOutputs s s.srv.serves[n]) c1 c2) :
    damperMirrorCheck s n c1 c2 = mirrorCounted s n := by
  obtain ⟨h1, h2⟩ := hm
  exact (if_neg (Nat.not_lt.mpr h)).trans (if_neg (not_or.mpr ⟨Nat.not_lt.mpr h1, Nat.not_lt.mpr h2⟩))

theorem damperMirrorCheck_far (hm : ¬ MirrorNear (mirrorOutputs s s.srv.serves[n]) c1 c2) :
    damperMirrorCheck s n c1 c2 = damperFault (mirrorCounted s n) n := by
  refine (if_neg (Nat.not_lt.mpr h)).trans (if_pos ?_)
  by_contra hn
  obtain ⟨h1, h2⟩ := not_or.mp hn
  exact hm ⟨Nat.not_lt.mp h1, Nat.not_lt.mp h2⟩

theorem damperMirrorCheck_counted : (damperMirrorCheck s n c1 c2).srv.mirrorN[n] = 0 := by
  by_cases hm : MirrorNear (mirrorOutputs s s.srv.serves[n]) c1 c2
  · rw [damperMirrorCheck_near h hm]
    exact mirrorCounted_zero s n
  · rw [damperMirrorCheck_far h hm, damperFault_mirrorN]
    exact mirrorCounted_zero s n

end

/-! ## Calibration results and the microactuator's gain (R170, R523, R524) -/

theorem lookupD_assocSet_same {β : Type} (l : List (Nat × β)) (k : Nat) (v d : β) : lookupD (assocSet l k v) k d = v := by
  have key : (assocSet l k v).find? (fun p => p.1 == k) = some (k, v) := by
    unfold assocSet
    split
    · next h =>
      induction l with
      | nil => exact absurd h Bool.false_ne_true
      | cons x l ih =>
        by_cases hx : x.1 = k
        · simp [hx]
        · simpa [hx] using ih (by simpa [hx] using h)
    · next h =>
      have hnone : l.find? (fun p => p.1 == k) = none :=
        List.find?_eq_none.mpr fun x hx hk => h (List.any_eq_true.mpr ⟨x, hx, hk⟩)
      simp [List.find?_append, hnone]
  rw [lookupD, key]

theorem fault2_cal (s : State) (e : Element) (tr : Nat) (d : List Nat) (h : HealthEvent) : (fault2 s e tr d h).cal = s.cal := by
  obtain ⟨w, a, r, n, f, k⟩ := fault2_frame s e tr d h
  rw [k]

theorem fault2_cnt2 (s : State) (e : Element) (tr : Nat) (d : List Nat) (h : HealthEvent) :
    (fault2 s e tr d h).flt.cnt2 = satInc s.flt.cnt2 := by
  obtain ⟨w, a, r, n, f, k⟩ := fault2_frame s e tr d h
  rw [k]

/-- An item that has run leaves the servo as it is, sets or clears its bit of FAILED, and is a class 2 fault where it failed. -/
theorem calResult_leaves (s : State) (item : Nat) (ok : Bool) (e : Element) :
    (calResult s item ok e).srv = s.srv ∧
      (calResult s item ok e).cal.failed = (if ok then s.cal.failed &&& ~~~(1#8 <<< item) else s.cal.failed ||| 1#8 <<< item) ∧
      (calResult s item ok e).flt.cnt2 = (if ok then s.flt.cnt2 else satInc s.flt.cnt2) := by
  unfold calResult
  cases ok with
  | true => exact ⟨rfl, rfl, rfl⟩
  | false =>
    dsimp only
    rw [if_neg Bool.false_ne_true, fault2_srv, fault2_cal, fault2_cnt2]
    exact ⟨rfl, rfl, rfl⟩

theorem maDue_iff (l : Loop) :
    maDue l = true ↔ l.mode = .track ∧ (l.surface ∉ l.maSince ∨ 600 ≤ lookupD l.maTrack l.surface 0) := by
  simp [maDue]

/-- A loop whose active head's gain has been measured. -/
def maMeasured (now : Nat) (g : Option Qty) (l : Loop) : Loop :=
  { l with
    maGain := assocSet l.maGain l.surface g, lastMa := now, maTrack := assocSet l.maTrack l.surface 0,
    maSince := if l.surface ∈ l.maSince then l.maSince else l.surface :: l.maSince }

theorem maDue_maMeasured (now : Nat) (g : Option Qty) (l : Loop) : maDue (maMeasured now g l) = false := by
  rw [Bool.eq_false_iff, Ne, maDue_iff]
  rintro ⟨-, h | h⟩
  · refine h ?_
    dsimp only [maMeasured]
    split
    · assumption
    · exact List.mem_cons_self
  · rw [show lookupD (maMeasured now g l).maTrack (maMeasured now g l).surface 0 = 0 from lookupD_assocSet_same _ _ _ _] at h
    exact absurd h (by decide)

theorem maMeasured_gain (now : Nat) (g : Option Qty) (l : Loop) : lookupD (maMeasured now g l).maGain l.surface none = g :=
  lookupD_assocSet_same _ _ _ _

/-- What two or three measurements of an active head's gain give (R523). -/
def maAgreed (p : ProfAct) (l : Loop) (m1 m2 m3 : List Qty) : Option Qty :=
  agree3 (agreeRel (2 / 100)) (maFit p l m1) (maFit p l m2) (maFit p l m3)

/-- A due measurement changes the one loop, is item 7 of Table 18.5, and is a class 2 fault where no two measurements agree. -/
theorem microactuatorGainMeasure_due {s : State} {a : Fin 4} (h : maDue s.srv.loop[a] = true) (m1 m2 m3 : List Qty) :
    let g := maAgreed s.prof.act[a] s.srv.loop[a] m1 m2 m3
    let t := microactuatorGainMeasure s a m1 m2 m3
    t.srv = { s.srv with loop := vmod s.srv.loop a (maMeasured s.time g) } ∧ t.cal.failed.getLsbD 7 = !g.isSome ∧
      t.flt.cnt2 = (if g.isSome then s.flt.cnt2 else satInc s.flt.cnt2) := by
  intro g t
  unfold t microactuatorGainMeasure
  rw [if_neg (not_not.mpr h)]
  extract_lets fit g' s1 s2 _ s3 all _ s4 s5
  have h1 : s1.srv = { s.srv with loop := vmod s.srv.loop a (maMeasured s.time g) } := rfl
  have h2 : s2.srv = s1.srv ∧ s2.flt.cnt2 = s1.flt.cnt2 := by
    obtain ⟨hsrv, -, hcnt⟩ := calResult_leaves s1 1 true .none
    unfold s2
    split
    · exact ⟨rfl, rfl⟩
    · exact ⟨hsrv, hcnt⟩
  obtain ⟨hsrv, hfailed, hcnt⟩ := calResult_leaves s4 7 g.isSome (.head s.srv.loop[a].surface)
  have h5 : s5.srv = { s.srv with loop := vmod s.srv.loop a (maMeasured s.time g) } ∧ s5.cal.failed.getLsbD 7 = !g.isSome ∧
      s5.flt.cnt2 = (if g.isSome then s.flt.cnt2 else satInc s.flt.cnt2) := by
    refine ⟨hsrv.trans (h2.1.trans h1), ?_, ?_⟩
    · refine (congrArg (BitVec.getLsbD · 7) hfailed).trans ?_
      cases g.isSome <;> simp
    · refine hcnt.trans ?_
      rw [show s4.flt.cnt2 = s.flt.cnt2 from h2.2]
  obtain h | h := ite_eq_or_eq (g'.isSome = true) s5 (noteHealth s5 (.microactuator s.srv.loop[a].surface)) <;> rw [h]
  · exact h5
  · exact h5

/-! ## The bias tables (R167) -/

/-- A loop whose background tables have taken the place of those in use, 60 s after the last switch or later. -/
def tablesSwitched (now : Nat) (l : Loop) : Loop :=
  { l with lastSwitch := max now (l.lastSwitch + 60000000), bias := l.biasBg, fric := l.fricBg }

theorem biasTableSwitch_track {s : State} {a : Fin 4} (h : s.srv.loop[a].mode = .track) :
    biasTableSwitch s a = onLoop (s.at (s.srv.loop[a].lastSwitch + 60000000)) a (tablesSwitched s.time) :=
  if_neg (not_not.mpr h)

/-! ## Reading a slot back (R116, R120, R179) -/

/-- The decode that stands after steps 0 and 1, by their iteration limits (R116). -/
def decodedTwo (first retry strength : Nat) (x : List Soft) : Decoded :=
  if firstStep strength x = 1 ∨
      ((decodeSoft strength 0 first x).status ≠ 0 ∧ (decodeSoft strength 0 first x).status ≠ 2) then
    decodeSoft strength 1 retry x
  else decodeSoft strength 0 first x

theorem decodeTwo_eq (s : State) (strength : Nat) (x : List Soft) :
    ∃ g st, decodeTwo s strength x = ({ s with grt := g }, decodedTwo (iterFirst s) (iterRetry s) strength x, st) := by
  unfold decodeTwo decodedTwo
  dsimp only
  split
  · exact ⟨_, 1, rfl⟩
  · exact ⟨s.grt, 0, rfl⟩

/-- A leaf read back converged by step 1 and passed the checks of R120. -/
def readBackOk (s : State) (p : Pos) (strength : Nat) (kinds : List LeafKind) (home : Option (Nat × Nat)) (x : List Soft) : Bool :=
  decide ((decodedTwo (iterFirst s) (iterRetry s) strength x).status = 0) &&
    leafPasses p kinds home (leafOfBytes (decodedTwo (iterFirst s) (iterRetry s) strength x).info)

/-- A leaf read outside a request changes the grates' counters and logs alone. -/
theorem readTwo_eq (s : State) (p : Pos) (strength : Nat) (kinds : List LeafKind) (home : Option (Nat × Nat)) (x : List Soft) :
    ∃ g d, readTwo s p strength kinds home x false = ({ s with grt := g }, d, readBackOk s p strength kinds home x) := by
  obtain ⟨g, st, h⟩ := decodeTwo_eq s strength x
  unfold readTwo readBackOk
  rw [h]
  generalize decodedTwo (iterFirst s) (iterRetry s) strength x = d
  dsimp only
  split
  · next h0 => exact ⟨g, d, by simp [h0]⟩
  · next h0 =>
    split
    · next hp =>
      split
      · exact ⟨_, d, by rw [not_not.mp h0, hp]; rfl⟩
      · exact ⟨g, d, by rw [not_not.mp h0, hp]; rfl⟩
    · next hp => exact ⟨{ g with miscor := satInc g.miscor }, d, by simp [hp]⟩

theorem readTwo_ok (s : State) (p : Pos) (strength : Nat) (kinds : List LeafKind) (home : Option (Nat × Nat)) (x : List Soft) :
    (readTwo s p strength kinds home x false).2.2 = readBackOk s p strength kinds home x := by
  obtain ⟨c, d, h⟩ := readTwo_eq s p strength kinds home x
  rw [h]

theorem readBackOk_decoded {s : State} {p : Pos} {strength : Nat} {kinds : List LeafKind} {home : Option (Nat × Nat)} {x : List Soft}
    (h : readBackOk s p strength kinds home x = true) :
    ∃ d, (d = decodeSoft strength 0 (iterFirst s) x ∨ d = decodeSoft strength 1 (iterRetry s) x) ∧ d.status = 0 ∧
      leafPasses p kinds home (leafOfBytes d.info) = true := by
  obtain ⟨h0, hp⟩ := Bool.and_eq_true_iff.mp h
  refine ⟨_, ?_, of_decide_eq_true h0, hp⟩
  unfold decodedTwo
  split
  · exact .inr rfl
  · exact .inl rfl

section
variable {s : State} {p : Pos} {g : Group} {r : Ring} {i : Nat} (hg : groupOfRing s p.surface p.ring = some g)
  (hr : ringAt s p.surface p.ring = some r)
  (hi : ((List.range (g.k + g.m)).find? fun i => decide (piecePos g p.slot i = some p)) = some i)
include hg hr hi

/-- A slot of a group read back is left, or relocated where its frame is not located or its leaf does not pass. -/
theorem readbackSlot_eq (soft : Option (List Soft)) : ∃ c, readbackSlot s p soft =
    if soft.any (readBackOk s p r.strength (pieceKinds g i) (some (stripeNo g.id p.slot, i))) then { s with grt := c }
    else relocateSlot { s with grt := c } p := by
  unfold readbackSlot
  rw [hg, hr]
  dsimp only
  rw [hi]
  cases soft with
  | none => exact ⟨s.grt, rfl⟩
  | some x =>
    obtain ⟨c, d, h⟩ := readTwo_eq s p r.strength (pieceKinds g i) (some (stripeNo g.id p.slot, i)) x
    refine ⟨c, ?_⟩
    dsimp only
    rw [h]
    rfl

end

/-! ## SHINGLE_READBACK (R179) -/

/-- The slots of the track below that an actuator has still to read back. -/
def leftToRead (s : State) (a : Nat) (ps : List Pos) : State := onWr s a fun w => { w with readback := ps }

theorem leftToRead_self (s : State) (a : Fin 4) : leftToRead s a (wrAt s a).readback = s := by
  have hact : vmod s.wrt.act a (fun w => { w with readback := (wrAt s a).readback }) = s.wrt.act := by
    rw [wrAt, vget_eq_getElem _ a.isLt]
    exact (dif_pos a.isLt).trans (Vector.set_getElem_self _)
  unfold leftToRead onWr
  rw [hact]

theorem shingleReadback_eq (s : State) (a : Fin 4) (soft : List (Option (List Soft))) : shingleReadback s a soft =
    ((wrAt s a).readback.zip soft).foldl (fun s e => readbackSlot s e.1 e.2)
      (leftToRead s a ((wrAt s a).readback.drop soft.length)) := rfl

theorem shingleReadback_nil (s : State) (a : Fin 4) : shingleReadback s a [] = s := by
  rw [shingleReadback_eq, List.zip_nil_right]
  exact leftToRead_self s a

/-- A single slot read back comes off the list, and its group's stripe is to be relocated unless its leaf passes (R179). -/
theorem shingleReadback_one {s : State} {a : Fin 4} {p : Pos} {rest : List Pos} {g : Group} {r : Ring} {i : Nat}
    (hl : (wrAt s a).readback = p :: rest) (hg : groupOfRing s p.surface p.ring = some g)
    (hr : ringAt s p.surface p.ring = some r)
    (hi : ((List.range (g.k + g.m)).find? fun i => decide (piecePos g p.slot i = some p)) = some i) (soft : Option (List Soft)) :
    let good := soft.any (readBackOk s p r.strength (pieceKinds g i) (some (stripeNo g.id p.slot, i)))
    let t := shingleReadback s a [soft]
    (wrAt t a).readback = rest ∧ (good = true → t.str = s.str ∧ t.media = s.media) ∧
      (good = false → slotDefect t p = true ∧ (stripeNo g.id p.slot, false) ∈ t.str.relocPending) := by
  intro good t
  obtain ⟨c, h⟩ := readbackSlot_eq (s := leftToRead s a rest) hg hr hi soft
  have ht : t = if good then { leftToRead s a rest with grt := c } else relocateSlot { leftToRead s a rest with grt := c } p := by
    refine Eq.trans ?_ h
    unfold t
    rw [shingleReadback_eq, hl, List.zip_cons_cons, List.zip_nil_right]
    rfl
  have hw : (wrAt (leftToRead s a rest) a).readback = rest :=
    congrArg WrAct.readback (wrAt_onWr_same s a.isLt fun w => { w with readback := rest })
  rw [ht]
  cases good with
  | true => exact ⟨hw, fun _ => ⟨rfl, rfl⟩, fun h => absurd h (by decide)⟩
  | false =>
    obtain ⟨hd, hp, hf⟩ := relocateSlot_leaves (s := { leftToRead s a rest with grt := c }) hg
    have hrest := congrArg WrAct.readback (hf.paths a).rest
    exact ⟨hrest.trans hw, fun h => absurd h (by decide), fun _ => ⟨hd, hp⟩⟩

end Sys2Proof.Machine
end

section
/-! PROOF. The statement about shocks, engines, gains, tables and read-backs. -/
namespace Sys2Proof.Machine
open Sys2Proof

/-- Settles O48, command by command: a shock through the actuators it inhibits, the mirror check through the fault it declares, the
read-back through the slot it relocates. -/
theorem shockEnginesAndTables : Obligations.ShockEnginesAndTables := by
  unfold Obligations.ShockEnginesAndTables
  refine ⟨?_, ?_, ?_, ?_, ?_, ?_, maDue_iff, ?_, ?_, fun s a => ?_⟩
  · -- ACCELEROMETER_SAMPLE with EN clear (R540)
    intro s r0 r1 h
    refine congrArg Host.Outcome.next (if_pos ?_)
    rw [h]
    exact Bool.false_ne_true
  · -- ACCELEROMETER_SAMPLE (R176, R178)
    intro s r0 r1 hen
    obtain ⟨htime, hshock, hout, hrv, hinhibit, hframe⟩ := accelerometerSample_leaves hen r0 r1
    refine ⟨_, rfl, htime, fun hfull => ?_, ?_, ?_, ?_, hframe⟩
    · rw [hshock, accShock_full hfull, Bool.or_true]
    · rintro rfl
      rw [hout]
      exact (accJudge_other _ (by decide) r1 false).trans (accJudge_silent _ (by decide))
    · rintro g0 g1 rfl rfl h0 h1
      have huse := accInUse_values (g0 := g0) (g1 := g1) h0 h1
      refine ⟨?_, hrv huse⟩
      rw [hshock, accShock_values huse]
    · intro h0 h1 b
      obtain ⟨hinh, hpermit, hidle⟩ := hinhibit h0 h1 b b.isLt
      rw [vget_eq_getElem _ b.isLt] at hinh hpermit
      exact ⟨hinh, hpermit, hidle⟩
  · -- SHOCK_CLEAR (R178)
    intro s
    exact ⟨fun h => congrArg Host.Outcome.next (shockClear_over h), fun h => congrArg Host.Outcome.next (shockClear_waits h)⟩
  · -- DAMPER_MIRROR_CHECK (R183, R184)
    intro s n c1 c2
    refine ⟨fun h => congrArg Host.Outcome.next (if_pos h), fun h => ⟨_, rfl, damperMirrorCheck_counted h, ?_, ?_, ?_⟩⟩
    · intro hnear
      rw [damperMirrorCheck_near h hnear]
      rfl
    · intro hfar h4 hn hd
      rw [damperMirrorCheck_far h hfar]
      exact damperFault_spare_leaves (s := mirrorCounted s n) rfl h4 hn hd
    · intro hfar h4 hd
      rw [damperMirrorCheck_far h hfar]
      exact damperFault_noSpare_leaves (s := mirrorCounted s n) rfl h4 hd
  · -- MICROACTUATOR_GAIN_MEASURE due (R170, R523, R524)
    intro s a m1 m2 m3 hdue
    obtain ⟨hsrv, hfailed, hcnt⟩ := microactuatorGainMeasure_due hdue m1 m2 m3
    refine ⟨_, rfl, ?_, ?_, ?_, hfailed, hcnt, fun b hb => ?_⟩ <;> rw [hsrv]
    · exact congrArg Loop.lastMa (getElem_vmod_same _ a _)
    · exact (congrArg maDue (getElem_vmod_same _ a _)).trans (maDue_maMeasured _ _ _)
    · exact (congrArg (fun l => lookupD l.maGain s.srv.loop[a].surface none) (getElem_vmod_same s.srv.loop a _)).trans
        (maMeasured_gain _ _ _)
    · exact getElem_vmod_other _ hb _
  · -- MICROACTUATOR_GAIN_MEASURE not due (R170)
    intro s a m1 m2 m3 h
    refine congrArg Host.Outcome.next (if_pos ?_)
    rw [h]
    exact Bool.false_ne_true
  · -- BIAS_TABLE_SWITCH (R167)
    intro s a h
    exact ⟨_, congrArg Host.Outcome.next (biasTableSwitch_track h), rfl, getElem_vmod_same _ a _, rfl,
      fun b hb => getElem_vmod_other _ hb _⟩
  · -- SHINGLE_READBACK (R116, R120, R179)
    intro s a soft p rest g r i hl hg hr hi
    simp only [readTwo_ok]
    exact ⟨fun x hx => readBackOk_decoded hx, _, rfl, shingleReadback_one hl hg hr hi soft⟩
  · exact congrArg Host.Outcome.next (shingleReadback_nil s a)

end Sys2Proof.Machine
end

section
/-! PROOF. Starting the spindle: the measurement, the alignment, the handover, and rest. -/
namespace Sys2Proof.Machine
open Sys2Proof

/-! ## The rotor's state from the measurement (R212) -/

theorem rotorFound_atRest {s : State} {m : EmfSeen} (ha : m.ampA < s.prof.restMv) (hb : m.ampB < s.prof.restMv)
    (hc : m.ampC < s.prof.restMv) : rotorFound s m = .atRest := if_pos ⟨ha, hb, hc⟩

/-- Two crossings a sixth of an electrical period apart give direction and speed. -/
theorem rotorFound_crossings {s : State} {m : EmfSeen} {p q : Fin 3} {a b : Qty} {rest : List (Fin 3 × Qty)}
    (hamp : s.prof.restMv ≤ m.ampA) (hm : m.crossings = (p, a) :: (q, b) :: rest) (hab : a < b) (hpp : 0 < polePairs s) :
    rotorFound s m =
      if q = p then .indeterminate
      else if q = p + 2 then .forward (60 / (6 * (b - a) * polePairs s)) else .backward (60 / (6 * (b - a) * polePairs s)) := by
  have hdt : 0 < (b - a) * polePairs s := mul_pos (sub_pos.mpr hab) hpp
  have hrpm : 60 / (6 * (b - a) * polePairs s) = 10 / ((b - a) * polePairs s) := by
    rw [mul_assoc, show (60 : Qty) = 6 * 10 by norm_num, mul_div_mul_left _ _ (by norm_num)]
  unfold rotorFound
  rw [if_neg fun h => absurd h.1 (not_lt.mpr hamp), hm, hrpm]
  refine if_congr ?_ rfl rfl
  exact ⟨fun h => (h.resolve_left (not_le.mpr hdt)).symm, fun h => .inr h.symm⟩

/-! ## A rotor at rest (R212, R214, R215) -/

/-- A rotor at rest starts in open loop: from the pulse that rises fastest, else with the alignment from now on. -/
theorem startAtRest_leaves (s : State) (rises : List Qty) :
    let t := startAtRest s rises
    t.time = s.time ∧ t.spn.state = s.spn.state ∧ t.spn.bank = .none ∧ t.spn.mode = .openLoop ∧ t.spn.speed = 0 ∧
      (if (fastestPulse rises).isSome = true then t.spn.alignAt = none ∧ t.spn.cmdQ = s.prof.startI
       else t.spn.alignAt = some s.time ∧ t.spn.cmdQ = s.prof.alignI) := by
  unfold startAtRest
  cases fastestPulse rises <;> exact ⟨rfl, rfl, rfl, rfl, rfl, rfl, rfl⟩

/-- A braked rotor at rest starts where a start is to follow and may; else the spindle is Banked. -/
theorem restDeclared_braking {s : State} (h : s.spn.mode = .braking) (rises : List Qty) :
    restDeclared s rises = if s.spn.thenStart ∧ mayStart s then startAtRest s rises else spnBanked s := by
  unfold restDeclared
  exact if_neg (not_not.mpr h)

/-! ## The end of the measurement (Table 8.3) -/

section
variable {s : State} {m : EmfSeen} (rises : List Qty)

/-- The state at the end of the 20 ms. -/
def measured (s : State) : State := s.at (s.spn.measureAt + 20000)

/-- The low-side phases shorted to brake a rotor that still turns, or whose turning shows no direction. -/
def brakedFirst (s : State) : State :=
  { measured s with spn.mode := .braking, spn.bank := .shorted, spn.thenStart := !s.spn.restOnly }

/-- A rotor turning forward fast enough is caught: the observer locked, the reference at its speed (R213). -/
def caught (s : State) (m : EmfSeen) (rpm : Qty) : State :=
  { measured s with
    spn.mode := .closedLoop, spn.observing := true, spn.obs := emfLock s m.emfA m.emfB m.emfC, spn.speed := rpm,
    spn.obsSpeed := rpm, spn.reference := rpm, spn.cmdD := 0, spn.cmdQ := 0, spn.ramp := 0, spn.restOnly := false,
    spn.bank := .none, spn.target := if s.spn.target = 0 then targetCapped (measured s) else s.spn.target }

/-- A rotor turning backward too fast to short is decelerated with its observer turned round. -/
def deceleratedBackward (s : State) (m : EmfSeen) (rpm : Qty) : State :=
  let o := emfLock s m.emfA m.emfB m.emfC
  { measured s with
    spn.mode := .closedLoop, spn.bank := .decel, spn.speed := rpm, spn.thenStart := !s.spn.restOnly, spn.backward := true,
    spn.obs := ⟨-o.cosA, -o.sinA, -o.omega, 0, 0⟩ }

/-- START_MEASURE_DONE: one outcome for each state of the rotor. -/
theorem startMeasureDone_measuring (h : s.spn.mode = .measuring) :
    startMeasureDone s m rises =
      match rotorFound s m with
      | .atRest => if s.spn.restOnly then spnBanked (measured s) else startAtRest (measured s) rises
      | .indeterminate => brakedFirst s
      | .forward rpm => if rpm < 300 then { brakedFirst s with spn.speed := rpm } else caught s m rpm
      | .backward rpm =>
        if rpm < s.prof.shortRpm then { brakedFirst s with spn.speed := rpm } else deceleratedBackward s m rpm := by
  unfold startMeasureDone
  rw [if_neg (not_not.mpr h)]
  rfl
end

/-! ## The end of the alignment (R214) and the handover (R215) -/

/-- A start that has not reached 600 rpm has not failed. -/
theorem startFailCheck_slow {s : State} (h : s.spn.speed < 600) : startFailCheck s = s := by
  unfold startFailCheck
  exact if_neg fun ⟨_, _, _, hfast⟩ => absurd hfast (not_le.mpr h)

theorem rotorAlignDone_aligned {s : State} {u : Nat} (h : s.spn.alignAt = some u) (hv : s.spn.speed < 600) :
    rotorAlignDone s = openLoopFrom (s.at (u + 300000)) Config.alignTurn := by
  unfold rotorAlignDone
  rw [h]
  exact startFailCheck_slow hv

/-! ## The statement about starts -/

/-- Settles O44: the measurement by the rotor's states, each with its outcome; the other commands by their equations. -/
theorem spindleStarts : Obligations.SpindleStarts := by
  unfold Obligations.SpindleStarts
  refine ⟨fun s m => rotorFound_atRest, fun s m p q a b rest => rotorFound_crossings, fun s m rises hm => ?_, fun s u ha hv => ?_,
    fun s hm hv hc ha => congrArg Host.Outcome.next (if_pos ⟨hm, hv, hc, ha⟩), fun s rises hm => ?_⟩
  · -- START_MEASURE_DONE (R212 to R214, Table 8.3)
    refine ⟨_, rfl, ?_⟩
    rw [startMeasureDone_measuring rises hm]
    cases rotorFound s m with
    | atRest =>
      dsimp only
      by_cases hr : s.spn.restOnly = true
      · rw [if_pos hr, if_pos hr]
        exact ⟨rfl, rfl, rfl, rfl⟩
      · obtain ⟨htime, -, -, hmode, hspeed, halign⟩ := startAtRest_leaves (measured s) rises
        rw [if_neg hr, if_neg hr]
        exact ⟨htime, hmode, hspeed, htime ▸ halign⟩
    | indeterminate => exact ⟨rfl, rfl, rfl, rfl⟩
    | forward rpm =>
      dsimp only
      by_cases hv : rpm < 300
      · rw [if_pos hv, if_pos hv]
        exact ⟨rfl, rfl, rfl, rfl⟩
      · rw [if_neg hv, if_neg hv]
        exact ⟨rfl, rfl, rfl, rfl, rfl, rfl⟩
    | backward rpm =>
      dsimp only
      by_cases hv : rpm < s.prof.shortRpm
      · rw [if_pos hv, if_pos hv]
        exact ⟨rfl, rfl, rfl, rfl⟩
      · rw [if_neg hv, if_neg hv]
        exact ⟨rfl, rfl, rfl, rfl⟩
  · -- ROTOR_ALIGN_DONE (R214)
    refine ⟨_, rfl, ?_⟩
    rw [rotorAlignDone_aligned ha hv]
    exact ⟨rfl, rfl, rfl⟩
  · -- REST_DECLARED (R212, R217)
    refine ⟨_, rfl, ?_⟩
    rw [restDeclared_braking hm]
    by_cases hs : s.spn.thenStart = true ∧ mayStart s = true
    · obtain ⟨-, hstate, hbank, hmode, hspeed, -⟩ := startAtRest_leaves s rises
      rw [if_pos hs]
      exact ⟨hspeed, fun _ _ => ⟨hmode, hbank, hstate⟩, by simp [hs]⟩
    · rw [if_neg hs]
      exact ⟨rfl, fun h1 h2 => absurd ⟨h1, h2⟩ hs, fun _ => ⟨rfl, rfl, rfl⟩⟩

end Sys2Proof.Machine
end

section
/-! PROOF. What faults and the start of a banking sequence leave of the spindle, and the readings of a current cycle. -/
namespace Sys2Proof.Machine
open Sys2Proof

/-! ## Faults and the start of a banking sequence leave the spindle as it is -/

theorem OnlyService.spn {s t : State} (h : OnlyService s t) : t.spn = s.spn := by rw [h]

theorem ashRecord_spn (s : State) (tr c : Nat) (e : Element) (d : List Nat) : (ashRecord s tr c e d).spn = s.spn :=
  (ashRecord_onlyService s tr c e d).spn

theorem fault2_spn (s : State) (e : Element) (tr : Nat) (d : List Nat) (h : HealthEvent) : (fault2 s e tr d h).spn = s.spn :=
  (fault2_onlyService s e tr d h).spn

theorem ashEnqueue_health (s : State) (r : AshRec) : (ashEnqueue s r).ash.health = s.ash.health := by
  unfold ashEnqueue
  repeat' split
  all_goals rfl

/-- A record leaves the health log as it is. -/
theorem ashRecord_health (s : State) (tr c : Nat) (e : Element) (d : List Nat) :
    (ashRecord s tr c e d).ash.health = s.ash.health := by
  simp only [ashRecord]
  split
  · rfl
  · obtain ⟨c, n, f, h⟩ := regReads_frame ((lookupD s.prof.ashList tr []).take 48) s []
    rw [ashEnqueue_health, h]

theorem frameAbortAll_spn (s : State) : (frameAbortAll s).spn = s.spn := by
  obtain ⟨w, f, q, h⟩ := frameAbortAll_frame s
  rw [h]

/-- The start of a banking sequence leaves the spindle to its own loops (R515). -/
theorem bankStart_spn (s : State) (c : BankCause) : (bankStart s c).spn = s.spn := by
  unfold bankStart
  split
  · split <;> rfl
  · obtain ⟨q, n, h⟩ := patchStop_frame s
    extract_lets dest s1 _ _ _ _ s2 s3
    have h2 : s2.spn = s.spn := by
      unfold s2 s1
      rw [h]
    have h3 : s3.spn = s2.spn := by
      obtain ⟨q, hq⟩ := trapAll_frame s2 .banking
      refine (bankRecord_onlyService _ c).spn.trans ?_
      rw [hq]
    refine Eq.trans ?_ (h3.trans h2)
    clear_value dest
    cases dest
    · exact (bankToRings_onlyService s3).spn
    · exact (bankToMram_onlyService s3).spn

/-! ## The readings of a current cycle (R191, R192) -/

/-- The currents in the rotor frame, the count of cycles, and the observer's validity. -/
def cycleReadings (s : State) : Qty × Qty × Nat × Bool := (s.spn.iD, s.spn.iQ, s.spn.curCycles, s.spn.obsValid)

theorem cycleReadings_congr {s t : State} (h : t.spn = s.spn) : cycleReadings t = cycleReadings s := by
  unfold cycleReadings
  rw [h]

theorem spindleHalt_readings (s : State) : cycleReadings (spindleHalt s) = cycleReadings s := by
  unfold spindleHalt
  split <;> rfl

theorem bankProgress_readings (s : State) : cycleReadings (bankProgress s) = cycleReadings s := by
  unfold bankProgress
  split
  · rfl
  · rfl
  · split
    · exact (cycleReadings_congr (unloadAll_spn _ 1)).trans rfl
    · rfl
  · split
    · rfl
    · split
      · exact spindleHalt_readings s
      · split <;> rfl
  · split
    · split <;> rfl
    · split <;> rfl

theorem startFailCheck_readings (s : State) : cycleReadings (startFailCheck s) = cycleReadings s := by
  unfold startFailCheck startFail
  split
  · extract_lets n _ u
    have hu : cycleReadings u = cycleReadings s := rfl
    split
    · exact hu
    · exact (cycleReadings_congr (fault2_spn u _ _ _ _)).trans hu
  · rfl

theorem spnRestart_readings (s : State) : cycleReadings (spnRestart s) = cycleReadings s :=
  (cycleReadings_congr (fault2_spn _ _ _ _ _)).trans rfl

theorem rotorLost_readings (s : State) : cycleReadings (rotorLost s) = cycleReadings s := by
  unfold rotorLost
  extract_lets failed fails ret _ u
  have hu : cycleReadings u = cycleReadings s := rfl
  split
  · exact hu
  · split
    · exact hu
    · exact (spnRestart_readings u).trans hu

theorem periodEnd_readings (s : State) (smp : CurSample) : cycleReadings (periodEnd s smp) = cycleReadings s := by
  unfold periodEnd
  extract_lets _ u _ exc n v _ w
  have hv : cycleReadings v = cycleReadings s := rfl
  have hw : cycleReadings w = cycleReadings v := by
    unfold w
    repeat' split
    all_goals rfl
  split
  · rfl
  · split
    · exact (rotorLost_readings w).trans (hw.trans hv)
    · exact hw.trans hv

theorem cycleCommand_speed_curCycles (s : State) (vm : Qty) :
    (cycleCommand s vm).spn.speed = s.spn.speed ∧ (cycleCommand s vm).spn.curCycles = s.spn.curCycles := by
  unfold cycleCommand
  extract_lets
  split
  · exact ⟨rfl, rfl⟩
  · repeat' split
    all_goals exact ⟨rfl, rfl⟩

theorem mirrored_readings (s : State) : cycleReadings (countSample (mirrorSpindle s) 4) = cycleReadings s := rfl

theorem forcedStep_readings (s : State) : cycleReadings (forcedStep s) = cycleReadings s := by
  unfold forcedStep
  split <;> rfl

/-- A current cycle leaves the transformed currents and its judgement of the residual, whatever the end of a period, a failed
start or a step of a banking then makes of the spindle. -/
theorem currentLoopCycle_readings {s : State} (hmode : s.spn.mode ≠ .off) (hen : blkEn s 13 = true) (smp : CurSample) (vm : Qty) :
    let fr := rotorFrame s
    let da := smp.iAlpha - s.spn.obs.predAlpha
    let db := smp.iBeta - s.spn.obs.predBeta
    let thr := s.prof.obsThr * s.prof.iRunMax
    cycleReadings (currentLoopCycle s smp vm) =
      (fr.1 * smp.iAlpha + fr.2 * smp.iBeta, fr.1 * smp.iBeta - fr.2 * smp.iAlpha, s.spn.curCycles + 1,
        !decide (thr * thr < da * da + db * db) && decide (300 ≤ s.spn.speed)) := by
  intro fr da db thr
  obtain ⟨hspeed, hcycles⟩ := cycleCommand_speed_curCycles s vm
  unfold currentLoopCycle
  rw [if_neg (by simp [hmode, hen])]
  extract_lets o iD iQ da db exc c drive stale _
  split
  next reg volts _ =>
    extract_lets s1 s2 _ s3 s4 s5
    have h1 : cycleReadings s1 =
        (iD, iQ, s.spn.curCycles + 1, !decide (thr * thr < da * da + db * db) && decide (300 ≤ s.spn.speed)) := by
      rw [← hspeed, ← hcycles]
      rfl
    have h2 : cycleReadings s2 = cycleReadings s1 := forcedStep_readings s1
    clear_value s2
    have h3 : cycleReadings s3 = cycleReadings s2 := by
      unfold s3
      split <;> rfl
    have h4 : cycleReadings s4 = cycleReadings s3 := by
      unfold s4
      split
      · exact periodEnd_readings s3 smp
      · rfl
    clear_value s4
    have h5 : cycleReadings s5 = cycleReadings s4 := by
      unfold s5
      split <;> rfl
    clear_value s5
    have h6 : cycleReadings (bankProgress (startFailCheck s5)) = cycleReadings s5 :=
      (bankProgress_readings _).trans (startFailCheck_readings s5)
    exact (mirrored_readings _).trans <| h6.trans (h5.trans (h4.trans (h3.trans (h2.trans h1))))

end Sys2Proof.Machine
end

section
/-! PROOF. The speed loop, re-catches, the measurements, and the statement about the spindle's loops. -/
namespace Sys2Proof.Machine
open Sys2Proof

/-! ## The reference of a speed cycle (R198) -/

/-- The reference leads the measured speed by no more than 1 %, and below 300 rpm stays within 300 rpm. -/
theorem referenceNext_le {s : State} (h : 0 ≤ s.spn.speed) : referenceNext s ≤ max (s.spn.speed * 101 / 100) 300 := by
  unfold referenceNext
  extract_lets tgt rate r r1
  clear_value r1
  split
  · exact max_le_max le_rfl (min_le_right r1 300)
  · next hlead =>
    refine le_max_of_le_left ?_
    split
    · linarith
    · exact not_lt.mp hlead

/-- The measured speed, the reference and the step of a banking. -/
def speedView (s : State) : Qty × Qty × BankPhase := (s.spn.speed, s.spn.reference, s.spn.bank)

theorem speedView_congr {s t : State} (h : t.spn = s.spn) : speedView t = speedView s := by
  unfold speedView
  rw [h]

theorem bankProgress_idle {s : State} (h : s.spn.bank = .none) : bankProgress s = s := by
  unfold bankProgress
  rw [h]

theorem speedAborts_spn (s : State) : (speedAborts s).spn = s.spn := by
  unfold speedAborts
  split
  · exact frameAbortAll_spn s
  · rfl

theorem slowRotor_spn (s : State) : (slowRotor s).spn = s.spn := by
  unfold slowRotor
  split
  · exact bankStart_spn s .slowRotor
  · rfl

theorem signalChange_speedView (s : State) : speedView (signalChange s) = speedView s := by
  obtain ⟨b, w, h⟩ := signalChange_frame s
  rw [h]
  rfl

theorem offTarget_speedView (s : State) : speedView (offTarget s) = speedView s := by
  unfold offTarget
  split <;> rfl

theorem cogAdapt_speedView (s : State) : speedView (cogAdapt s) = speedView s := by
  unfold cogAdapt
  repeat' split
  all_goals rfl

/-- The end of a speed cycle outside a banking: frames are abandoned, a banking sequence starts, a change is signalled, and the
spindle turns as before. -/
theorem speedCycleEnd_speedView {s : State} (h : s.spn.bank = .none) :
    speedView (mirrorSpindle (bankProgress (signalChange (slowRotor (speedAborts s))))) = speedView s := by
  have hv : speedView (signalChange (slowRotor (speedAborts s))) = speedView s :=
    (signalChange_speedView _).trans (speedView_congr ((slowRotor_spn _).trans (speedAborts_spn s)))
  have hb : (signalChange (slowRotor (speedAborts s))).spn.bank = .none := (congrArg (·.2.2) hv).trans h
  rw [bankProgress_idle hb]
  exact hv

/-- A speed cycle outside a banking takes the speed measured and sets the reference that R198 gives for it. -/
theorem speedLoopCycle_speedView {s : State} (hmode : s.spn.mode ≠ .off) (hen : blkEn s 13 = true) (hbank : s.spn.bank = .none) :
    let speed := if wedgeSource s = none then noWedgeSpeed s else s.spn.speed
    speedView (speedLoopCycle s) = (speed, referenceNext { s with spn.speed := speed }, .none) := by
  intro speed
  unfold speedLoopCycle
  rw [if_neg (by simp [hmode, hen])]
  extract_lets _ s1 r _ s2 fb
  have h1 : s1 = { s with spn.speed := speed } := by
    unfold s1 speed
    split <;> rfl
  have h2 : speedView s2 = (s1.spn.speed, referenceNext s1, s1.spn.bank) := rfl
  rw [h1, show ({ s with spn.speed := speed } : State).spn.bank = .none from hbank] at h2
  clear_value s2
  split
  next out int _ =>
    extract_lets s3 q _ s4 _ s5 s6 s7
    have h3 : speedView s3 = speedView s2 := rfl
    have h4 : speedView s4 = speedView s3 := by
      unfold s4
      repeat' split
      all_goals rfl
    clear_value s4
    have h5 : speedView s5 = speedView s4 := by
      unfold s5
      split <;> rfl
    clear_value s5
    have h7 : speedView s7 = (speed, referenceNext { s with spn.speed := speed }, .none) :=
      (cogAdapt_speedView _).trans <| (offTarget_speedView s5).trans <| h5.trans <| h4.trans <| h3.trans h2
    exact (speedCycleEnd_speedView (congrArg (·.2.2) h7)).trans h7

/-! ## A re-catch ends (R221, R223) -/

theorem spnRestart_counted (s : State) : (spnRestart s).spn.cntRecatch = s.spn.cntRecatch ∧ (spnRestart s).spn.recEnd = none := by
  unfold spnRestart
  rw [fault2_spn]
  exact ⟨rfl, rfl⟩

/-- A loss is counted and ends no re-catch well. -/
theorem rotorLost_counted (s : State) :
    (rotorLost s).spn.cntRecatch = satInc s.spn.cntRecatch ∧ (rotorLost s).spn.recEnd = none := by
  unfold rotorLost
  extract_lets failed fails ret _ u
  split
  · exact ⟨rfl, rfl⟩
  · split
    · exact ⟨rfl, rfl⟩
    · exact spnRestart_counted u

/-- The first and second failure of a re-catch begin the next. -/
theorem rotorLost_again {s : State} (hs : s.spn.state = .recatch) (hf : s.spn.recFails < 2) :
    (rotorLost s).spn.state = .recatch ∧ (rotorLost s).spn.mode = .frozen ∧ (rotorLost s).spn.recFails = s.spn.recFails + 1 := by
  unfold rotorLost
  extract_lets failed fails ret _ u
  have hfails : fails = s.spn.recFails + 1 := if_pos (.inl hs)
  rw [if_pos (by omega)]
  exact ⟨rfl, rfl, hfails⟩

theorem recatchComplete_lost {s : State} (hs : s.spn.state = .recatch) (ho : 3 ≤ s.spn.overRun) :
    recatchComplete s = rotorLost s := by
  unfold recatchComplete
  rw [if_neg (not_not.mpr hs), if_pos ho]

/-- A re-catch that holds returns to its state with the torque command of the loss, and is noted (R221). -/
theorem recatchComplete_holds {s : State} (hs : s.spn.state = .recatch) (ho : s.spn.overRun < 3) (hc : 4 ≤ s.spn.cleanRun)
    (hp : 11 ≤ s.spn.recPeriods) (hr : s.spn.retState = .decelerating ∨ speedWithin s (5 / 10000) = true) :
    (recatchComplete s).spn =
        { s.spn with state := s.spn.retState, mode := .closedLoop, recEnd := some s.time, cmdQ := s.spn.frozen } ∧
      (recatchComplete s).ash.health = (s.hours, .recatch) :: s.ash.health := by
  unfold recatchComplete
  rw [if_neg (not_not.mpr hs), if_neg (Nat.not_le.mpr ho), if_pos ⟨hc, hp, hr⟩]
  exact ⟨ashRecord_spn _ _ _ _ _, ashRecord_health _ _ _ _ _⟩

/-! ## The copper loss (R226) -/

/-- The ratio of the mean square current to the square of the mean torque current. -/
def copperRatio (p : SpnS) : Qty :=
  let n : Qty := p.cuCycles
  let i := p.cuTorque / n
  if i = 0 then 1 else p.cuSum / n / (i * i)

/-- After 65,536 cycles the ratio is stored and the sums begin again. -/
theorem copperLossMeasure_spn {s : State} (h : 65536 ≤ s.spn.cuCycles) :
    (copperLossMeasure s).spn = { s.spn with
      cuCycles := 0, cuSum := 0, cuTorque := 0, cuValid := true,
      cuRatio := BitVec.ofNat 16 (min 0xFFFF (copperRatio s.spn * 4096).floor.toNat) } := by
  unfold copperLossMeasure
  rw [if_neg (Nat.not_lt.mpr h)]
  extract_lets n i ratio r _ u
  split
  · exact ashRecord_spn u _ _ _ _
  · rfl

/-! ## The statement about the spindle's loops -/

/-- Settles O45: each loop's cycle through what the rest of the cycle leaves alone (`cycleReadings`, `speedView`), a re-catch
through the rotor's loss, and the measurements by their equations. -/
theorem spindleLoopsAndRecatch : Obligations.SpindleLoopsAndRecatch := by
  unfold Obligations.SpindleLoopsAndRecatch
  refine ⟨?_, ?_, ?_, ?_, ?_, ?_, ?_⟩
  · -- CURRENT_LOOP_CYCLE (R191, R192)
    intro s smp vm hmode hen o forced fr thr da db
    have hfr : rotorFrame s = fr := by simp [rotorFrame, fr, forced, o]
    have h := currentLoopCycle_readings hmode hen smp vm
    rw [hfr] at h
    simp only [cycleReadings, Prod.mk.injEq] at h
    obtain ⟨hD, hQ, hcycles, hvalid⟩ := h
    exact ⟨_, rfl, hD, hQ, hcycles, hvalid⟩
  · -- SPEED_LOOP_CYCLE (R195, R198)
    intro s hmode hen hbank speed
    have h := speedLoopCycle_speedView hmode hen hbank
    simp only [speedView, Prod.mk.injEq] at h
    obtain ⟨hspeed, href, -⟩ := h
    refine ⟨_, rfl, hspeed, href, fun h0 => ?_⟩
    rw [href]
    exact referenceNext_le h0
  · -- The speed without a valid sample (R195, R217)
    intro s
    exact ⟨fun h => by rw [noWedgeSpeed, h], fun h => by rw [noWedgeSpeed, h]⟩
  · -- Both cycles, off or with EN clear (R540)
    intro s smp vm h
    have h' : s.spn.mode = .off ∨ ¬ blkEn s 13 = true := by simpa using h
    exact ⟨congrArg Host.Outcome.next (if_pos h'), congrArg Host.Outcome.next (if_pos h')⟩
  · -- RECATCH_COMPLETE (R221, R223)
    intro s hs
    refine ⟨fun ho hc hp hr => ?_, fun ho => ?_⟩
    · obtain ⟨hspn, hhealth⟩ := recatchComplete_holds hs ho hc hp hr
      refine ⟨_, rfl, ?_⟩
      rw [hspn]
      exact ⟨rfl, rfl, rfl, rfl, hhealth⟩
    · obtain ⟨hcount, hend⟩ := rotorLost_counted s
      refine ⟨_, rfl, ?_⟩
      rw [recatchComplete_lost hs ho]
      exact ⟨hcount, hend, rotorLost_again hs⟩
  · -- COPPER_LOSS_MEASURE (R226)
    intro s h n i r
    refine ⟨_, rfl, ?_⟩
    rw [copperLossMeasure_spn h]
    exact ⟨rfl, rfl, rfl, rfl, rfl⟩
  · -- COG_TABLE_SWITCH (R220)
    intro s h
    exact ⟨_, congrArg Host.Outcome.next (if_neg h), rfl, rfl, rfl, rfl⟩

end Sys2Proof.Machine
end

section
/-! PROOF. Reconstructions: a source set solved, and a leaf that no set gives back. -/
namespace Sys2Proof.Machine
open Sys2Proof

/-! ## A leaf settled or lost leaves the stripes' lists as they are (R399) -/

theorem ashRecord_str (s : State) (tr c : Nat) (e : Element) (d : List Nat) : (ashRecord s tr c e d).str = s.str := by
  obtain ⟨a, r, n, f, h⟩ := ashRecord_frame s tr c e d
  rw [h]

theorem damageVersion_str (s : State) (key : List Byte) (no oid : Nat) : (damageVersion s key no oid).str = s.str := by
  unfold damageVersion
  split
  · rfl
  · exact ashRecord_str (noteHealth s (.damaged oid no)) _ _ _ _

theorem damageZone_str (s : State) (z : Nat) (ords : List Nat) : (damageZone s z ords).str = s.str := by
  unfold damageZone
  extract_lets no s1
  split
  · rfl
  · exact ashRecord_str (noteHealth s1 (.damaged (2 ^ 63 + z) no)) _ _ _ _

theorem damageLeaf_str (s : State) (p : Nat × Nat) : (damageLeaf s p).str = s.str := by
  unfold damageLeaf
  split
  · exact damageVersion_str _ _ _ _
  · exact foldl_frame (fun s t => t.str = s.str) (fun _ => rfl) (fun _ _ _ h k => k.trans h) _
      (fun s z => damageZone_str s z _) _ s

theorem settleLeaf_str (s : State) (id idx : Nat) (res : Option Leaf) : (settleLeaf s id idx res).str = s.str := by
  unfold settleLeaf releaseLeaves
  split
  · rfl
  · dsimp only
    split
    · rfl
    · obtain ⟨l, h⟩ := cacheFail_frame (dropRead s id idx) _ _
      rw [h]
      rfl
    · rfl

theorem leafLost_str (s : State) (id idx : Nat) : (leafLost s id idx).str = s.str := by
  unfold leafLost
  split
  · extract_lets s1
    have h1 : s1.str = s.str := settleLeaf_str _ _ _ _
    split
    · split
      · split
        · exact (damageLeaf_str _ _).trans h1
        · exact h1
      · exact h1
    · exact h1
  · rfl

theorem leafBy_leafLost {s : State} {id idx : Nat} {l : ReqLeaf} (h : leafBy s id idx = some l) :
    leafBy (leafLost s id idx) id idx = some (leafEnd none l) := by
  rw [leafBy_congr (leafLost_reqs s id idx), leafBy_settleLeaf_same h]

/-! ## A reconstruction ended -/

theorem rebuildEnd_gone (s : State) (b : Rebuild) : ∀ y ∈ (rebuildEnd s b).str.rebuilds, y.srcReq ≠ b.srcReq := by
  intro y hy
  simpa using (List.mem_filter.mp hy).2

/-- The end of a reconstruction removes the request of its sources and no other. -/
theorem leafBy_rebuildEnd {s : State} {b : Rebuild} {id : ReqId} (h : id ≠ b.srcReq) (idx : Nat) :
    leafBy (rebuildEnd s b) id idx = leafBy s id idx := by
  have hr (r : Request) : (r.id ≠ b.srcReq ∧ r.id = id) = (r.id = id) := propext ⟨And.right, fun e => ⟨e ▸ h, e⟩⟩
  unfold leafBy reqBy rebuildEnd
  simp only [List.find?_filter, decide_eq_true_eq, hr]

/-! ## STRIPE_ENGINE_SOLVE (R244, R245) -/

/-- The sources of the set tried now that have arrived, with their coded regions. -/
def piecesGot (b : Rebuild) : List (Nat × List Byte) :=
  (sourceSet b).filterMap fun i => (b.arrived.find? fun a => a.piece = i).map fun a => (i, a.coded)

/-- What those sources solve the missing piece to, where it passes its check. -/
def pieceSolved (g : Group) (b : Rebuild) : Option (List Byte) :=
  (solvePiece g.k g.m b.piece (piecesGot b)).filter (rebuiltOk g b.piece)

/-- The matrix of the set tried now kept with the last 64 (R244). -/
def matrixKept (s : State) (g : Group) (b : Rebuild) : State :=
  let missing := (List.range (g.k + g.m)).filter fun i =>
    (piecePos g (stripeSlot b.stripe) i).any fun p => headState s p.surface = .out
  { s with str.matrices := ((missing, sourceSet b) :: s.str.matrices.filter (· ≠ (missing, sourceSet b))).take 64 }

section
variable {s : State} {src : Fin 8192} {b : Rebuild} {g : Group}
  (hb : (s.str.rebuilds.find? fun x => x.srcReq = src.val) = some b) (hg : groupById s (stripeGroup b.stripe) = some g)
include hb hg

theorem stripeEngineSolve_few (hn : (piecesGot b).length < g.k) : stripeEngineSolve s src = s := by
  unfold stripeEngineSolve
  rw [hb]
  dsimp only
  rw [hg]
  exact if_pos hn

theorem stripeEngineSolve_solved (hn : g.k ≤ (piecesGot b).length) {x : List Byte} (hx : pieceSolved g b = some x) :
    stripeEngineSolve s src =
      settleLeaf (rebuildEnd (matrixKept s g b) b) b.req b.leafIdx (some (bareLeaf b.stripe b.piece x)) := by
  unfold pieceSolved piecesGot at hx
  unfold stripeEngineSolve
  rw [hb]
  dsimp only
  rw [hg]
  refine (if_neg (Nat.not_lt.mpr hn)).trans ?_
  rw [hx]
  rfl

theorem stripeEngineSolve_exhausted (hn : g.k ≤ (piecesGot b).length) (hx : pieceSolved g b = none) (hm : g.m ≤ b.sets) :
    stripeEngineSolve s src = leafLost (rebuildEnd (matrixKept s g b) b) b.req b.leafIdx := by
  unfold pieceSolved piecesGot at hx
  unfold stripeEngineSolve
  rw [hb]
  dsimp only
  rw [hg]
  refine (if_neg (Nat.not_lt.mpr hn)).trans ?_
  rw [hx, if_neg (Nat.not_lt.mpr hm)]
  rfl

end

end Sys2Proof.Machine
end

section
/-! PROOF. The leaf store's operations keep the objects, and a group that is freed. -/
namespace Sys2Proof.Machine
open Sys2Proof

/-! ## Groups by identity -/

theorem groupById_congr {s t : State} (h : t.str.groups = s.str.groups) (gid : Nat) : groupById t gid = groupById s gid := by
  unfold groupById
  rw [h]

theorem groupById_id {s : State} {gid : Nat} {g : Group} (h : groupById s gid = some g) : g.id = gid := by
  simpa using List.find?_some h

theorem groupById_onGroup (s : State) (i : Nat) {f : Group → Group} (hf : ∀ g, (f g).id = g.id) (gid : Nat) :
    groupById (onGroup s i f) gid = (groupById s gid).map fun g => if g.id = i then f g else g := by
  have hk (g : Group) : (if g.id = i then f g else g).id = g.id := by
    split
    · exact hf g
    · rfl
  unfold groupById onGroup
  rw [List.find?_map]
  simp only [Function.comp_def, hk]

/-- The group of an identity is freed. -/
def GroupFreed (s : State) (gid : Nat) : Prop := (groupById s gid).map (·.state) = some .freed

/-! ## Objects and freed groups kept -/

/-- The objects are as they were, and no freed group has come into use. -/
structure KeepsFreed (s t : State) : Prop where
  objs : t.obj.objs = s.obj.objs
  freed : ∀ gid, GroupFreed s gid → GroupFreed t gid

namespace KeepsFreed

theorem of_same {s t : State} (ho : t.obj.objs = s.obj.objs) (hg : t.str.groups = s.str.groups) : KeepsFreed s t := by
  refine ⟨ho, fun gid h => ?_⟩
  unfold GroupFreed
  rwa [groupById_congr hg]

theorem refl (s : State) : KeepsFreed s s := ⟨rfl, fun _ => id⟩

theorem trans {s t u : State} (h : KeepsFreed s t) (k : KeepsFreed t u) : KeepsFreed s u :=
  ⟨k.objs.trans h.objs, fun gid => k.freed gid ∘ h.freed gid⟩

theorem foldl {α : Type} {f : State → α → State} (hf : ∀ s a, KeepsFreed s (f s a)) (l : List α) (s : State) :
    KeepsFreed s (l.foldl f s) :=
  foldl_frame KeepsFreed refl (fun _ _ _ => trans) f hf l s

/-- A fold that also gathers results keeps what each of its steps keeps. -/
theorem foldl_fst {α β : Type} {f : State × β → α → State × β} (hf : ∀ a x, KeepsFreed a.1 (f a x).1) :
    ∀ (l : List α) (a : State × β), KeepsFreed a.1 (l.foldl f a).1
  | [], a => refl a.1
  | x :: l, a => (hf a x).trans (foldl_fst hf l (f a x))

end KeepsFreed

/-- A group changed without its identity: no freed group comes into use where the change keeps states, or the group is not freed. -/
theorem onGroup_keepsFreed {s : State} {i : Nat} {f : Group → Group} (hid : ∀ g, (f g).id = g.id)
    (hf : (∀ g, (f g).state = g.state) ∨ ¬GroupFreed s i) : KeepsFreed s (onGroup s i f) := by
  refine ⟨rfl, fun gid h => ?_⟩
  have hs := h
  unfold GroupFreed at hs ⊢
  rw [groupById_onGroup s i hid]
  obtain ⟨g, hg, hst⟩ := Option.map_eq_some_iff.mp hs
  rw [hg, Option.map_some, Option.map_some]
  split
  · next e =>
    refine congrArg some ?_
    obtain hf | hf := hf
    · exact (hf g).trans hst
    · exact absurd ((groupById_id hg).symm.trans e ▸ h) hf
  · exact congrArg some hst

/-! ## The leaf store's operations -/

theorem onGroup_next_keepsFreed (s : State) (i : Nat) (n : Group → Nat) :
    KeepsFreed s (onGroup s i fun g => { g with next := n g }) := onGroup_keepsFreed (fun _ => rfl) (.inl fun _ => rfl)

theorem stripeWrite_keepsFreed (s : State) (g : Group) (slot : Nat) : KeepsFreed s (stripeWrite s g slot) := .of_same rfl rfl

theorem skipDead_keepsFreed (gid n : Nat) : ∀ s, KeepsFreed s (skipDead gid n s) := by
  induction n with
  | zero => exact .refl
  | succ n ih =>
    intro s
    unfold skipDead
    split
    · exact .refl s
    · split
      · exact (stripeWrite_keepsFreed s _ _).trans ((onGroup_next_keepsFreed _ gid _).trans (ih _))
      · exact .refl s

theorem groupDue_keepsFreed (s : State) (gid : Nat) : KeepsFreed s (groupDue s gid) := by
  have h : KeepsFreed s (onGroup s gid fun g => { g with wseq := s.str.wseq }) :=
    onGroup_keepsFreed (fun _ => rfl) (.inl fun _ => rfl)
  exact h.trans (.of_same rfl rfl)

theorem not_groupFreed {s : State} {gid : Nat} {g : Group} (hg : groupById s gid = some g) (h : g.state = .opened) :
    ¬GroupFreed s gid := by
  unfold GroupFreed
  rw [hg, Option.map_some, h]
  exact fun e => nomatch e

theorem groupFilled_keepsFreed (s : State) (gid : Nat) : KeepsFreed s (groupFilled s gid) := by
  unfold groupFilled
  split
  · next g hg =>
    split
    · next h =>
      refine .trans ?_ (groupDue_keepsFreed _ gid)
      exact onGroup_keepsFreed (fun _ => rfl) (.inr (not_groupFreed hg h.1))
    · exact .refl s
  · exact .refl s

/-- A group formed joins behind those that are there. -/
theorem keepsFreed_of_append {s t : State} {g : Group} (ho : t.obj.objs = s.obj.objs) (hg : t.str.groups = s.str.groups ++ [g]) :
    KeepsFreed s t := by
  refine ⟨ho, fun gid h => ?_⟩
  obtain ⟨x, hx, hst⟩ := Option.map_eq_some_iff.mp h
  refine Option.map_eq_some_iff.mpr ⟨x, ?_, hst⟩
  unfold groupById at hx ⊢
  rw [hg, List.find?_append, hx, Option.some_or]

theorem formGroup_keepsFreed (s : State) (role : RingRole) (z : Option Nat) : KeepsFreed s (formGroup s role z).1 := by
  unfold formGroup
  dsimp only
  split
  · exact .refl s
  · exact keepsFreed_of_append rfl rfl

theorem groupFor_keepsFreed (s : State) (role : RingRole) (z : Option Nat) : KeepsFreed s (groupFor s role z).1 := by
  unfold groupFor
  split
  · next g _ =>
    have h := skipDead_keepsFreed g.id 8192 s
    dsimp only
    split
    · split
      · exact h
      · exact (h.trans (groupFilled_keepsFreed _ _)).trans (formGroup_keepsFreed _ role z)
    · exact h
  · exact formGroup_keepsFreed s role z

theorem placeIn_keepsFreed (s : State) (gid uid : Nat) : KeepsFreed s (placeIn s gid uid) := by
  have h := skipDead_keepsFreed gid 8192 s
  unfold placeIn
  generalize skipDead gid 8192 s = u at h
  dsimp only
  split
  · exact h
  next g _ =>
    have hn (v : State) : KeepsFreed v (groupFilled (onGroup v gid fun g => { g with next := g.next + 1 }) gid) :=
      (onGroup_next_keepsFreed v gid _).trans (groupFilled_keepsFreed _ gid)
    refine (h.trans ?_).trans (hn _)
    split <;> exact .of_same rfl rfl

theorem formLeaf_keepsFreed (s : State) (uid : Nat) : KeepsFreed s (formLeaf s uid) := by
  unfold formLeaf
  split
  · next l _ =>
    have h := groupFor_keepsFreed s (if l.kind = .index then .index else .data) (zoneOfId l.objectId)
    split
    · exact .refl s
    · split
      · next t g e => exact .trans (by simpa only [e] using h) (placeIn_keepsFreed t g.id uid)
      · next t e => simpa only [e] using h
  · exact .refl s

theorem stagedPut_keepsFreed {s t : State} (ho : t.obj.objs = s.obj.objs) (hg : t.str.groups = s.str.groups) (l : StagedLeaf) :
    KeepsFreed s (stagedPut t l) := .of_same ho hg

theorem stageNew_keepsFreed (s : State) (kind : LeafKind) (o v off r : Nat) (p key : List Byte) (a : Nat) :
    KeepsFreed s (stageNew s kind o v off r p key a).1 := .of_same rfl rfl

theorem idxAdd_keepsFreed (s : State) (key : List Byte) (accept : Nat) (r : List Byte) : KeepsFreed s (idxAdd s key accept r) := by
  unfold idxAdd
  split
  · exact .of_same rfl rfl
  · dsimp only
    split
    · next l _ => exact (formLeaf_keepsFreed s l.uid).trans (stageNew_keepsFreed _ _ _ _ _ _ _ _ _)
    · exact stageNew_keepsFreed s _ _ _ _ _ _ _ _

theorem idxWrite_keepsFreed (s : State) (key : List Byte) (accept : Nat) (recs : List (List Byte)) :
    KeepsFreed s (idxWrite s key accept recs) :=
  .trans (t := { s with str.newGroups := [] }) (.of_same rfl rfl)
    ((KeepsFreed.foldl (fun s r => idxAdd_keepsFreed s [] 0 r) _ _).trans
      (KeepsFreed.foldl (fun s r => idxAdd_keepsFreed s key accept r) recs _))

/-- Group records that are due are written or wait. -/
theorem idxPending_cases (s : State) : idxPending s = s ∨ idxPending s = idxWrite s [] 0 [] := by
  unfold idxPending
  split
  · exact .inl rfl
  · dsimp only
    split
    · exact .inr rfl
    · exact .inl rfl

theorem idxPending_keepsFreed (s : State) : KeepsFreed s (idxPending s) := by
  obtain h | h := idxPending_cases s <;> rw [h]
  · exact .refl s
  · exact idxWrite_keepsFreed s [] 0 []

theorem idxPending_onlyGroups (s : State) : OnlyGroups s (idxPending s) := by
  obtain h | h := idxPending_cases s <;> rw [h]
  · exact .refl s
  · exact idxWrite_onlyGroups s [] 0 []

theorem closeStripe_keepsFreed (s : State) (gid : Nat) : KeepsFreed s (closeStripe s gid) := by
  unfold closeStripe
  split
  · split
    · exact .refl s
    · exact ((stripeWrite_keepsFreed s _ _).trans (onGroup_next_keepsFreed _ gid _)).trans (groupFilled_keepsFreed _ gid)
  · exact .refl s

theorem forceLeaves_keepsFreed (s : State) (uids : List Nat) : KeepsFreed s (forceLeaves s uids) := by
  refine KeepsFreed.foldl (fun s u => (formLeaf_keepsFreed s u).trans ?_) uids s
  dsimp only
  split
  · split
    · split
      · split
        · exact closeStripe_keepsFreed _ _
        · exact .refl _
      · exact .refl _
    · exact .refl _
  · exact .refl _

/-! ## The operations of a copy (R246) -/

theorem moveLeaf_keepsFreed (s : State) (role : RingRole) (place : Nat × Nat) (lf : Leaf) :
    KeepsFreed s (moveLeaf s role place lf).1 := by
  have h := groupFor_keepsFreed s role none
  unfold moveLeaf
  split
  · next t e => simpa only [e] using h
  · next t g e =>
    rw [e] at h
    refine (h.trans ?_).trans (placeIn_keepsFreed _ _ _)
    refine stagedPut_keepsFreed ?_ ?_ _
    · rfl
    · rfl

theorem moveLeaves_keepsFreed (s : State) (role : RingRole) (ps : List ((Nat × Nat) × Leaf)) :
    KeepsFreed s (moveLeaves s role ps).1 := by
  unfold moveLeaves
  refine KeepsFreed.foldl_fst (fun a p => ?_) ps (s, [])
  exact moveLeaf_keepsFreed a.1 role p.1 p.2

theorem pagesPut_keepsFreed (s : State) (pages : List (List Byte)) : KeepsFreed s (pagesPut s pages).1 := by
  unfold pagesPut
  refine .trans ?_ (forceLeaves_keepsFreed _ _)
  refine KeepsFreed.foldl_fst (fun a p => ?_) (pages.take (stagingRoom s)) (s, [])
  exact (stageNew_keepsFreed a.1 .index 0 0 0 0 p [] 0).trans (.of_same rfl rfl)

theorem pagesPut_todo (s : State) (pages : List (List Byte)) : (pagesPut s pages).2.2 = pages.drop (stagingRoom s) := rfl

theorem sessionRecs_keepsFreed (s : State) (x : Session) : KeepsFreed s (sessionRecs s x).1 := .of_same rfl rfl

theorem zoneRecs_keepsFreed (s : State) (z : Nat) : KeepsFreed s (zoneRecs s z).1 := by
  unfold zoneRecs
  exact (KeepsFreed.foldl (fun s (r : LeafRef) => formLeaf_keepsFreed s r.uid) (zoneBy s z).leaves s).trans (.of_same rfl rfl)

end Sys2Proof.Machine
end

section
/-! PROOF. The steps of a copy: the leaves moved, the records written, the switch, and the source freed. -/
namespace Sys2Proof.Machine
open Sys2Proof

/-! ## COPY_FORWARD with a copy in progress (R246, R249) -/

theorem copyForward_held {s : State} (h : s.pwr.banking = true ∨ s.flt.class3 = true) (why : CopyWhy) : copyForward s why = s :=
  if_pos h

/-- The role of the rings that take a group's leaves. -/
def copyRole (g : Group) : RingRole := if g.role = .index then .index else .data

section
variable {s : State} {j : CopyJob}

theorem copyForward_copying (hbank : s.pwr.banking = false) (h3 : s.flt.class3 = false) (hj : s.str.copy = some j) (why : CopyWhy) :
    copyForward s why = copyGo s j := by
  unfold copyForward
  rw [if_neg (by simp [hbank, h3]), hj]

/-- A step that waits leaves the copy as it is. -/
theorem copy_held (hj : s.str.copy = some j) : { s with str.copy := some j } = s := by
  rw [← hj]

/-! ## Step 3: the leaves are written anew -/

theorem copyGo_batch {g : Group} (hg : groupById s j.group = some g) (hm : j.moved = false) (hn : j.named = false)
    (hr : groupRead s j.group = false) (hp : j.stripes = [] → groupPending s j.group = false)
    (hroom : copyRoom s (copyRole g) (copyLeft s j).length = true) : copyGo s j = copyBatch s j (copyRole g) := by
  unfold copyRole at hroom ⊢
  unfold copyGo
  rw [hg]
  dsimp only
  rw [if_neg (by simp [hn]), if_neg (by simp [hm]), if_neg (by simpa [hr] using hp), if_neg (not_not.mpr hroom)]

theorem copyGo_read (hj : s.str.copy = some j) (hm : j.moved = false) (hn : j.named = false) (hr : groupRead s j.group = true) :
    copyGo s j = s := by
  unfold copyGo
  dsimp only
  rw [if_neg (by simp [hn]), if_neg (by simp [hm]), if_pos (.inl hr), copy_held hj]

/-- With none left to move, step 3 is done. -/
theorem copyBatch_done (hb : j.batch = []) (hl : copyLeft s j = []) (role : RingRole) :
    copyBatch s j role = { s with str.copy := some { j with moved := true } } := if_pos ⟨hb, hl⟩

theorem fetchLeaves_settled {s : State} {id : ReqId} {r : Request} (hr : reqBy s id = some r) (hs : reqSettled r = true)
    (p : ReadPurpose) (a : Nat) (fresh : Bool) (want : List (Nat × Nat)) : fetchLeaves s id p a fresh want =
      ({ s with reqs := s.reqs.filter fun x => x.id ≠ id }, some (r.leaves.map (·.data))) := by
  unfold fetchLeaves
  rw [hr]
  exact if_pos hs

/-- A batch at hand, for which the staging has room, is moved. -/
theorem copyBatch_moves {r : Request} (hj : s.str.copy = some j) (hb : j.batch ≠ []) (hroom : j.batch.length ≤ stagingRoom s)
    (hr : reqBy s copyTask = some r) (hs : reqSettled r = true) (role : RingRole) : copyBatch s j role =
      copyMove { s with reqs := s.reqs.filter fun x => x.id ≠ copyTask } j role (r.leaves.map (·.data)) := by
  unfold copyBatch
  dsimp only
  rw [if_neg (fun h => hb h.1), if_neg hb, if_neg (by simpa [hb] using hroom), copy_held hj, fetchLeaves_settled hr hs]

end

/-- The leaves of the batch have their places in the copy's moves; nothing names the new ones yet. -/
theorem copyMove_leaves (s : State) (j : CopyJob) (role : RingRole) (got : List (Option Leaf)) :
    ∃ k, (copyMove s j role got).str.copy = some k ∧ k.group = j.group ∧ k.moved = j.moved ∧ k.named = j.named ∧ k.batch = [] ∧
      k.moves.map (·.1) = j.moves.map (·.1) ++ j.batch ∧ (copyMove s j role got).obj.objs = s.obj.objs := by
  refine ⟨_, rfl, rfl, rfl, rfl, rfl, ?_, ?_⟩
  · simp [Function.comp_def]
  · exact ((moveLeaves_keepsFreed s role _).trans (forceLeaves_keepsFreed _ _)).objs

/-! ## Step 4: the records are written -/

theorem copyGo_records {s : State} {j : CopyJob} (hm : j.moved = true) (hn : j.named = false) : copyGo s j =
    if j.moves.all fun m => decide (m.2 = m.1) || stripeWritten s m.2.1 then copyRecords s j else { s with str.copy := some j } := by
  unfold copyGo
  dsimp only
  rw [if_neg (by simp [hn]), if_pos hm]

theorem copyRecords_leaves (s : State) (j : CopyJob) : ∃ k, (copyRecords s j).str.copy = some k ∧ k.named = true ∧
    k.moves = j.moves ∧ (copyRecords s j).obj.objs = s.obj.objs := by
  unfold copyRecords
  dsimp only
  refine ⟨_, rfl, rfl, rfl, KeepsFreed.objs ?_⟩
  refine .trans ?_ (pagesPut_keepsFreed _ _)
  refine .trans ?_ (KeepsFreed.foldl_fst (fun a z => ?zone) _ _)
  case zone =>
    split
    · exact zoneRecs_keepsFreed a.1 z
    · exact .refl _
  refine .trans ?_ (KeepsFreed.foldl_fst (fun a x => ?session) _ _)
  case session =>
    split
    · exact sessionRecs_keepsFreed a.1 x
    · exact .refl _
  refine .trans ?_ (KeepsFreed.foldl_fst (fun a p => ?version) _ _)
  case version => exact .of_same rfl rfl
  exact .of_same rfl rfl

theorem copyGo_pages {s : State} {j : CopyJob} (hn : j.named = true) (ht : j.todo ≠ []) : ∃ k, (copyGo s j).str.copy = some k ∧
    k.todo = j.todo.drop (stagingRoom s) ∧ k.pages.take j.pages.length = j.pages ∧ (copyGo s j).obj.objs = s.obj.objs := by
  unfold copyGo
  dsimp only
  rw [if_pos hn, if_pos ht]
  exact ⟨_, rfl, pagesPut_todo s j.todo, List.take_left, (pagesPut_keepsFreed s j.todo).objs⟩

/-! ## Step 5: the table switch -/

theorem copyGo_commit {s : State} {j : CopyJob} (hn : j.named = true) (ht : j.todo = []) (hp : j.pages.all (leafHome s) = true)
    (hr : groupRead s j.group = false) : copyGo s j = copyCommit s j := by
  unfold copyGo
  dsimp only
  rw [if_pos hn, if_neg (not_not.mpr ht), if_pos ⟨hp, by simp [hr]⟩]

theorem copyCommit_asks {s : State} {j : CopyJob} (hbank : s.pwr.banking = false) (ha : j.asked = none) :
    (copyCommit s j).str.copy = some { j with asked := some s.seq.switches } ∧ (copyCommit s j).seq.switchReq = true := by
  unfold copyCommit tableSwitchRequest
  rw [ha]
  dsimp only
  rw [if_neg (by simp [hbank])]
  exact ⟨rfl, rfl⟩

theorem copyCommit_waits {s : State} {j : CopyJob} (hj : s.str.copy = some j) (ha : j.asked = some s.seq.switches) :
    copyCommit s j = s := by
  unfold copyCommit
  rw [ha]
  dsimp only
  rw [if_pos rfl, copy_held hj]

theorem copyCommit_ends {s : State} {j : CopyJob} {n : BitVec 16} (ha : j.asked = some n) (hn : n ≠ s.seq.switches) :
    copyCommit s j = copyEnd s j := by
  unfold copyCommit
  rw [ha]
  exact if_neg hn

/-! ## Step 6: what the end of a copy does besides keeps the copy, the groups and what names their leaves -/

/-- The copy, the groups, and all that names leaves are as they were. -/
structure SameLive (s t : State) : Prop where
  copy : t.str.copy = s.str.copy
  groups : t.str.groups = s.str.groups
  obj : t.obj = s.obj
  zns : t.zns = s.zns
  ctxs : t.host.ctxs = s.host.ctxs
  cyz : t.cyz = s.cyz

namespace SameLive

theorem refl (s : State) : SameLive s s := ⟨rfl, rfl, rfl, rfl, rfl, rfl⟩

theorem trans {s t u : State} (h : SameLive s t) (k : SameLive t u) : SameLive s u :=
  ⟨k.copy.trans h.copy, k.groups.trans h.groups, k.obj.trans h.obj, k.zns.trans h.zns, k.ctxs.trans h.ctxs, k.cyz.trans h.cyz⟩

theorem foldl {α : Type} {f : State → α → State} (hf : ∀ s a, SameLive s (f s a)) (l : List α) (s : State) :
    SameLive s (l.foldl f s) :=
  foldl_frame SameLive refl (fun _ _ _ => trans) f hf l s

theorem groupById {s t : State} (h : SameLive s t) (gid : Nat) : groupById t gid = groupById s gid := groupById_congr h.groups gid

theorem versionPlaces {s t : State} (h : SameLive s t) : versionPlaces t = versionPlaces s := by
  have he : extentPlaces t = extentPlaces s := by
    funext e
    unfold extentPlaces
    rw [h.groupById]
  funext v
  unfold Machine.versionPlaces
  rw [he]

theorem verInUse {s t : State} (h : SameLive s t) : verInUse t = verInUse s := by
  funext oid no
  unfold Machine.verInUse
  rw [h.ctxs, h.cyz]

theorem groupLive {s t : State} (h : SameLive s t) (gid : Nat) : groupLive t gid = groupLive s gid := by
  unfold Machine.groupLive livePlaces
  rw [h.versionPlaces, h.verInUse, h.obj, h.zns, h.ctxs]

end SameLive

theorem cornerRewrite_sameLive (s : State) (surfaces : List Nat) : SameLive s (cornerRewrite s surfaces) := by
  unfold cornerRewrite
  obtain ⟨q, c, w, n, h⟩ := cornerPump_frame { s with
    str.corner := s.str.corner ++ (surfaces.flatMap fun f => (List.range 3).map fun c => (f, c)).filter (· ∉ s.str.corner) }
  dsimp only
  rw [h]
  exact ⟨rfl, rfl, rfl, rfl, rfl, rfl⟩

theorem retireRing_sameLive (s : State) (r : Nat × Nat) : SameLive s (retireRing s r) := by
  unfold retireRing
  refine .trans ?_ (cornerRewrite_sameLive _ _)
  split <;> exact ⟨rfl, rfl, rfl, rfl, rfl, rfl⟩

theorem retireFree_sameLive (s : State) : SameLive s (retireFree s) := .foldl retireRing_sameLive _ s

theorem ashRecord_sameLive (s : State) (tr c : Nat) (e : Element) (d : List Nat) : SameLive s (ashRecord s tr c e d) := by
  obtain ⟨a, r, n, f, h⟩ := ashRecord_frame s tr c e d
  rw [h]
  exact ⟨rfl, rfl, rfl, rfl, rfl, rfl⟩

theorem redundancyCheck_sameLive (s : State) : SameLive s (redundancyCheck s) := by
  unfold redundancyCheck
  split
  · exact .refl s
  · refine .trans ?_ (ashRecord_sameLive _ _ _ _ _)
    exact ⟨rfl, rfl, rfl, rfl, rfl, rfl⟩

/-! ## A group freed (R149, R246, R285) -/

/-- A group freed before its record is written and its lines leave the cache. -/
def groupEnded (s : State) (gid : Nat) : State := groupDue (onGroup s gid fun g => { g with state := .freed }) gid

theorem groupEnded_freed {s : State} {gid : Nat} {g : Group} (h : groupById s gid = some g) : GroupFreed (groupEnded s gid) gid := by
  refine (groupDue_keepsFreed _ gid).freed gid ?_
  unfold GroupFreed
  rw [groupById_onGroup s gid (by exact fun _ => rfl), h, Option.map_some, Option.map_some, if_pos (groupById_id h)]

theorem freeGroup_leaves (s : State) (gid : Nat) : (freeGroup s gid).str.copy = s.str.copy ∧
    ∀ g, groupById s gid = some g → GroupFreed (freeGroup s gid) gid := by
  unfold freeGroup
  split
  · next h => exact ⟨rfl, fun g hg => nomatch h.symm.trans hg⟩
  · next g h =>
    have hcopy : (idxPending (groupEnded s gid)).str.copy = s.str.copy := by
      rw [idxPending_onlyGroups (groupEnded s gid)]
      rfl
    have hfreed : GroupFreed (idxPending (groupEnded s gid)) gid := (idxPending_keepsFreed _).freed gid (groupEnded_freed h)
    unfold groupEnded at hcopy hfreed
    generalize idxPending _ = u at hcopy hfreed ⊢
    exact ⟨hcopy, fun _ _ => hfreed⟩

/-! ## The end of a copy (R246) -/

/-- The records switched, and the relocated stripes no longer pending. -/
def copySwitched (s : State) (j : CopyJob) : State :=
  let t := mramPrune (copySwitch s j)
  { t with str.relocPending := t.str.relocPending.filter fun r => r.1 ∉ j.stripes }

theorem copySwitched_copy (s : State) (j : CopyJob) : (copySwitched s j).str.copy = none := rfl

theorem groupById_copySwitched (s : State) (j : CopyJob) (gid : Nat) : groupById (copySwitched s j) gid = groupById s gid := rfl

/-- The source group of a copy whose records have switched: freed, unless only stripes of it were copied, a leaf was lost, or
something live is left in it. -/
def sourceEnded (s : State) (j : CopyJob) (g : Group) : State :=
  if j.stripes ≠ [] then s
  else if j.lost then { s with str.stuck := s.str.stuck ++ [g.id] }
  else if g.role ≠ .index ∧ ¬ (groupLive s g.id).isEmpty then s
  else if g.role = .index then cornerRewrite (freeGroup s g.id) (cornerSurfaces (freeGroup s g.id)) else freeGroup s g.id

theorem copyEnd_eq {s : State} {j : CopyJob} {g : Group} (hg : groupById s j.group = some g) :
    copyEnd s j = redundancyCheck (retireFree (sourceEnded (copySwitched s j) j g)) := by
  unfold copyEnd
  rw [← groupById_copySwitched s j] at hg
  unfold copySwitched at hg
  dsimp only at hg ⊢
  rw [hg]
  rfl

theorem sourceEnded_copy (s : State) (j : CopyJob) (g : Group) : (sourceEnded s j g).str.copy = s.str.copy := by
  have hfree := (freeGroup_leaves s g.id).1
  unfold sourceEnded
  split
  · rfl
  · split
    · rfl
    · split
      · rfl
      · split
        · exact (cornerRewrite_sameLive _ _).copy.trans hfree
        · exact hfree

/-- A whole group copied with nothing lost is freed, unless something live is left in it. -/
theorem sourceEnded_freed {s : State} {j : CopyJob} {g : Group} (hg : groupById s g.id = some g) (hs : j.stripes = [])
    (hl : j.lost = false) : GroupFreed (sourceEnded s j g) g.id ∨
      g.role ≠ .index ∧ groupLive s g.id ≠ [] ∧ sourceEnded s j g = s := by
  have hfree := (freeGroup_leaves s g.id).2 g hg
  unfold sourceEnded
  rw [if_neg (not_not.mpr hs), if_neg (by simp [hl])]
  split
  · next h => exact .inr ⟨h.1, by simpa using h.2, rfl⟩
  · refine .inl ?_
    split
    · unfold GroupFreed
      rwa [(cornerRewrite_sameLive _ _).groupById]
    · exact hfree

/-- The copy is over; its source group is freed where it was copied whole with nothing lost, unless something live is left in it. -/
theorem copyEnd_leaves {s : State} {j : CopyJob} {g : Group} (hg : groupById s j.group = some g) :
    (copyEnd s j).str.copy = none ∧ (j.stripes = [] → j.lost = false →
      GroupFreed (copyEnd s j) j.group ∨ g.role ≠ .index ∧ groupLive (copyEnd s j) j.group ≠ []) := by
  rw [copyEnd_eq hg]
  have hrest : SameLive (sourceEnded (copySwitched s j) j g) (redundancyCheck (retireFree (sourceEnded (copySwitched s j) j g))) :=
    (retireFree_sameLive _).trans (redundancyCheck_sameLive _)
  refine ⟨hrest.copy.trans ((sourceEnded_copy _ j g).trans (copySwitched_copy s j)), fun hs hl => ?_⟩
  have hid : j.group = g.id := (groupById_id hg).symm
  rw [hid] at hg ⊢
  obtain h | ⟨hrole, hlive, hsame⟩ := sourceEnded_freed (s := copySwitched s j) hg hs hl
  · refine .inl ?_
    unfold GroupFreed
    rwa [hrest.groupById]
  · refine .inr ⟨hrole, ?_⟩
    rwa [hrest.groupLive, hsame]

end Sys2Proof.Machine
end

section
/-! PROOF. Redundancy restored, scrub passes, and the statement about stripes, copies and the scrub. -/
namespace Sys2Proof.Machine
open Sys2Proof

/-! ## Redundancy restored (R255) -/

/-- With no request of a number and no reconstruction, an abandonment changes no more than the read paths and the grates. -/
theorem abandonReq_idle {s : State} {id : ReqId} (hr : reqBy s id = none) (hb : s.str.rebuilds = []) :
    ∃ q g c, abandonReq s id = { s with str.rebuilds := [], grt.queue := q, grt.grate := g, chan.act := c } := by
  have hne : ∀ r ∈ s.reqs, r.id ≠ id := fun r h => by simpa using List.find?_eq_none.mp hr r h
  have hgone : (s.reqs.filter fun r => decide (r.id = id)) = [] := by simpa using hne
  have hkept : (s.reqs.filter fun r => decide (¬ r.id = id)) = s.reqs := by simpa using hne
  unfold abandonReq
  simp only [hb, List.filter_nil, List.map_nil, List.not_mem_nil, or_false, hgone, List.flatMap_nil, List.foldl_nil,
    decide_eq_true_eq, hkept]
  exact ⟨_, _, _, rfl⟩

theorem retireFree_none {s : State} (h : s.str.retiring = []) : retireFree s = s := by
  unfold retireFree
  rw [h]
  rfl

theorem redundancyCheck_restores {s : State} (hg : reflowGroups s = []) (hp : s.str.relocPending = []) (hr : s.str.redundant = false) :
    (redundancyCheck s).str = { s.str with redundant := true, reflowed := 0 } ∧
      (redundancyCheck s).ash.health = (s.hours, .redundancyRestored) :: s.ash.health ∧
      (redundancyCheck s).obj = s.obj ∧ (redundancyCheck s).stg = s.stg := by
  unfold redundancyCheck
  rw [if_neg (by simp [hg, hp, hr])]
  dsimp only
  refine ⟨ashRecord_str _ _ _ _ _, ashRecord_health _ _ _ _ _, (ashRecord_sameLive _ _ _ _ _).obj, ?_⟩
  obtain ⟨a, r, n, f, h⟩ := ashRecord_frame (noteHealth { s with str.redundant := true, str.reflowed := 0 } .redundancyRestored)
    0x23 255 .none [s.str.reflowed]
  rw [h]
  rfl

/-- With nothing left to copy, a relocation finds whether redundancy is restored. -/
theorem copyForward_relocation_idle {s : State} (hbank : s.pwr.banking = false) (h3 : s.flt.class3 = false)
    (hc : s.str.copy = none) (hret : (abandonReq s copyTask).str.retiring = [])
    (hrel : (abandonReq s copyTask).str.relocPending = []) :
    copyForward s .relocation = redundancyCheck (abandonReq s copyTask) := by
  unfold copyForward
  rw [if_neg (by simp [hbank, h3]), hc]
  dsimp only
  rw [retireFree_none hret]
  rw [if_neg (fun h => nomatch h.1)]
  unfold copyNext
  dsimp only
  rw [hrel, hret]
  rfl

/-! ## Scrub passes (R130, R285, R446) -/

theorem scrubPass_held {s : State}
    (h : s.pwr.banking = true ∨ s.flt.class3 = true ∨ s.pwr.restored = false ∨ s.hours < s.str.scrubFrom) : scrubPass s = s := by
  unfold scrubPass
  exact if_pos (by simpa using h)

/-- The version checks of the pass, the requests and the groups read so far are as they were. -/
structure KeepsPass (s t : State) : Prop where
  cyz : t.cyz = s.cyz
  reqs : t.reqs = s.reqs
  done : t.str.scrubDone = s.str.scrubDone

namespace KeepsPass

theorem refl (s : State) : KeepsPass s s := ⟨rfl, rfl, rfl⟩

theorem trans {s t u : State} (h : KeepsPass s t) (k : KeepsPass t u) : KeepsPass s u :=
  ⟨k.cyz.trans h.cyz, k.reqs.trans h.reqs, k.done.trans h.done⟩

theorem foldl {α : Type} {f : State → α → State} (hf : ∀ s a, KeepsPass s (f s a)) (l : List α) (s : State) :
    KeepsPass s (l.foldl f s) :=
  foldl_frame KeepsPass refl (fun _ _ _ => trans) f hf l s

theorem of_service {s t : State} (h : OnlyService s t) (hd : t.str.scrubDone = s.str.scrubDone) : KeepsPass s t :=
  ⟨by rw [h], h.reqs, hd⟩

end KeepsPass

theorem OnlyGroups.scrubDone {s t : State} (h : OnlyGroups s t) : t.str.scrubDone = s.str.scrubDone := by rw [h]

theorem headChange_scrubDone (s : State) (f : Nat) (st : HeadState) : (headChange s f st).str.scrubDone = s.str.scrubDone := by
  unfold headChange
  extract_lets old code
  split
  · rfl
  next cap opened undone jobs cut stripes embers _ s1 s2 _ s3 s4 _ s5 _ =>
    have h2 : OnlyGroups s1 s2 := .foldl (fun s (g : Group) => groupFull_onlyGroups s g.id) _ _
    have h4 : OnlyGroups s3 s4 := .foldl emberCopy_onlyGroups _ _
    have h5 : s5.str = s4.str := by
      unfold s5
      split <;> rfl
    rw [fault1_str, h5, h4.scrubDone]
    exact h2.scrubDone

theorem slotListed_keepsPass (s : State) (p : Pos) (g : Group) : KeepsPass s (slotListed s p g) := by
  unfold slotListed
  obtain ⟨ds, rt, h⟩ := defectAdd_frame s ⟨p, 0, 0⟩
  rw [h]
  exact ⟨rfl, rfl, rfl⟩

theorem relocateSlot_keepsPass (s : State) (p : Pos) : KeepsPass s (relocateSlot s p) := by
  cases hg : groupOfRing s p.surface p.ring with
  | none =>
    unfold relocateSlot
    rw [hg]
    exact .refl s
  | some g =>
    have h := slotListed_keepsPass s p g
    obtain e | e := relocateSlot_cases hg <;> rw [e]
    · exact h
    · exact h.trans (.of_service (headChange_onlyService _ _ _) (headChange_scrubDone _ _ _))

theorem scrubCandidates_keepsPass (s : State) (g : Group) : KeepsPass s (scrubCandidates s g) := by
  unfold scrubCandidates
  refine .foldl (fun s e => ?_) _ s
  split
  · exact .refl s
  · exact relocateSlot_keepsPass s _

theorem onChan_keepsPass (s : State) (a : Nat) (f : ChanAct → ChanAct) : KeepsPass s (onChan s a f) := ⟨rfl, rfl, rfl⟩

theorem irateStore_keepsPass (s : State) (a head zone : Nat) (bound det : Qty) (gap : Nat) :
    KeepsPass s (irateStore s a head zone bound det gap) := by
  unfold irateStore
  extract_lets f16 s1
  have h1 : KeepsPass s s1 := onChan_keepsPass s a _
  split
  · exact h1.trans (.of_service (ashRecord_onlyService _ _ _ _ _) (by rw [ashRecord_str]))
  · exact h1

theorem irateTake_keepsPass {s t : State} {a : Nat} (h : irateTake s a = some t) : KeepsPass s t := by
  unfold irateTake at h
  split at h
  · split at h
    · cases h
    · rw [← Option.some.inj h]
      exact irateStore_keepsPass _ _ _ _ _ _ _
  · cases h

theorem scrubRates_keepsPass (s : State) : KeepsPass s (scrubRates s) := by
  unfold scrubRates
  refine .foldl (fun s a => ?_) _ s
  unfold scrubRate
  split
  · next t _ ht =>
    split
    · exact .refl s
    · exact (irateTake_keepsPass ht).trans ⟨rfl, rfl, rfl⟩
  · exact .refl s

/-! ## Fetching leaves leaves the pass's version checks as they are -/

theorem l2Put_cyz (s : State) (l : Line) : (l2Put s l).cyz = s.cyz := by
  unfold l2Put
  split
  · split <;> rfl
  · rfl

theorem cacheAlloc_cyz (s : State) (st p : Nat) : (cacheAlloc s st p).cyz = s.cyz := by
  unfold cacheAlloc
  split
  · split <;> rfl
  · dsimp only
    split
    · rfl
    · split
      · split
        · exact l2Put_cyz s _
        · rfl
      · rfl

theorem touchLeaf_cyz (s : State) (st p : Nat) : (touchLeaf s st p).cyz = s.cyz := by
  unfold touchLeaf
  split
  · rfl
  · split
    · unfold cacheHit
      split
      · exact cacheAlloc_cyz _ _ _
      · rfl
    · split
      · exact cacheAlloc_cyz s st p
      · rfl

theorem settleLeaf_cyz (s : State) (id idx : Nat) (res : Option Leaf) : (settleLeaf s id idx res).cyz = s.cyz := by
  unfold settleLeaf releaseLeaves
  split
  · rfl
  · dsimp only
    split
    · rfl
    · obtain ⟨l, h⟩ := cacheFail_frame (dropRead s id idx) _ _
      rw [h]
      rfl
    · rfl

theorem leafLost_cyz (s : State) (id idx : Nat) : (leafLost s id idx).cyz = s.cyz := by
  unfold leafLost
  split
  · extract_lets s1
    have h1 : s1.cyz = s.cyz := settleLeaf_cyz _ _ _ _
    split
    · split
      · split
        · rw [damageLeaf_onlyService]
          exact h1
        · exact h1
      · exact h1
    · exact h1
  · rfl

theorem startRebuild_cyz (s : State) (id idx : Nat) : (startRebuild s id idx).cyz = s.cyz := by
  unfold startRebuild
  split
  · split
    · exact settleLeaf_cyz _ _ _ _
    · split
      · exact settleLeaf_cyz _ _ _ _
      · dsimp only
        split
        · exact leafLost_cyz _ _ _
        · rfl
  · rfl

theorem foldl_cyz {α : Type} {f : State → α → State} (hf : ∀ s a, (f s a).cyz = s.cyz) (l : List α) (s : State) :
    (l.foldl f s).cyz = s.cyz :=
  foldl_frame (fun s t => t.cyz = s.cyz) (fun _ => rfl) (fun _ _ _ h k => k.trans h) f hf l s

theorem rebuildDue_cyz (s : State) : (rebuildDue s).cyz = s.cyz :=
  foldl_cyz (fun s (x : Nat × Nat) => startRebuild_cyz s x.1 x.2) _ s

theorem fetchLeaves_cyz (s : State) (id : ReqId) (p : ReadPurpose) (a : Nat) (fresh : Bool) (want : List (Nat × Nat)) :
    (fetchLeaves s id p a fresh want).1.cyz = s.cyz := by
  unfold fetchLeaves
  split
  · split
    · rfl
    · exact rebuildDue_cyz s
  · extract_lets at' held leaves started allocated
    split
    · exact foldl_cyz (fun s (p : Nat × Nat) => touchLeaf_cyz s p.1 p.2) want s
    · split
      · rfl
      · have h : allocated.cyz = s.cyz := foldl_cyz (fun s (l : ReqLeaf) => by
          split
          · exact cacheAlloc_cyz _ _ _
          · rfl) _ s
        exact (rebuildDue_cyz _).trans h

/-! ## A group of the pass read -/

theorem scrubGroup_cyz (s : State) (g : Group) : (scrubGroup s g).cyz = s.cyz := by
  unfold scrubGroup
  extract_lets s1
  have h1 : s1.cyz = s.cyz := by
    unfold s1
    split <;> rfl
  have h := fetchLeaves_cyz s1 scrubTask .scrub 1 true (scrubPlaces s1 g)
  split
  · next t e => exact (by simpa only [e] using h : t.cyz = s1.cyz).trans h1
  · next t l e =>
    exact (scrubCandidates_keepsPass _ _).cyz.trans ((by simpa only [e] using h : t.cyz = s1.cyz).trans h1)

/-- Once its leaves are read, a group joins those that the pass has read, and its request is over. -/
theorem scrubGroup_read {s : State} {r : Request} (hr : reqBy s scrubTask = some r) (hs : reqSettled r = true) (g : Group) :
    (scrubGroup s g).str.scrubDone = s.str.scrubDone ++ [g.id] ∧ reqBy (scrubGroup s g) scrubTask = none := by
  unfold scrubGroup
  rw [if_neg (by simp [hr])]
  dsimp only
  rw [fetchLeaves_settled hr hs]
  have h := scrubCandidates_keepsPass
    { s with reqs := s.reqs.filter fun x => x.id ≠ scrubTask, str.scrubDone := s.str.scrubDone ++ [g.id] } g
  refine ⟨h.done, ?_⟩
  rw [reqBy_congr h.reqs]
  simp [reqBy]

/-- A due pass with a group still to read goes on with its version checks open (R446). -/
theorem scrubPass_group {s : State} (hbank : s.pwr.banking = false) (h3 : s.flt.class3 = false) (hres : s.pwr.restored = true)
    (hdue : s.str.scrubFrom ≤ s.hours) {g : Group} {gs : List Group} (hleft : scrubLeft s = g :: gs) :
    ∃ t, scrubPass s = scrubGroup t g ∧ t.cyz.scrub.isSome = true ∧ t.reqs = s.reqs ∧ t.str.scrubDone = s.str.scrubDone := by
  unfold scrubPass
  rw [if_neg (by simpa [hbank, h3, hres] using hdue), hleft]
  cases hx : s.cyz.scrub with
  | none =>
    obtain ⟨hcyz, hreqs, hdone⟩ := scrubRates_keepsPass { s with cyz.scrub := some (newAudit s 0 false 0 .all false) }
    exact ⟨_, rfl, by rw [hcyz]; rfl, hreqs, hdone⟩
  | some a =>
    obtain ⟨hcyz, hreqs, hdone⟩ := scrubRates_keepsPass s
    exact ⟨_, rfl, by rw [hcyz, hx]; rfl, hreqs, hdone⟩

/-! ## The statement about stripes, copies and the scrub -/

/-- Settles O53: a reconstruction by what the sources arrived solve to, each step of a copy by its equation and what the leaf
store's operations keep, a scrub pass by what the reading of a group keeps. -/
theorem stripesCopiesAndScrub : Obligations.StripesCopiesAndScrub := by
  unfold Obligations.StripesCopiesAndScrub
  refine ⟨?_, ?_, ?_, ?_, ?_, ?_⟩
  · -- STRIPE_ENGINE_SOLVE (R244, R245)
    intro s src b g l hb hg hl hne got r
    have hl' : leafBy (rebuildEnd (matrixKept s g b) b) b.req b.leafIdx = some l := (leafBy_rebuildEnd hne _).trans hl
    refine ⟨_, rfl, stripeEngineSolve_few hb hg, fun hn x hx => ?_, fun hn hx hm => ?_⟩
    · rw [stripeEngineSolve_solved hb hg hn hx, settleLeaf_str, leafBy_settleLeaf_same hl']
      exact ⟨rebuildEnd_gone _ b, rfl⟩
    · rw [stripeEngineSolve_exhausted hb hg hn hx hm, leafLost_str, leafBy_leafLost hl']
      exact ⟨rebuildEnd_gone _ b, rfl⟩
  · -- COPY_FORWARD while banking or under class 3 (R249)
    intro s why h
    exact congrArg Host.Outcome.next (copyForward_held h why)
  · -- A copy in progress (R246, R248)
    intro s why j g hbank h3 hj hg _
    refine ⟨copyForward s why, rfl, ?_⟩
    rw [copyForward_copying hbank h3 hj]
    refine ⟨fun hm hn hr => copyGo_read hj hm hn hr, fun r hm hn hr hp hroom hb hlen hq hs => ?_, fun hm hn hr hp hroom hb hl => ?_,
      fun hm hn hw => ?_, fun hm hn hw => ?_, copyGo_pages, fun hn ht hp hr ha => ?_, fun hn ht hp hr ha => ?_,
      fun n hn ht hp hr ha hne => ?_⟩
    · rw [copyGo_batch hg hm hn hr hp hroom, copyBatch_moves hj hb hlen hq hs]
      have h := copyMove_leaves { s with reqs := s.reqs.filter fun x => x.id ≠ copyTask } j (copyRole g) (r.leaves.map (·.data))
      rwa [hm, hn] at h
    · rw [copyGo_batch hg hm hn hr hp hroom, copyBatch_done hb hl]
      exact ⟨rfl, rfl⟩
    · rw [copyGo_records hm hn, if_neg (by simp [hw]), copy_held hj]
    · rw [copyGo_records hm hn, if_pos hw]
      exact copyRecords_leaves s j
    · rw [copyGo_commit hn ht hp hr]
      exact copyCommit_asks hbank ha
    · rw [copyGo_commit hn ht hp hr, copyCommit_waits hj ha]
    · rw [copyGo_commit hn ht hp hr, copyCommit_ends ha hne]
      exact copyEnd_leaves hg
  · -- Redundancy restored (R255)
    intro s hbank h3 hc hq hb hret hrel hgr hred
    obtain ⟨q, gr, c, ha⟩ := abandonReq_idle hq hb
    rw [show exec (.copyForward .relocation) s = .next (copyForward s .relocation) from rfl,
      copyForward_relocation_idle hbank h3 hc (by rw [ha]; exact hret) (by rw [ha]; exact hrel), ha]
    obtain ⟨hstr, hhealth, hobj, hstg⟩ :=
      redundancyCheck_restores (s := { s with str.rebuilds := [], grt.queue := q, grt.grate := gr, chan.act := c }) hgr hrel hred
    refine ⟨_, rfl, ?_, ?_, hhealth, hobj, hstg⟩ <;> rw [hstr]
  · -- SCRUB_PASS before a pass is due (R130)
    intro s h
    exact congrArg Host.Outcome.next (scrubPass_held h)
  · -- SCRUB_PASS with a group to read (R130, R446)
    intro s g gs hbank h3 hres hdue hleft
    obtain ⟨t, ht, hscrub, hreqs, hdone⟩ := scrubPass_group hbank h3 hres hdue hleft
    refine ⟨scrubGroup t g, congrArg Host.Outcome.next ht, by rwa [scrubGroup_cyz], fun r hr hs => ?_⟩
    rw [← hdone]
    exact scrubGroup_read ((reqBy_congr hreqs scrubTask).trans hr) hs g

end Sys2Proof.Machine
end

section
/-! PROOF. Lines of the read cache: the one at a place, its fill, and its retagging. -/
namespace Sys2Proof.Machine
open Sys2Proof

/-! ## The line at a set and way -/

/-- The line at a set and way. -/
def lineHere (s : State) (set way : Nat) : Option Line := s.cch.lines.find? fun x => x.set = set ∧ x.way = way

theorem lineHere_onLine (s : State) (set way : Nat) {f : Line → Line} (hset : ∀ x, (f x).set = x.set)
    (hway : ∀ x, (f x).way = x.way) : lineHere (onLine s set way f) set way = (lineHere s set way).map f := by
  have keeps : ∀ x : Line, (((if x.set = set ∧ x.way = way then f x else x).set = set ∧
      (if x.set = set ∧ x.way = way then f x else x).way = way) ↔ (x.set = set ∧ x.way = way)) := by
    intro x
    split
    · rw [hset, hway]
    · rfl
  unfold lineHere onLine
  simp only [List.find?_map, Function.comp_def, keeps]
  cases h : s.cch.lines.find? fun x => decide (x.set = set ∧ x.way = way) with
  | none => rfl
  | some l => exact congrArg some (if_pos (by simpa using List.find?_some h))

/-! ## Fills (R282, R285) -/

/-- What a line promoted from the second-level cache becomes when sub-blocks of it have come. -/
def promotedFill (subs : BitVec 8) (x : Line) : Line := { x with
  valid := if x.noValid ∨ x.leaf.isNone then x.valid else subs,
  state := if subs = 0 ∧ x.leaf.isSome then .filling else x.state, promoted := subs = 0 }

section
variable {s : State} {l : Line}

theorem cacheLineFill_filling {k : Fin 48} {w : Fin 16} {lf : Leaf} (h : lineHere s k w = some l) (hs : l.state = .filling)
    (hf : l.leaf = some lf) (subs : BitVec 8) : cacheLineFill s k w subs =
      if l.promoted then onLine (cacheFill s l.stripe l.piece lf) k w (promotedFill subs)
      else cacheFill s l.stripe l.piece lf := by
  unfold lineHere at h
  unfold cacheLineFill
  rw [h]
  dsimp only
  rw [hs, hf]
  rfl

theorem cacheFill_whole {stripe piece : Nat} (h : findLine s stripe piece = some l) (hs : l.state = .filling)
    (hn : l.noValid = false) (lf : Leaf) : cacheFill s stripe piece lf =
      onLine s l.set l.way fun l => { l with state := .valid, valid := 0xFF, leaf := some lf } := by
  unfold cacheFill
  rw [h]
  dsimp only
  rw [if_neg (not_not.mpr hs), if_neg (by simp [hn])]

theorem cacheFill_covered {stripe piece : Nat} (h : findLine s stripe piece = some l) (hs : l.state = .filling)
    (hn : l.noValid = true) (hl : l.locked = false) (lf : Leaf) : cacheFill s stripe piece lf =
      { s with cch.lines := s.cch.lines.filter fun x => ¬ (x.set = l.set ∧ x.way = l.way) } := by
  unfold cacheFill
  rw [h]
  dsimp only
  rw [if_neg (not_not.mpr hs), if_pos hn, if_neg (by simp [hl])]

end

theorem cacheFill_frame (s : State) (stripe piece : Nat) (lf : Leaf) :
    cacheFill s stripe piece lf = { s with cch := (cacheFill s stripe piece lf).cch } := by
  unfold cacheFill
  split
  · split
    · rfl
    · split
      · split <;> rfl
      · rfl
  · rfl

theorem lineHere_removed (s : State) (set way : Nat) :
    lineHere { s with cch.lines := s.cch.lines.filter fun x => ¬ (x.set = set ∧ x.way = way) } set way = none :=
  List.find?_eq_none.mpr fun x hx => by
    simpa only [decide_eq_true_eq] using (List.mem_filter.mp hx).2

/-- CACHE_LINE_FILL of a FILLING line with a leaf: the line of a covered address leaves, a whole leaf makes it VALID, a promoted
one takes the sub-blocks that came. -/
theorem cacheLineFill_leaves {s : State} {k : Fin 48} {w : Fin 16} {l : Line} {lf : Leaf} (h : lineHere s k w = some l)
    (hs : l.state = .filling) (hf : l.leaf = some lf) (hfind : findLine s l.stripe l.piece = some l)
    (hset : l.set = k.val) (hway : l.way = w.val) (subs : BitVec 8) :
    cacheLineFill s k w subs = { s with cch := (cacheLineFill s k w subs).cch } ∧
      (l.noValid = true → l.locked = false → lineHere (cacheLineFill s k w subs) k w = none) ∧
      (l.noValid = false → l.promoted = false →
        lineHere (cacheLineFill s k w subs) k w = some { l with state := .valid, valid := 0xFF, leaf := some lf }) ∧
      (l.noValid = false → l.promoted = true → subs ≠ 0 → lineHere (cacheLineFill s k w subs) k w =
        some { l with state := .valid, valid := subs, leaf := some lf, promoted := false }) := by
  have hpromoted (u : State) : lineHere (onLine u k w (promotedFill subs)) k w = (lineHere u k w).map (promotedFill subs) :=
    lineHere_onLine u k w (fun _ => rfl) fun _ => rfl
  have hwhole (hn : l.noValid = false) : lineHere (cacheFill s l.stripe l.piece lf) k w =
      some { l with state := .valid, valid := 0xFF, leaf := some lf } := by
    have hline := lineHere_onLine s l.set l.way (f := fun x => { x with state := .valid, valid := 0xFF, leaf := some lf })
      (fun _ => rfl) fun _ => rfl
    have hhere : lineHere s l.set l.way = some l := by rw [hset, hway, h]
    rw [← hset, ← hway, cacheFill_whole hfind hs hn, hline, hhere, Option.map_some]
  rw [cacheLineFill_filling h hs hf]
  refine ⟨?_, fun hn hl => ?_, fun hn hp => ?_, fun hn hp hne => ?_⟩
  · split
    · rw [cacheFill_frame]; rfl
    · exact cacheFill_frame _ _ _ _
  · have hgone : lineHere (cacheFill s l.stripe l.piece lf) k w = none := by
      rw [cacheFill_covered hfind hs hn hl, hset, hway]
      exact lineHere_removed s k w
    split
    · rw [hpromoted, hgone, Option.map_none]
    · exact hgone
  · rw [if_neg (by simp [hp]), hwhole hn]
  · rw [if_pos hp, hpromoted, hwhole hn, Option.map_some]
    have hne : ¬ subs = 0#8 := hne
    simp [promotedFill, hn, hne]

/-! ## Evictions (R281, R302) -/

theorem l2Put_frame (s : State) (l : Line) : l2Put s l = { s with drm := (l2Put s l).drm } := by
  unfold l2Put
  split
  · split <;> rfl
  · rfl

theorem mem_l2Put {s : State} {l : Line} {lf : Leaf} (hf : l.leaf = some lf) (hv : l.valid = 0xFF) (hd : s.prof.dramSize ≠ 0)
    (hw : s.drm.withdrawn = false) : (l.stripe, l.piece, lf) ∈ (l2Put s l).drm.l2 := by
  unfold l2Put
  rw [hf]
  dsimp only
  rw [if_neg (by simp [hw, hd, hv])]
  exact List.mem_cons_self

section
variable {s : State} {k : Fin 48} {w : Fin 16} {l : Line} {stripe piece : Nat}
  (h : lineHere s k w = some l) (hs : l.state = .evicting) (hr : l.retag = some (stripe, piece))
include h hs hr

theorem cacheEvictComplete_evicting : cacheEvictComplete s k w =
    if l.pins = 0 then lineFor (l2Put s l) k w stripe piece else s := by
  unfold lineHere at h
  unfold cacheEvictComplete
  rw [h]
  dsimp only
  rw [hs, hr]

theorem cacheEvictComplete_pinned (hp : l.pins ≠ 0) : cacheEvictComplete s k w = s := by
  rw [cacheEvictComplete_evicting h hs hr, if_neg hp]

theorem cacheEvictComplete_unpinned (hp : l.pins = 0) : cacheEvictComplete s k w = lineFor (l2Put s l) k w stripe piece := by
  rw [cacheEvictComplete_evicting h hs hr, if_pos hp]

theorem cacheEvictComplete_frame :
    cacheEvictComplete s k w = { s with cch := (cacheEvictComplete s k w).cch, drm := (cacheEvictComplete s k w).drm } := by
  rw [cacheEvictComplete_evicting h hs hr]
  split
  · rw [l2Put_frame]; rfl
  · rfl

end

/-- A way taken by a new address holds a FILLING line for it, with nothing valid, as the most recently used. -/
theorem lineFor_head (s : State) (set way stripe piece : Nat) : ∃ x, (lineFor s set way stripe piece).cch.lines.head? = some x ∧
    x.set = set ∧ x.way = way ∧ x.state = .filling ∧ x.stripe = stripe ∧ x.piece = piece ∧ x.valid = 0 :=
  ⟨_, rfl, rfl, rfl, rfl, rfl, rfl, rfl⟩

end Sys2Proof.Machine
end

section
/-! PROOF. The patrol of the hob, the firebrick and the LPDDR5X: what it counts and logs, and what the reactions leave. -/
namespace Sys2Proof.Machine
open Sys2Proof

/-! ## The correctable-error log (R273) -/

theorem mem_of_argMin {α : Type} {f : α → Nat} : ∀ {l : List α} {x : α}, argMin f l = some x → x ∈ l
  | [], _, h => nomatch h
  | y :: ys, x, h => by
    unfold argMin at h
    split at h
    · next z hz =>
      split at h
      · exact Option.some.inj h ▸ List.mem_cons_self
      · exact Option.some.inj h ▸ List.mem_cons_of_mem _ (mem_of_argMin hz)
    · exact Option.some.inj h ▸ List.mem_cons_self

/-- The entry an error goes into is one of the log's. -/
theorem hobCePick_lt {log : List HobCeEntry} (hlog : log ≠ []) (fb : Bool) (bank row word : Nat) :
    hobCePick log fb bank row word < log.length := by
  have hrange {p : Nat → Bool} {i : Nat} (h : (List.range log.length).find? p = some i) : i < log.length :=
    List.mem_range.mp (List.mem_of_find?_eq_some h)
  unfold hobCePick
  extract_lets entry idx
  split
  · next h => exact hrange h
  · split
    · next h => exact hrange h
    · next cands _ _ _ _ =>
      have hsub : ∀ i ∈ (if cands.isEmpty then idx else cands), i < log.length := by
        intro i hi
        split at hi
        · exact List.mem_range.mp hi
        · exact List.mem_range.mp (List.mem_filter.mp hi).1
      cases h : argMin (fun i => (entry i).hits * 2 ^ 32 + (entry i).hours) (if cands.isEmpty then idx else cands) with
      | none => exact List.length_pos_of_ne_nil hlog
      | some i => exact hsub i (mem_of_argMin h)

/-- An error enters the log at its address, with its syndrome. -/
theorem hobCeUpdate_logs {log : List HobCeEntry} (hlog : log ≠ []) (fb ue : Bool) (bank row word syn hours master : Nat) :
    ∃ x ∈ hobCeUpdate log fb ue bank row word syn hours master, x.valid = true ∧ (ue = true → x.ue = true) ∧ x.fb = fb ∧
      x.bank = bank ∧ x.row = row ∧ x.word = word ∧ x.syndrome = syn := by
  unfold hobCeUpdate
  extract_lets i o
  refine ⟨_, List.mem_set (hobCePick_lt hlog fb bank row word) _, ?_⟩
  split
  · next h =>
    obtain ⟨hv, hfb, hb, hr, hw⟩ := h
    exact ⟨hv, fun hu => by simp [hu], hfb, hb, hr, hw, rfl⟩
  · exact ⟨rfl, id, rfl, rfl, rfl, rfl, rfl⟩

/-! ## What the reactions to an error leave of the hob (R271, R272, R288) -/

/-- The hob's bytes, its patrol's place, its counters and its log are as they were. -/
structure SameHobLog (s t : State) : Prop where
  mem : t.hob.mem = s.hob.mem
  patrolAt : t.hob.patrolAt = s.hob.patrolAt
  ce : t.hob.ce = s.hob.ce
  ue : t.hob.ue = s.hob.ue
  ceLog : t.hob.ceLog = s.hob.ceLog

namespace SameHobLog

theorem refl (s : State) : SameHobLog s s := ⟨rfl, rfl, rfl, rfl, rfl⟩

theorem trans {s t u : State} (h : SameHobLog s t) (k : SameHobLog t u) : SameHobLog s u :=
  ⟨k.mem.trans h.mem, k.patrolAt.trans h.patrolAt, k.ce.trans h.ce, k.ue.trans h.ue, k.ceLog.trans h.ceLog⟩

theorem of_service {s t : State} (h : OnlyService s t) : SameHobLog s t := by
  rw [h]
  exact ⟨rfl, rfl, rfl, rfl, rfl⟩

/-- What a reaction that may be due leaves. -/
theorem ite {s t u : State} {c : Prop} [Decidable c] (h : SameHobLog s t) (k : SameHobLog t u) :
    SameHobLog s (if c then u else t) := by
  split
  · exact h.trans k
  · exact h

end SameHobLog

theorem withdrawRegion_sameHobLog (s : State) (a : Nat) : SameHobLog s (withdrawRegion s a) := by
  unfold withdrawRegion
  dsimp only
  split
  · exact .refl s
  · refine .trans ?_ (.of_service (budgetSpent_onlyService _ _))
    exact ⟨rfl, rfl, rfl, rfl, rfl⟩

theorem replaceRow_sameHobLog (s : State) (a : Nat) : SameHobLog s (replaceRow s a) := by
  unfold replaceRow
  extract_lets b key left
  split
  · exact withdrawRegion_sameHobLog s a
  · refine .trans ?_ (.of_service (spareUsed_onlyService _ _ _))
    exact ⟨rfl, rfl, rfl, rfl, rfl⟩

theorem wayDisable_sameHobLog (s : State) (w : Nat) : SameHobLog s (wayDisable s w) := by
  unfold wayDisable
  split
  · exact .refl s
  · refine .trans ?_ (.of_service (fault1_onlyService _ _ _ _ _))
    exact ⟨rfl, rfl, rfl, rfl, rfl⟩

theorem wayError_sameHobLog (s : State) (w : Nat) : SameHobLog s (wayError s w) := by
  unfold wayError
  exact .ite ⟨rfl, rfl, rfl, rfl, rfl⟩ (wayDisable_sameHobLog _ w)

theorem hobUncorrectable_sameHobLog (s : State) (a : Nat) : SameHobLog s (hobUncorrectable s a) := by
  unfold hobUncorrectable
  split
  case h_1 =>
    refine .trans ?_ (.of_service (fault1_onlyService _ _ _ _ _))
    exact ⟨rfl, rfl, rfl, rfl, rfl⟩
  case h_2 => exact .of_service (fault2_onlyService _ _ _ _ _)
  case h_3 => exact .refl s
  all_goals exact .of_service (fault1_onlyService _ _ _ _ _)

/-! ## The hob's patrol (R270, R273) -/

/-- An error at a hob address counted and logged, before anything is done about it. -/
def hobLogged (s : State) (ue : Bool) (a : Nat) (syn : Byte) : State :=
  { hobCount s ue with
    hob.ceLog := hobCeUpdate s.hob.ceLog false ue (hobBank a) (hobRow a) (hobWord a) syn.toNat s.hours 31 }

theorem hobLogged_logs {s : State} (hlog : s.hob.ceLog ≠ []) (ue : Bool) (a : Nat) (syn : Byte) :
    ∃ x ∈ (hobLogged s ue a syn).hob.ceLog, x.valid = true ∧ (ue = true → x.ue = true) ∧ x.fb = false ∧ x.bank = hobBank a ∧
      x.row = hobRow a ∧ x.word = hobWord a ∧ x.syndrome = syn.toNat :=
  hobCeUpdate_logs hlog _ _ _ _ _ _ _ _

theorem patrolHob_corrected (s : State) (a : Nat) (syn : Byte) :
    SameHobLog (hobLogged s false a syn) (patrolHob s a (.corrected syn)) := by
  unfold patrolHob
  dsimp only
  refine .ite (.ite ?_ (wayError_sameHobLog _ _)) (replaceRow_sameHobLog _ a)
  exact ⟨rfl, rfl, rfl, rfl, rfl⟩

theorem patrolHob_uncorrectable (s : State) (a : Nat) (syn : Byte) :
    SameHobLog (hobLogged s true a syn) (patrolHob s a (.uncorrectable syn)) :=
  (replaceRow_sameHobLog _ a).trans (hobUncorrectable_sameHobLog _ a)

/-- The patrol past the word it reads. -/
def patrolNext (s : State) : State := { s with hob.patrolAt := (s.hob.patrolAt + 1) % 8388608 }

theorem hobPatrolScrub_hob {s : State} (h : blkEn s 2 = true) (e : WordErr) :
    hobPatrolScrub s .hob e = patrolHob (patrolNext s) (8 * s.hob.patrolAt) e :=
  if_neg (not_not.mpr h)

/-! ## The firebrick and the LPDDR5X (R275, R303) -/

theorem hobPatrolScrub_firebrick_class3 {s : State} (h : blkEn s 2 = true) (syn : Byte) :
    (hobPatrolScrub s .firebrick (.uncorrectable syn)).flt.class3 = true := by
  unfold hobPatrolScrub
  dsimp only
  rw [if_neg (not_not.mpr h)]
  exact (failStop_declares _ _ _).2

theorem OnlyService.drm {s t : State} (h : OnlyService s t) : t.drm = s.drm := by rw [h]

/-- The lines of the second-level cache but for one. -/
def l2Without (s : State) (line : Option (Nat × Nat)) : List (Nat × Nat × Leaf) :=
  s.drm.l2.filter fun e => some (e.1, e.2.1) ≠ line

theorem patrolDram_uncorrectable {s : State} (hw : s.drm.withdrawn = false) (hd : s.prof.dramSize ≠ 0)
    (line : Option (Nat × Nat)) (syn : Byte) :
    (patrolDram s line (.uncorrectable syn)).drm.l2 ⊆ l2Without s line ∧
      (patrolDram s line (.uncorrectable syn)).drm.ue.head? = some s.time := by
  unfold patrolDram
  dsimp only
  rw [if_neg (by simp [hw, hd])]
  split
  · rw [(fault2_onlyService _ _ _ _ _).drm]
    dsimp only
    rw [(fault1_onlyService _ _ _ _ _).drm]
    exact ⟨List.nil_subset _, rfl⟩
  · rw [(fault1_onlyService _ _ _ _ _).drm]
    exact ⟨List.Subset.refl _, rfl⟩

end Sys2Proof.Machine
end

section
/-! PROOF. The flue: what a descriptor moves, and the channels after it. -/
namespace Sys2Proof.Machine
open Sys2Proof

/-! ## Bytes moved (R294, R296) -/

/-- A byte after a string is stored, in a canonical memory. -/
theorem memGet_memWrite : ∀ {m : Mem} (bs : List Byte) (a y : Nat), Memory.wf m = true →
    memGet (memWrite m a bs) y = if a ≤ y ∧ y < a + bs.length then bs.getD (y - a) 0 else memGet m y
  | _, [], a, y, _ => (if_neg (by simp)).symm
  | m, b :: bs, a, y, w => by
    rw [memWrite, memGet_memWrite bs (a + 1) y (memSet_wf w a b), List.length_cons]
    obtain h | rfl | h := Nat.lt_trichotomy y a
    · rw [if_neg (by omega), if_neg (by omega), memGet_memSet_other w b (by omega)]
    · rw [if_neg (by omega), if_pos (by omega), memGet_memSet_same w, Nat.sub_self, List.getD_cons_zero]
    · have hy : y - a = y - (a + 1) + 1 := by omega
      rw [hy, List.getD_cons_succ, memGet_memSet_other w b (by omega)]
      exact if_congr (by omega) rfl rfl

theorem length_memRead (m : Mem) : ∀ n a : Nat, (memRead m a n).length = n
  | 0, _ => rfl
  | n + 1, a => congrArg (· + 1) (length_memRead m n (a + 1))

theorem length_spaceRead (s : State) (space a n : Nat) (host : List Byte) : (spaceRead s space a n host).length = n := by
  unfold spaceRead
  split
  · exact length_memRead _ _ _
  · exact length_memRead _ _ _
  · simp only [padTo, List.length_append, List.length_replicate, List.length_take]
    omega

theorem spaceWrite_frame (s : State) (space a : Nat) (b : List Byte) : spaceWrite s space a b =
    { s with hob.mem := (spaceWrite s space a b).hob.mem, drm.mem := (spaceWrite s space a b).drm.mem } := by
  unfold spaceWrite
  split <;> rfl

theorem spaceWrite_wf {s : State} (w : Memory.wf s.hob.mem = true) (space a : Nat) (b : List Byte) :
    Memory.wf (spaceWrite s space a b).hob.mem = true := by
  unfold spaceWrite
  split
  · exact memWrite_wf b a w
  · exact w
  · exact w

/-- A byte of the hob after bytes are stored in a space. -/
theorem memGet_spaceWrite {s : State} (w : Memory.wf s.hob.mem = true) (space a : Nat) (b : List Byte) (x : Nat) :
    memGet (spaceWrite s space a b).hob.mem x =
      if space = 0 ∧ a ≤ x ∧ x < a + b.length then b.getD (x - a) 0 else memGet s.hob.mem x := by
  unfold spaceWrite
  split
  · rw [memGet_memWrite b a x w]
    exact if_congr (by simp) rfl rfl
  · exact (if_neg (by simp)).symm
  · next h _ => exact (if_neg fun hx => h hx.1).symm

/-- Part of a descriptor moved, and its STATUS written. -/
def descMarked (s : State) (d : Desc) (left : Nat) (host : List Byte) (v : Byte) : State :=
  descStatus (descMove s d left host) d v

theorem descMove_frame (s : State) (d : Desc) (left : Nat) (host : List Byte) : descMove s d left host =
    { s with hob.mem := (descMove s d left host).hob.mem, drm.mem := (descMove s d left host).drm.mem } :=
  spaceWrite_frame _ _ _ _

theorem descMarked_frame (s : State) (d : Desc) (left : Nat) (host : List Byte) (v : Byte) : descMarked s d left host v =
    { s with hob.mem := (descMarked s d left host v).hob.mem, drm.mem := (descMarked s d left host v).drm.mem } := by
  unfold descMarked descStatus
  rw [descMove_frame]

theorem descMove_wf {s : State} (w : Memory.wf s.hob.mem = true) (d : Desc) (left : Nat) (host : List Byte) :
    Memory.wf (descMove s d left host).hob.mem = true := spaceWrite_wf w _ _ _

/-- A whole descriptor moved leaves in the hob the bytes read before it, where that is its destination. -/
theorem memGet_descMove_whole {s : State} (w : Memory.wf s.hob.mem = true) (d : Desc) (host : List Byte) (x : Nat) :
    memGet (descMove s d 0 host).hob.mem x = if d.dstSpace = 0 ∧ d.dst ≤ x ∧ x < d.dst + d.len then
      (spaceRead s d.srcSpace d.src d.len host).getD (x - d.dst) 0 else memGet s.hob.mem x := by
  have hwhole : descMove s d 0 host = spaceWrite s d.dstSpace d.dst (spaceRead s d.srcSpace d.src d.len host) := by
    simp only [descMove, ite_self, Nat.sub_zero, Nat.add_zero, List.drop_zero]
  rw [hwhole, memGet_spaceWrite w, length_spaceRead]

section
variable {s : State} (w : Memory.wf s.hob.mem = true) (d : Desc) (left : Nat) (host : List Byte) (v : Byte)
include w

theorem memGet_descMarked_status : memGet (descMarked s d left host v).hob.mem (d.addr + 22) = v :=
  memGet_memSet_same (descMove_wf w d left host) _ v

theorem memGet_descMarked_other {x : Nat} (h : x ≠ d.addr + 22) :
    memGet (descMarked s d left host v).hob.mem x = memGet (descMove s d left host).hob.mem x :=
  memGet_memSet_other (descMove_wf w d left host) v h

end

/-! ## Channels by number -/

theorem fluAt_onFlu_same (s : State) (n : Fin 40) (f : FluCh → FluCh) : fluAt (onFlu s n f) n = f (fluAt s n) :=
  vget_vmod_same _ n.isLt f _

theorem fluAt_onFlu_other (s : State) {n m : Nat} (h : m ≠ n) (f : FluCh → FluCh) : fluAt (onFlu s n f) m = fluAt s m :=
  vget_vmod_other _ h f _

theorem fluAt_congr {s t : State} (h : t.flu.ch = s.flu.ch) (n : Nat) : fluAt t n = fluAt s n := by
  unfold fluAt
  rw [h]

theorem fluNext_rest {c : FluCh} {d : Desc} {rest : List Desc} (h : c.rest = d :: rest) :
    fluNext c = { c with active := some d, whole := d, rest := rest } := by
  unfold fluNext
  rw [h]

/-- The next descriptor leaves what a channel counts and whom it serves. -/
theorem fluNext_frame (c : FluCh) : fluNext c = { c with
    active := (fluNext c).active, whole := (fluNext c).whole, rest := (fluNext c).rest, shadow := (fluNext c).shadow,
    shdValid := (fluNext c).shdValid } := by
  unfold fluNext
  split
  · rfl
  · split
    · rfl
    · split <;> rfl

/-! ## A descriptor done (R294, R299) -/

/-- The recovery of the table channels changes no channel, and besides the flue only the count of class 0 faults. -/
theorem tableDone_frame (s : State) (n : Nat) : (tableDone s n).flu.ch = s.flu.ch ∧
    tableDone s n = { s with flu := (tableDone s n).flu, flt := (tableDone s n).flt } := by
  unfold tableDone
  split
  · exact ⟨rfl, rfl⟩
  · split
    · exact ⟨rfl, rfl⟩
    · split
      · exact ⟨rfl, rfl⟩
      · split <;> exact ⟨rfl, rfl⟩

/-- A channel whose active descriptor may go on. -/
structure FluRuns (s : State) (n : Nat) (d : Desc) : Prop where
  active : (fluAt s n).active = some d
  pause : (fluAt s n).pause = false
  inService : (fluAt s n).inService = true
  table : tableRuns s (fluAt s n) = true
  enabled : blkEn s 4 = true

theorem FluRuns.not_held {s : State} {n : Nat} {d : Desc} (h : FluRuns s n d) :
    ¬ ((fluAt s n).pause = true ∨ ¬ (fluAt s n).inService = true ∨ ¬ tableRuns s (fluAt s n) = true ∨ ¬ blkEn s 4 = true) := by
  simp [h.pause, h.inService, h.table, h.enabled]

/-- A channel past the descriptor it has done. -/
def fluDone (c : FluCh) : FluCh := fluNext { c with done := c.done + 1 }

/-- A descriptor issued again is no longer waited for. -/
def againWithout (s : State) (n : Nat) (d : Desc) : State := { s with flu.again := s.flu.again.filter fun x => x ≠ (n, d) }

theorem fluDone_done (c : FluCh) : (fluDone c).done = c.done + 1 := by
  unfold fluDone
  rw [fluNext_frame]

theorem fluDone_rest {c : FluCh} {d : Desc} {rest : List Desc} (h : c.rest = d :: rest) :
    (fluDone c).active = some d ∧ (fluDone c).rest = rest := by
  have hnext : fluDone c = { c with done := c.done + 1, active := some d, whole := d, rest := rest } := fluNext_rest h
  rw [hnext]
  exact ⟨rfl, rfl⟩

theorem flueDescriptorDone_runs {s : State} {n : Fin 40} {d : Desc} (h : FluRuns s n d) (host : List Byte) :
    flueDescriptorDone s n host = tableDone (onFlu (againWithout (descMarked s d 0 host 1) n d) n fluDone) n := by
  unfold flueDescriptorDone
  dsimp only
  rw [h.active]
  exact if_neg h.not_held

section
variable {s : State} {n : Fin 40} {d : Desc} (h : FluRuns s n d) (host : List Byte)
include h

theorem flueDescriptorDone_mem : (flueDescriptorDone s n host).hob.mem = (descMarked s d 0 host 1).hob.mem := by
  rw [flueDescriptorDone_runs h, (tableDone_frame _ n).2]
  rfl

theorem flueDescriptorDone_frame : flueDescriptorDone s n host =
    { s with hob.mem := (flueDescriptorDone s n host).hob.mem, drm.mem := (flueDescriptorDone s n host).drm.mem,
             flu := (flueDescriptorDone s n host).flu, flt := (flueDescriptorDone s n host).flt } := by
  rw [flueDescriptorDone_runs h, (tableDone_frame _ n).2, descMarked_frame]
  rfl

theorem fluAt_flueDescriptorDone_same : fluAt (flueDescriptorDone s n host) n = fluDone (fluAt s n) := by
  rw [flueDescriptorDone_runs h, fluAt_congr (tableDone_frame _ n).1, fluAt_onFlu_same, againWithout, descMarked_frame]
  rfl

theorem fluAt_flueDescriptorDone_other {m : Nat} (hm : m ≠ n.val) : fluAt (flueDescriptorDone s n host) m = fluAt s m := by
  rw [flueDescriptorDone_runs h, fluAt_congr (tableDone_frame _ n).1, fluAt_onFlu_other _ hm, againWithout, descMarked_frame]
  rfl

end

/-! ## Bus errors (R298 to R300) -/

theorem fluAt_service {s t : State} (h : OnlyService s t) (n : Nat) : fluAt t n = fluAt s n := fluAt_congr (by rw [h]) n

/-- A channel that has left service. -/
def fluOut (c : FluCh) : FluCh :=
  { c with cls := 3, serves := 0x3F, inService := false, active := none, rest := [], shadow := [], shdValid := false }

/-- A host-data channel declared faulty leaves service, whether or not an idle spare takes its sets (R300). -/
theorem flueFault_out {s : State} {n : Fin 40} (h : (fluAt s n).cls = 0) :
    (fluAt (flueFault s n) n).cls = 3 ∧ (fluAt (flueFault s n) n).inService = false := by
  unfold flueFault
  dsimp only
  rw [if_neg (by simp [h]), if_neg (by simp [h])]
  split
  · next i hi =>
    have hspare : (fluAt s i).cls = 2 := by simpa using List.find?_some hi
    have hne : n.val ≠ i := by
      rintro rfl
      exact absurd (h.symm.trans hspare) (by decide)
    have hout (f : FluCh → FluCh) : fluAt (onFlu (onFlu s n fluOut) i f) n = fluOut (fluAt s n) := by
      rw [fluAt_onFlu_other _ hne, fluAt_onFlu_same]
    rw [fluAt_service (spareUsed_onlyService _ _ _)]
    exact ⟨congrArg FluCh.cls (hout _), congrArg FluCh.inService (hout _)⟩
  · rw [fluAt_service (budgetSpent_onlyService _ _), fluAt_onFlu_same]
    exact ⟨rfl, rfl⟩

/-- The failures of a channel that fall in the second before now. -/
def recentFails (s : State) (n : Nat) : List Nat := (fluAt s n).fails.filter fun t => s.time < t + 1000000

theorem recentFails_nil {s : State} {n : Nat} (h : ∀ x ∈ (fluAt s n).fails, x + 1000000 ≤ s.time) : recentFails s n = [] :=
  List.filter_eq_nil_iff.mpr fun x hx => by simpa using h x hx

theorem recentFails_ne_nil {s : State} {n : Nat} (h : ∃ x ∈ (fluAt s n).fails, s.time < x + 1000000) : recentFails s n ≠ [] := by
  obtain ⟨x, hx, ht⟩ := h
  exact List.ne_nil_of_mem (List.mem_filter.mpr ⟨hx, by simpa using ht⟩)

theorem flueFailed_first {s : State} {n : Nat} (h : recentFails s n = []) :
    flueFailed s n = onFlu s n fun c => { c with fails := [s.time] } := by
  unfold recentFails at h
  unfold flueFailed
  rw [h]
  rfl

theorem flueFailed_out {s : State} {n : Fin 40} (h : recentFails s n ≠ []) (hc : (fluAt s n).cls = 0) :
    (fluAt (flueFailed s n) n).cls = 3 ∧ (fluAt (flueFailed s n) n).inService = false := by
  have hsame := fluAt_onFlu_same s n fun c => { c with fails := s.time :: recentFails s n }
  unfold recentFails at h hsame
  unfold flueFailed
  dsimp only
  rw [if_neg (by simpa using h)]
  exact flueFault_out (by rw [hsame]; exact hc)

theorem flueHostFail_eq (s : State) (n : Nat) :
    flueHostFail s n = { s with host.dataErr := s.host.dataErr ++ (fluAt s n).ctx.toList } := by
  unfold flueHostFail
  split
  · next c h => rw [h]; rfl
  · next h => rw [h, Option.toList_none, List.append_nil]

theorem fluAt_flueHostFail (s : State) (n m : Nat) : fluAt (flueHostFail s n) m = fluAt s m := by
  rw [flueHostFail_eq]
  rfl

/-- The space at which a bus error is met. -/
def errSpace (d : Desc) (atDst : Bool) : Nat := if atDst then d.dstSpace else d.srcSpace

/-- STATUS of a descriptor that meets a bus error. -/
def errStatus (atDst : Bool) : Byte := if atDst then 3 else 2

/-- A table channel keeps the part of its descriptor not yet written. -/
def fluPart (part : Desc) (c : FluCh) : FluCh := { c with active := some part, whole := part }

/-- A host-data channel marks its descriptor and issues the part not yet written after the others of its list. -/
def fluReissue (part : Desc) (c : FluCh) : FluCh := fluNext { c with descBad := true, rest := c.rest ++ [part] }

/-- A host-data channel gives up a descriptor that failed a second time. -/
def fluGiveUp (c : FluCh) : FluCh := fluNext { c with descBad := true }

/-- A table channel that met a bus error, before the four react to it. -/
def tableError (s : State) (n : Nat) (d : Desc) (left : Nat) (host : List Byte) : State :=
  onFlu (descMove s d (min left d.len) host) n (fluPart (descLeft d (min left d.len)))

/-- The four table channels stop, then run alone, then end their recovery (R299). -/
def tableStops (s : State) : State :=
  let s := { s with flu.events := satInc s.flu.events }
  if s.flu.alone.isSome then { s with flu.alone := none, flu.stopped := false }
  else if s.flu.stopped then { s with flu.alone := some 32 }
  else { s with flu.stopped := true }

/-- The state of a first failure, before it counts against the channel. -/
def firstError (s : State) (n : Nat) (d : Desc) (atDst : Bool) (left : Nat) (host : List Byte) : State :=
  let t := descMarked s d (min left d.len) host (errStatus atDst)
  let part := descLeft d (min left d.len)
  onFlu { t with flu.again := t.flu.again ++ [(n, part)] } n (fluReissue part)

/-- The state of a failure that recurs, before it counts against the channel or the command. -/
def secondError (s : State) (n : Nat) (d : Desc) (atDst : Bool) (left : Nat) (host : List Byte) : State :=
  let t := descMarked s d (min left d.len) host (errStatus atDst)
  onFlu { t with flu.again := t.flu.again.erase (n, d) } n fluGiveUp

section
variable {s : State} {n : Fin 40} {d : Desc} {atDst : Bool} (left : Nat) (host : List Byte) (h : FluRuns s n d)
include h

theorem flueBusError_table_far (hc : (fluAt s n).cls = 1) (hfar : errSpace d atDst = 2) : flueBusError s n atDst left host =
    tableStops (tableError s n d left host) := by
  unfold errSpace at hfar
  have htable : fluTable (fluAt s n) = true := by simp [fluTable, hc]
  unfold flueBusError
  dsimp only
  rw [h.active]
  dsimp only
  rw [if_neg h.not_held, if_pos htable, if_neg (not_not.mpr hfar)]
  rfl

/-- On a host-data channel: the first failure of a descriptor, and one that recurs. -/
theorem flueBusError_host (hc : (fluAt s n).cls = 0) : flueBusError s n atDst left host =
    if (n.val, d) ∈ s.flu.again then
      if errSpace d atDst = 2 then flueHostFail (secondError s n d atDst left host) n
      else flueFailed (secondError s n d atDst left host) n
    else if errSpace d atDst = 2 then firstError s n d atDst left host
      else flueFailed (firstError s n d atDst left host) n := by
  have htable : ¬ fluTable (fluAt s n) = true := by simp [fluTable, hc]
  have hagain : (descMarked s d (min left d.len) host (errStatus atDst)).flu.again = s.flu.again := by rw [descMarked_frame]
  unfold flueBusError
  dsimp only
  rw [h.active]
  dsimp only
  rw [if_neg h.not_held, if_neg htable]
  rw [← hagain]
  rfl

end

section
variable (s : State) (n : Fin 40) (d : Desc) (atDst : Bool) (left : Nat) (host : List Byte)

theorem tableError_frame : (tableError s n d left host).flu.alone = s.flu.alone ∧
    (tableError s n d left host).flu.stopped = s.flu.stopped ∧ (tableError s n d left host).flu.events = s.flu.events := by
  unfold tableError
  rw [descMove_frame]
  exact ⟨rfl, rfl, rfl⟩

theorem fluAt_tableError :
    fluAt (tableError s n d left host) n = fluPart (descLeft d (min left d.len)) (fluAt s n) := by
  unfold tableError
  rw [fluAt_onFlu_same, descMove_frame]
  rfl

theorem firstError_frame : (firstError s n d atDst left host).str = s.str ∧ (firstError s n d atDst left host).host = s.host ∧
    (firstError s n d atDst left host).time = s.time ∧
    (firstError s n d atDst left host).flu.again = s.flu.again ++ [(n.val, descLeft d (min left d.len))] := by
  unfold firstError
  dsimp only
  rw [descMarked_frame]
  exact ⟨rfl, rfl, rfl, rfl⟩

theorem fluAt_firstError :
    fluAt (firstError s n d atDst left host) n = fluReissue (descLeft d (min left d.len)) (fluAt s n) := by
  unfold firstError
  dsimp only
  rw [fluAt_onFlu_same, descMarked_frame]
  rfl

theorem secondError_frame : (secondError s n d atDst left host).host = s.host ∧
    (secondError s n d atDst left host).flu.again = s.flu.again.erase (n.val, d) := by
  unfold secondError
  dsimp only
  rw [descMarked_frame]
  exact ⟨rfl, rfl⟩

theorem fluAt_secondError : fluAt (secondError s n d atDst left host) n = fluGiveUp (fluAt s n) := by
  unfold secondError
  dsimp only
  rw [fluAt_onFlu_same, descMarked_frame]
  rfl

end

theorem fluReissue_active (part : Desc) (c : FluCh) : (fluReissue part c).active = (c.rest ++ [part]).head? := by
  unfold fluReissue
  cases h : c.rest with
  | nil => rfl
  | cons d rest => rfl

theorem fluReissue_keeps (part : Desc) (c : FluCh) : (fluReissue part c).cls = c.cls ∧ (fluReissue part c).fails = c.fails ∧
    (fluReissue part c).descBad = true := by
  unfold fluReissue
  rw [fluNext_frame]
  exact ⟨rfl, rfl, rfl⟩

theorem fluGiveUp_keeps (c : FluCh) : (fluGiveUp c).ctx = c.ctx ∧ (fluGiveUp c).descBad = true := by
  unfold fluGiveUp
  rw [fluNext_frame]
  exact ⟨rfl, rfl⟩

/-- The table channels after an error at host memory: the first stops all four, one that recurs runs them alone, one while they
run alone ends the recovery. -/
theorem tableStops_leaves (s : State) : (tableStops s).flu.ch = s.flu.ch ∧ (tableStops s).flu.events = satInc s.flu.events ∧
    (∀ r, s.flu.alone = some r → (tableStops s).flu.stopped = false ∧ (tableStops s).flu.alone = none) ∧
    (s.flu.alone = none → s.flu.stopped = false → (tableStops s).flu.stopped = true ∧ (tableStops s).flu.alone = none) ∧
    (s.flu.alone = none → s.flu.stopped = true → (tableStops s).flu.stopped = true ∧ (tableStops s).flu.alone = some 32) := by
  cases ha : s.flu.alone with
  | some r => simp [tableStops, ha]
  | none =>
    cases hs : s.flu.stopped with
    | true => simp [tableStops, ha, hs]
    | false => simp [tableStops, ha, hs]

end Sys2Proof.Machine
end

section
/-! PROOF. The statement about the read cache, the patrol and the flue. -/
namespace Sys2Proof.Machine
open Sys2Proof

/-- Settles O54: each command by its equation, and what it counts, logs or moves by what the reactions leave alone (`SameHobLog`,
the frames of `descMove` and `tableDone`). -/
theorem cacheHobAndFlue : Obligations.CacheHobAndFlue := by
  unfold Obligations.CacheHobAndFlue
  refine ⟨?_, ?_, ?_, ?_, ?_, ?_, ?_⟩
  · -- CACHE_LINE_FILL (R282)
    intro s k w subs l lf h hs hf hfind ⟨hset, hway⟩
    exact ⟨cacheLineFill s k w subs, rfl, cacheLineFill_leaves h hs hf hfind hset hway subs⟩
  · -- CACHE_EVICT_COMPLETE (R281)
    intro s k w l stripe piece h hs hr
    refine ⟨cacheEvictComplete s k w, rfl, cacheEvictComplete_frame h hs hr, cacheEvictComplete_pinned h hs hr, fun hp => ?_⟩
    rw [cacheEvictComplete_unpinned h hs hr hp]
    exact ⟨lineFor_head (l2Put s l) k w stripe piece, fun lf => mem_l2Put⟩
  · -- HOB_PATROL_SCRUB of the hob (R270, R273)
    intro s e hen hlen a
    have hlog : s.hob.ceLog ≠ [] := List.ne_nil_of_length_pos (by omega)
    refine ⟨hobPatrolScrub s .hob e, rfl, ?_⟩
    rw [hobPatrolScrub_hob hen]
    cases e with
    | clean => exact ⟨rfl, rfl, rfl⟩
    | corrected syn =>
      have h := patrolHob_corrected (patrolNext s) a syn
      obtain ⟨x, hx, hv, -, hplace⟩ := hobLogged_logs (s := patrolNext s) hlog false a syn
      exact ⟨h.patrolAt, h.mem, h.ce, h.ue, x, by rwa [h.ceLog], hv, hplace⟩
    | uncorrectable syn =>
      have h := patrolHob_uncorrectable (patrolNext s) a syn
      obtain ⟨x, hx, hv, hu, hplace⟩ := hobLogged_logs (s := patrolNext s) hlog true a syn
      exact ⟨h.patrolAt, h.mem, h.ue, h.ce, x, by rwa [h.ceLog], hv, hu rfl, hplace⟩
  · -- An uncorrectable firebrick word (R275)
    exact fun s syn hen => ⟨_, rfl, hobPatrolScrub_firebrick_class3 hen syn⟩
  · -- An uncorrectable LPDDR5X word (R303)
    intro s line syn hw hd
    obtain ⟨hsub, htime⟩ := patrolDram_uncorrectable hw hd line syn
    exact ⟨patrolDram s line (.uncorrectable syn), rfl, fun e he => by simpa using (List.mem_filter.mp (hsub he)).2, htime⟩
  · -- FLUE_DESCRIPTOR_DONE (R294, R296)
    intro s n host d w hact hpause hin htab hen
    have h : FluRuns s n d := ⟨hact, hpause, hin, htab, hen⟩
    refine ⟨flueDescriptorDone s n host, rfl, ?_, fun e rest hrest => ?_, ?_, fun x hx => ?_, fun m hm => ?_,
      flueDescriptorDone_frame h host⟩
    · rw [fluAt_flueDescriptorDone_same h, fluDone_done]
    · rw [fluAt_flueDescriptorDone_same h]
      exact fluDone_rest hrest
    · rw [flueDescriptorDone_mem h]
      exact memGet_descMarked_status w d 0 host 1
    · rw [flueDescriptorDone_mem h, memGet_descMarked_other w d 0 host 1 hx]
      exact memGet_descMove_whole w d host x
    · exact fluAt_flueDescriptorDone_other h host (fun e => hm (Fin.ext e))
  · -- FLUE_BUS_ERROR (R298, R299)
    intro s n atDst left host d w hact hpause hin htab hen far part
    have h : FluRuns s n d := ⟨hact, hpause, hin, htab, hen⟩
    refine ⟨flueBusError s n atDst left host, rfl, fun hfar hc => ?_, fun (hnear : ¬ errSpace d atDst = 2) hc hn => ?_,
      fun (hfar : errSpace d atDst = 2) hc => ?_⟩
    · obtain ⟨hch, hevents, hstops⟩ := tableStops_leaves (tableError s n d left host)
      obtain ⟨halone, hstopped, hevents'⟩ := tableError_frame s n d left host
      rw [halone, hstopped] at hstops
      rw [flueBusError_table_far left host h hc hfar, fluAt_congr hch, fluAt_tableError, hevents, hevents']
      exact ⟨rfl, rfl, hstops⟩
    · rw [flueBusError_host left host h hc, if_neg hn, if_neg hnear]
      obtain ⟨hstr, -, htime, hagain⟩ := firstError_frame s n d atDst left host
      have hflu := fluAt_firstError s n d atDst left host
      obtain ⟨hcls, hfails, hbad⟩ := fluReissue_keeps part (fluAt s n)
      refine ⟨fun hold => ?_, fun hrec => ?_⟩
      · rw [flueFailed_first (recentFails_nil (by rw [hflu, htime, hfails]; exact hold)), fluAt_onFlu_same, hflu, htime]
        exact ⟨hagain, rfl, hbad, hstr⟩
      · exact flueFailed_out (recentFails_ne_nil (by rw [hflu, htime, hfails]; exact hrec)) (by rw [hflu, hcls, hc])
    · have hstatus := memGet_descMarked_status w d (min left d.len) host (errStatus atDst)
      rw [flueBusError_host left host h hc, if_pos hfar, if_pos hfar]
      split
      · next hmem =>
        obtain ⟨hhost, hagain⟩ := secondError_frame s n d atDst left host
        have hflu := fluAt_secondError s n d atDst left host
        obtain ⟨hctx, hbad⟩ := fluGiveUp_keeps (fluAt s n)
        rw [fluAt_flueHostFail, flueHostFail_eq, hflu, hhost, hctx]
        exact ⟨hstatus, hbad, fun hn => absurd hmem hn, fun _ => ⟨hagain, rfl⟩⟩
      · next hmem =>
        obtain ⟨-, hhost, -, hagain⟩ := firstError_frame s n d atDst left host
        rw [fluAt_firstError s n d atDst left host]
        obtain ⟨-, -, hbad⟩ := fluReissue_keeps part (fluAt s n)
        exact ⟨hstatus, hbad, fun _ => ⟨hagain, hhost, fluReissue_active part (fluAt s n)⟩, fun hm => absurd hm hmem⟩

end Sys2Proof.Machine
end

section
/-! PROOF. Sequencers by number, and what a hold and a routine's start change. -/
namespace Sys2Proof.Machine
open Sys2Proof

/-! ## Sequencers by number -/

theorem sqr_onSq_same (s : State) {n : Nat} (h : n < 5) (f : Sqr → Sqr) : sqr (onSq s n f) n = f (sqr s n) :=
  vget_vmod_same _ h f _

theorem sqr_onSq_other (s : State) {n m : Nat} (h : m ≠ n) (f : Sqr → Sqr) : sqr (onSq s n f) m = sqr s m :=
  vget_vmod_other _ h f _

theorem onSq_beyond (s : State) {n : Nat} (h : 5 ≤ n) (f : Sqr → Sqr) : onSq s n f = s := by
  have hv : vmod s.seq.sq n f = s.seq.sq := dif_neg (Nat.not_lt.mpr h)
  unfold onSq
  rw [hv]

theorem onSq_onSq (s : State) (n : Nat) (f g : Sqr → Sqr) : onSq (onSq s n f) n g = onSq s n fun q => g (f q) := by
  have hv : vmod (vmod s.seq.sq n f) n g = vmod s.seq.sq n fun q => g (f q) := by
    by_cases h : n < 5 <;> simp [vmod, h]
  unfold onSq
  rw [hv]

/-- Changes that do the same to a sequencer as it stands are the same. -/
theorem onSq_congr {s : State} {n : Nat} {f g : Sqr → Sqr} (h : f (sqr s n) = g (sqr s n)) : onSq s n f = onSq s n g := by
  by_cases hn : n < 5
  · have hv : vmod s.seq.sq n f = vmod s.seq.sq n g := by
      rw [sqr, vget_eq_getElem _ hn] at h
      simp only [vmod, hn, dif_pos, h]
    unfold onSq
    rw [hv]
  · rw [onSq_beyond s (Nat.not_lt.mp hn), onSq_beyond s (Nat.not_lt.mp hn)]

theorem sqr_congr {s t : State} (h : t.seq.sq = s.seq.sq) (n : Nat) : sqr t n = sqr s n := by
  unfold sqr
  rw [h]

/-- A sequencer after an operation on every sequencer, which leaves what a number beyond them reads as it is. -/
theorem sqr_of_map {s t : State} {F : Sqr → Sqr} (h : t.seq.sq = s.seq.sq.map F)
    (hF : F { serves := 6 } = { serves := 6 }) (n : Nat) :
    sqr t n = F (sqr s n) := by
  unfold sqr
  rw [h]
  exact (congrArg (vget _ n) hF.symm).trans (vget_map s.seq.sq F n _)

theorem sq_toList (s : State) : s.seq.sq.toList = (List.range 5).map (sqr s) := by
  refine List.ext_getElem (by simp) fun i h _ => ?_
  have hi : i < 5 := by simpa using h
  simp [sqr, vget_eq_getElem _ hi]

/-- What every sequencer satisfies, by number. -/
theorem all_sq {s : State} {p : Sqr → Bool} : s.seq.sq.toList.all p = true ↔ ∀ n : Fin 5, p (sqr s n) = true := by
  rw [sq_toList, List.all_map, List.all_eq_true]
  exact ⟨fun h n => h n (List.mem_range.mpr n.isLt), fun h n hn => h ⟨n, List.mem_range.mp hn⟩⟩

/-! ## States that differ in the sequencers' part alone -/

/-- At most the sequencers' part of the state differs. -/
def OnlySeq (s t : State) : Prop := t = { s with seq := t.seq }

namespace OnlySeq

theorem refl (s : State) : OnlySeq s s := rfl

theorem trans {s t u : State} (h : OnlySeq s t) (k : OnlySeq t u) : OnlySeq s u :=
  Eq.trans k (congrArg (fun x => { x with seq := u.seq }) h)

theorem symm {s t : State} (h : OnlySeq s t) : OnlySeq t s := by
  unfold OnlySeq
  rw [h]

end OnlySeq

/-! ## What holding and starting change -/

/-- Of a sequencer at most its hold, its start register and what a routine that begins sets differ. -/
def OnlyRoutine (q r : Sqr) : Prop :=
  r = { q with
    hold := r.hold, start := r.start, routine := r.routine, mode := r.mode, pc := r.pc, resume := r.resume, stack := r.stack,
    wdog := r.wdog, readFalse := r.readFalse, startedAt := r.startedAt }

theorem OnlyRoutine.trans {q r x : Sqr} (h : OnlyRoutine q r) (k : OnlyRoutine r x) : OnlyRoutine q x :=
  Eq.trans k (congrArg (fun y => { y with
    hold := x.hold, start := x.start, routine := x.routine, mode := x.mode, pc := x.pc, resume := x.resume, stack := x.stack,
    wdog := x.wdog, readFalse := x.readFalse, startedAt := x.startedAt }) h)

/-- At most holds, starts and routines that began differ, and the starts that the hearth keeps. -/
structure OnlyStarts (s t : State) : Prop where
  rest : t = { s with seq.sq := t.seq.sq, seq.kept := t.seq.kept }
  sqrs : ∀ n, OnlyRoutine (sqr s n) (sqr t n)

namespace OnlyStarts

theorem refl (s : State) : OnlyStarts s s := ⟨rfl, fun _ => rfl⟩

theorem trans {s t u : State} (h : OnlyStarts s t) (k : OnlyStarts t u) : OnlyStarts s u :=
  ⟨k.rest.trans (congrArg (fun x => { x with seq.sq := u.seq.sq, seq.kept := u.seq.kept }) h.rest),
    fun n => (h.sqrs n).trans (k.sqrs n)⟩

theorem foldl {α : Type} {f : State → α → State} (hf : ∀ s a, OnlyStarts s (f s a)) (l : List α) (s : State) :
    OnlyStarts s (l.foldl f s) :=
  foldl_frame OnlyStarts refl (fun _ _ _ => trans) f hf l s

theorem onSq {f : Sqr → Sqr} (hf : ∀ q, OnlyRoutine q (f q)) (s : State) (n : Nat) : OnlyStarts s (onSq s n f) := by
  by_cases hn : n < 5
  · refine ⟨rfl, fun m => ?_⟩
    by_cases hm : m = n
    · rw [hm, sqr_onSq_same s hn]
      exact hf _
    · rw [sqr_onSq_other s hm]
      rfl
  · rw [onSq_beyond s (Nat.not_lt.mp hn)]
    exact refl s

variable {s t : State} (h : OnlyStarts s t)
include h

theorem onlySeq : OnlySeq s t := by
  unfold OnlySeq
  rw [h.rest]

theorem serves (n : Nat) : (sqr t n).serves = (sqr s n).serves := by rw [h.sqrs n]
theorem store (n : Nat) : (sqr t n).store = (sqr s n).store := by rw [h.sqrs n]
theorem partly (n : Nat) : (sqr t n).partly = (sqr s n).partly := by rw [h.sqrs n]
theorem patching : t.seq.patching = s.seq.patching := by rw [h.rest]
theorem undoing : t.seq.undoing = s.seq.undoing := by rw [h.rest]
theorem switchReq : t.seq.switchReq = s.seq.switchReq := by rw [h.rest]
theorem switches : t.seq.switches = s.seq.switches := by rw [h.rest]
theorem ringMapCopy : t.seq.ringMapCopy = s.seq.ringMapCopy := by rw [h.rest]
theorem master : t.seq.master = s.seq.master := by rw [h.rest]
theorem masterPatch : t.seq.masterPatch = s.seq.masterPatch := by rw [h.rest]
theorem prevMaster : t.seq.prevMaster = s.seq.prevMaster := by rw [h.rest]
theorem patchReason : t.seq.patchReason = s.seq.patchReason := by rw [h.rest]
theorem draftQ : t.spn.draftQ = s.spn.draftQ := by rw [h.rest]

end OnlyStarts

/-! ## Whose turn it is (R329), and pauses (R370) -/

theorem patchOrder_congr {s t : State} (h : ∀ n, (sqr t n).serves = (sqr s n).serves) : patchOrder t = patchOrder s := by
  unfold patchOrder
  simp only [h]

theorem patchTurn_congr {s t : State} (hp : t.seq.patching = s.seq.patching) (hu : t.seq.undoing = s.seq.undoing)
    (hs : ∀ n, (sqr t n).serves = (sqr s n).serves) (hq : ∀ n, (sqr t n).partly = (sqr s n).partly) (n : Nat) :
    patchTurn t n = patchTurn s n := by
  unfold patchTurn
  simp only [hp, hu, hq, patchOrder_congr hs]

theorem OnlyStarts.patchTurn {s t : State} (h : OnlyStarts s t) (n : Nat) : patchTurn t n = patchTurn s n :=
  patchTurn_congr h.patching h.undoing h.serves h.partly n

theorem OnlySeq.seqPaused {s t : State} (h : OnlySeq s t) : seqPaused t = seqPaused s := by
  rw [h]
  rfl

/-! ## Starts held back by their share (R34) -/

/-- The media time of an activity on an actuator that a sequencer's present routine takes. -/
def runUse (now a activity : Nat) (q : Sqr) : Option (Nat × Nat × Nat) :=
  if q.serves = a ∧ q.routine.any (fun t => decide (t.activity = activity)) then some (a * 8 + activity, q.startedAt, now) else none

/-- Two sequencers serve the same, run the same routine and began it at the same time. -/
def SameRun (q r : Sqr) : Prop := r.serves = q.serves ∧ r.routine = q.routine ∧ r.startedAt = q.startedAt

theorem bgUse_eq (s : State) (a k : Nat) : bgUse s a k =
    ((s.seq.sq.toList.filterMap (runUse s.time a k) ++ s.seq.bgTime).map fun p =>
      if p.1 = a * 8 + k then p.2.2 - max p.2.1 (s.time - 1000000) else 0).foldl (· + ·) 0 := rfl

/-- The media time of an activity rests on whom each sequencer serves, its routine and when it began. -/
theorem bgUse_congr {s t : State} (ht : t.time = s.time) (hb : t.seq.bgTime = s.seq.bgTime)
    (hq : ∀ n, SameRun (sqr s n) (sqr t n))
    (a k : Nat) : bgUse t a k = bgUse s a k := by
  have hrun : t.seq.sq.toList.filterMap (runUse t.time a k) = s.seq.sq.toList.filterMap (runUse s.time a k) := by
    rw [sq_toList, sq_toList, List.filterMap_map, List.filterMap_map]
    refine congrArg (List.filterMap · (List.range 5)) (funext fun n => ?_)
    obtain ⟨h1, h2, h3⟩ := hq n
    simp only [Function.comp, runUse, h1, h2, h3, ht]
  rw [bgUse_eq, bgUse_eq, hrun, hb, ht]

theorem shareHeld_congr {s t : State} (h : OnlySeq s t) (hk : t.seq.kept = s.seq.kept) (hb : t.seq.bgTime = s.seq.bgTime)
    (hq : ∀ n, SameRun (sqr s n) (sqr t n))
    (a : Nat) (x : RoutineStart) : shareHeld t a x = shareHeld s a x := by
  have ht : t.time = s.time := by rw [h]
  have hd : t.spn = s.spn := by rw [h]
  have ha : actShare t = actShare s := by
    rw [h]
    rfl
  unfold shareHeld
  rw [bgUse_congr ht hb hq, hk, hd, ha]

/-- Host work is never held back, nor is any start while the draft leaves Q at 0. -/
theorem shareHeld_free {s : State} {x : RoutineStart} (h : x.activity = 0 ∨ s.spn.draftQ = 0) (a : Nat) :
    shareHeld s a x = false := by
  unfold shareHeld
  rw [decide_eq_false fun hx => h.elim hx.1 hx.2, Bool.false_and, Bool.false_and]

/-! ## The next start (R315, R323) -/

/-- The starts that the hearth keeps for an actuator. -/
def keptFor (s : State) (a : Nat) : List RoutineStart := (s.seq.kept.filter fun p => p.1 = a).map (·.2)

theorem startsOf_eq (s : State) (n : Nat) : startsOf s n = (sqr s n).start.toList ++ keptFor s (sqr s n).serves := rfl

theorem startsOf_congr {s t : State} {n : Nat} (h : (sqr t n).start = (sqr s n).start) (hs : (sqr t n).serves = (sqr s n).serves)
    (hk : keptFor t (sqr s n).serves = keptFor s (sqr s n).serves) : startsOf t n = startsOf s n := by
  rw [startsOf_eq, startsOf_eq, h, hs, hk]

theorem keptFor_congr {s t : State} (h : t.seq.kept = s.seq.kept) (a : Nat) : keptFor t a = keptFor s a := by
  unfold keptFor
  rw [h]

/-- A sequencer as a routine that begins leaves it. -/
def begun (x : RoutineStart) (now : Nat) (q : Sqr) : Sqr :=
  { q with
    routine := some x, start := none, mode := .running, pc := x.entry, resume := x.entry, stack := [], wdog := 0, readFalse := false,
    startedAt := now }

/-- A sequencer whose next start has begun, the one after it posted. -/
def begunNext (x : RoutineStart) (rest : List RoutineStart) (now : Nat) (q : Sqr) : Sqr := { begun x now q with start := rest.head? }

/-- The starts that the hearth keeps, after the rest of those that waited for an actuator was put back behind the others. -/
def keptBehind (a : Nat) (rest : List RoutineStart) (kept : List (Nat × RoutineStart)) : List (Nat × RoutineStart) :=
  (kept.filter fun p => p.1 ≠ a) ++ rest.map fun r => (a, r)

/-- The state in which the hearth has posted a start and the one after it. -/
def keptAfter (s : State) (n : Nat) (x : RoutineStart) : State :=
  { s with seq.kept := keptBehind (sqr s n).serves ((startsOf s n).erase x).tail s.seq.kept }

section
variable {s : State} {n : Nat}

theorem startNext_none (h : (startsOf s n).find? (fun x => ¬ shareHeld s (sqr s n).serves x) = none) : startNext s n = s := by
  unfold startNext
  dsimp only
  rw [h]

theorem startNext_some {x : RoutineStart} (h : (startsOf s n).find? (fun x => ¬ shareHeld s (sqr s n).serves x) = some x) :
    startNext s n = onSq (keptAfter s n x) n (begunNext x ((startsOf s n).erase x) s.time) := by
  unfold startNext
  dsimp only
  rw [h]
  exact onSq_onSq (keptAfter s n x) n (begun x s.time) fun q => { q with start := ((startsOf s n).erase x).head? }

theorem startNext_onlyStarts (s : State) (n : Nat) : OnlyStarts s (startNext s n) := by
  cases h : (startsOf s n).find? (fun x => ¬ shareHeld s (sqr s n).serves x) with
  | none =>
    rw [startNext_none h]
    exact .refl s
  | some x =>
    rw [startNext_some h]
    exact .trans (t := keptAfter s n x) ⟨rfl, fun _ => rfl⟩ (.onSq (by exact fun _ => rfl) _ n)

theorem sqr_startNext_other (s : State) {m : Nat} (hm : m ≠ n) : sqr (startNext s n) m = sqr s m := by
  cases h : (startsOf s n).find? (fun x => ¬ shareHeld s (sqr s n).serves x) with
  | none => rw [startNext_none h]
  | some x =>
    rw [startNext_some h]
    exact sqr_onSq_other (keptAfter s n x) hm _

theorem sqr_startNext_same (hn : n < 5) {x : RoutineStart}
    (h : (startsOf s n).find? (fun x => ¬ shareHeld s (sqr s n).serves x) = some x) :
    sqr (startNext s n) n = begunNext x ((startsOf s n).erase x) s.time (sqr s n) := by
  rw [startNext_some h]
  exact sqr_onSq_same (keptAfter s n x) hn _

theorem keptFor_behind_same (t : State) (a : Nat) (rest : List RoutineStart) {kept : List (Nat × RoutineStart)}
    (h : t.seq.kept = keptBehind a rest kept) : keptFor t a = rest := by
  have h1 : (kept.filter fun p => p.1 ≠ a).filter (fun p => p.1 = a) = [] := by simp
  have h2 : (rest.map fun r => (a, r)).filter (fun p => p.1 = a) = rest.map fun r => (a, r) := by simp [List.filter_eq_self]
  rw [keptFor, h, keptBehind, List.filter_append, h1, h2, List.nil_append, List.map_map]
  exact List.map_id rest

theorem keptFor_behind_other (t : State) {a b : Nat} (hb : b ≠ a) (rest : List RoutineStart)
    (h : t.seq.kept = keptBehind a rest s.seq.kept) : keptFor t b = keptFor s b := by
  have h1 : (s.seq.kept.filter fun p => p.1 ≠ a).filter (fun p => p.1 = b) = s.seq.kept.filter fun p => p.1 = b := by
    rw [List.filter_filter]
    refine List.filter_congr fun p _ => ?_
    by_cases hp : p.1 = b <;> simp [hp, hb]
  have h2 : (rest.map fun r => (a, r)).filter (fun p => p.1 = b) = [] := by simp [List.filter_eq_nil_iff, hb.symm]
  rw [keptFor, h, keptBehind, List.filter_append, h1, h2, List.append_nil]
  rfl

/-- A start that begins leaves the others in order. -/
theorem startsOf_startNext (hn : n < 5) {x : RoutineStart}
    (h : (startsOf s n).find? (fun x => ¬ shareHeld s (sqr s n).serves x) = some x) :
    startsOf (startNext s n) n = (startsOf s n).erase x := by
  have hk : (startNext s n).seq.kept = keptBehind (sqr s n).serves ((startsOf s n).erase x).tail s.seq.kept := by
    rw [startNext_some h]
    rfl
  rw [startsOf_eq, (startNext_onlyStarts s n).serves, keptFor_behind_same _ _ _ hk, sqr_startNext_same hn h]
  unfold begunNext
  cases (startsOf s n).erase x <;> rfl

/-- A start that begins leaves those that wait for other actuators as they are. -/
theorem keptFor_startNext_other {b : Nat} (hb : b ≠ (sqr s n).serves) : keptFor (startNext s n) b = keptFor s b := by
  cases h : (startsOf s n).find? (fun x => ¬ shareHeld s (sqr s n).serves x) with
  | none => rw [startNext_none h]
  | some x =>
    refine keptFor_behind_other _ hb ((startsOf s n).erase x).tail ?_
    rw [startNext_some h]
    rfl

end

/-! ## Holding or starting at a quiet point (R325, R326, R329) -/

/-- A sequencer at a quiet point is to hold, for a switch or for a patch. -/
def mustHold (s : State) (n : Nat) : Bool := (s.seq.switchReq && decide ((sqr s n).serves < 4)) || patchTurn s n

/-- The state with a sequencer's hold set as it must be. -/
def holdSet (s : State) (n : Nat) : State := onSq s n fun q => { q with hold := mustHold s n }

section
variable (s : State) (n : Nat)

theorem holdSet_onlyStarts : OnlyStarts s (holdSet s n) := .onSq (by exact fun _ => rfl) s n

theorem holdOrStart_eq : holdOrStart s n = if mustHold s n ∨ seqPaused s then holdSet s n else startNext (holdSet s n) n := rfl

theorem holdOrStart_onlyStarts : OnlyStarts s (holdOrStart s n) := by
  rw [holdOrStart_eq]
  split
  · exact holdSet_onlyStarts s n
  · exact (holdSet_onlyStarts s n).trans (startNext_onlyStarts _ n)

theorem sqr_holdOrStart_other {m : Nat} (hm : m ≠ n) : sqr (holdOrStart s n) m = sqr s m := by
  have h := sqr_onSq_other s hm fun q => { q with hold := mustHold s n }
  rw [holdOrStart_eq]
  split
  · exact h
  · exact (sqr_startNext_other _ hm).trans h

theorem keptFor_holdOrStart_other {b : Nat} (hb : b ≠ (sqr s n).serves) : keptFor (holdOrStart s n) b = keptFor s b := by
  rw [holdOrStart_eq]
  split
  · rfl
  · refine (keptFor_startNext_other ?_).trans rfl
    rwa [(holdSet_onlyStarts s n).serves]

end

section
variable {s : State} {n : Nat} (hn : n < 5)
include hn

theorem sqr_holdSet : sqr (holdSet s n) n = { sqr s n with hold := mustHold s n } := sqr_onSq_same s hn _

theorem startsOf_holdSet : startsOf (holdSet s n) n = startsOf s n := by
  refine startsOf_congr ?_ ((holdSet_onlyStarts s n).serves n) rfl
  rw [sqr_holdSet hn]

theorem shareHeld_holdSet (a : Nat) (x : RoutineStart) : shareHeld (holdSet s n) a x = shareHeld s a x := by
  refine shareHeld_congr (holdSet_onlyStarts s n).onlySeq rfl rfl (fun m => ?_) a x
  by_cases hm : m = n
  · rw [hm, sqr_holdSet hn]
    exact ⟨rfl, rfl, rfl⟩
  · unfold holdSet
    rw [sqr_onSq_other s hm]
    exact ⟨rfl, rfl, rfl⟩

theorem find_holdSet : ((startsOf (holdSet s n) n).find? fun x => ¬ shareHeld (holdSet s n) (sqr (holdSet s n) n).serves x) =
    (startsOf s n).find? fun x => ¬ shareHeld s (sqr s n).serves x := by
  rw [startsOf_holdSet hn, (holdSet_onlyStarts s n).serves]
  simp only [shareHeld_holdSet hn]

/-- Where a start may not begin, or none waits that its share lets begin, the sequencer only takes its hold. -/
theorem holdOrStart_stays (h : mustHold s n = true ∨ seqPaused s = true ∨
    ((startsOf s n).find? fun x => ¬ shareHeld s (sqr s n).serves x) = none) : holdOrStart s n = holdSet s n := by
  rw [holdOrStart_eq]
  split
  · rfl
  next hno =>
    obtain ⟨h1, h2⟩ := not_or.mp hno
    exact startNext_none ((find_holdSet hn).trans ((h.resolve_left h1).resolve_left h2))

/-- Else the first start that its share lets begin does. -/
theorem holdOrStart_starts (hh : mustHold s n = false) (hp : seqPaused s = false) {x : RoutineStart}
    (hx : ((startsOf s n).find? fun x => ¬ shareHeld s (sqr s n).serves x) = some x) :
    sqr (holdOrStart s n) n = begunNext x ((startsOf s n).erase x) s.time { sqr s n with hold := false } ∧
      startsOf (holdOrStart s n) n = (startsOf s n).erase x := by
  have hx' := (find_holdSet hn).trans hx
  have h1 := sqr_startNext_same hn hx'
  have h2 := startsOf_startNext hn hx'
  rw [startsOf_holdSet hn] at h1 h2
  rw [sqr_holdSet hn, hh] at h1
  rw [holdOrStart_eq, if_neg (by simp [hh, hp])]
  exact ⟨h1, h2⟩

theorem holdOrStart_hold : (sqr (holdOrStart s n) n).hold = mustHold s n := by
  rw [holdOrStart_eq]
  split
  · rw [sqr_holdSet hn]
  · cases hx : (startsOf (holdSet s n) n).find? fun x => ¬ shareHeld (holdSet s n) (sqr (holdSet s n) n).serves x with
    | none => rw [startNext_none hx, sqr_holdSet hn]
    | some x =>
      rw [sqr_startNext_same hn hx, sqr_holdSet hn]
      rfl

end

end Sys2Proof.Machine
end

section
/-! PROOF. What one microword does to its sequencer. -/
namespace Sys2Proof.Machine
open Sys2Proof

/-! ## A fetch, and the nanoword (R316, R318) -/

/-- A sequencer after a fetch that was corrected or not. -/
def fetched (ce : Bool) (q : Sqr) : Sqr := { q with storeCe := if ce then satInc q.storeCe else q.storeCe }

theorem fetchCe_eq (s : State) (n : Nat) (ce : Bool) : onSq s n (fetched ce) = fetchCe s n ce := by
  cases ce with
  | true => rfl
  | false =>
    have hv : vmod s.seq.sq n (fetched false) = s.seq.sq := by
      rw [show fetched false = id from rfl]
      by_cases h : n < 5 <;> simp [vmod, h]
    unfold onSq
    rw [hv]
    rfl

/-- What a nanoword leaves as it is. -/
theorem execNano_frame (q : Sqr) (nw : BitVec 128) :
    execNano q nw = { q with
      loops := (execNano q nw).loops, regs := (execNano q nw).regs, flags := (execNano q nw).flags, wdog := (execNano q nw).wdog,
      resume := (execNano q nw).resume, save := (execNano q nw).save } := by
  unfold execNano
  dsimp only
  split <;> rfl

/-- A nanoword does the same after a corrected fetch. -/
theorem execNano_fetched (ce : Bool) (q : Sqr) (nw : BitVec 128) : execNano (fetched ce q) nw = fetched ce (execNano q nw) := by
  unfold execNano
  dsimp only
  by_cases h : nw.getLsbD 107
  · rw [if_pos h, if_pos h]
    rfl
  · rw [if_neg h, if_neg h]
    rfl

/-- The nanoword of the present microword. -/
def nanoNow (q : Sqr) : BitVec 128 := nanoOf q (microAt q)

/-! ## A microword that changes its own sequencer alone -/

/-- The state after a fetch by a sequencer that then changes itself. -/
def stepSq (s : State) (n : Nat) (ce : Bool) (f : Sqr → Sqr) : State := onSq (fetchCe s n ce) n f

/-- Other sequencers and the rest of the block stand, a corrected fetch counts, the store is as it was. -/
def OnlyFetches (s : State) (n : Fin 5) (ce : Bool) (t : State) : Prop :=
  OnlySeq s t ∧ (∀ m : Fin 5, m ≠ n → sqr t m = sqr s m) ∧
    (sqr t n).storeCe = (if ce then satInc (sqr s n).storeCe else (sqr s n).storeCe) ∧ (sqr t n).store = (sqr s n).store

/-- The data fields of a sequencer after a nanoword. -/
def SameData (e r : Sqr) : Prop := r.regs = e.regs ∧ r.flags = e.flags ∧ r.resume = e.resume ∧ r.save = e.save

section
variable (s : State) (n : Fin 5) (ce : Bool) (f : Sqr → Sqr)

theorem stepSq_eq : stepSq s n ce f = onSq s n fun q => f (fetched ce q) := by
  unfold stepSq
  rw [← fetchCe_eq, onSq_onSq]

/-- Where the fetch's count and the microword do not touch each other, the sequencer is as the microword leaves it, the count
added. -/
theorem sqr_stepSq (hf : ∀ q, f (fetched ce q) = fetched ce (f q)) : sqr (stepSq s n ce f) n = fetched ce (f (sqr s n)) := by
  rw [stepSq_eq, ← hf]
  exact sqr_onSq_same s n.isLt _

theorem stepSq_onlyFetches (hf : ∀ q, f (fetched ce q) = fetched ce (f q))
    (hk : (f (sqr s n)).storeCe = (sqr s n).storeCe ∧ (f (sqr s n)).store = (sqr s n).store) :
    OnlyFetches s n ce (stepSq s n ce f) := by
  obtain ⟨hce, hstore⟩ := hk
  refine ⟨?_, fun m hm => ?_, ?_⟩
  · rw [stepSq_eq]
    rfl
  · rw [stepSq_eq]
    exact sqr_onSq_other s (fun h => hm (Fin.ext h)) _
  · rw [sqr_stepSq s n ce f hf, ← hce]
    exact ⟨rfl, hstore⟩

end

/-! ## The microwords (Table 11.2) -/

/-- What NEXT leaves of its sequencer. -/
def afterNext (q : Sqr) : Sqr := { execNano q (nanoNow q) with pc := q.pc + 1, readFalse := false }

/-- The condition a WAIT names. -/
def waitCond (q : Sqr) : SeqCond := Config.condCode (BitVec.ofNat 6 (bitsOf (microAt q) 9 4))

/-- A WAIT as it begins, its nanoword executed. -/
def waitBegun (wedges : Nat) (q : Sqr) : Sqr := { execNano q (nanoNow q) with wdog := 0, waitFrom := wedges, readFalse := false }

/-- A WAIT that goes on where its condition is true, and else holds. -/
def waitJudged (s : State) (c : SeqCond) (q : Sqr) : Sqr :=
  if condTrue s q c then { q with pc := q.pc + 1 } else { q with mode := .waiting }

/-- What WAIT leaves of its sequencer, from the wedge count of the actuator it serves. -/
def afterWait (s : State) (c : SeqCond) (q : Sqr) : Sqr := waitJudged s c (waitBegun (vget s.srv.loop q.serves {}).wedges q)

/-- What BRT and BRF leave of their sequencer: a branch by IMM where the condition reads as wanted. -/
def afterBranch (s : State) (want : Bool) (q : Sqr) : Sqr :=
  { execNano q (nanoNow q) with
    pc := if readCond s q (nanoNow q) = want then branchTo q.pc (microAt q) else q.pc + 1, readFalse := false }

/-- What CALL leaves of its sequencer. -/
def afterCall (q : Sqr) : Sqr :=
  { execNano q (nanoNow q) with
    stack := (q.pc + 1) :: q.stack, pc := BitVec.ofNat 14 (bitsOf (nanoNow q) 127 114), readFalse := false }

/-- What RET leaves of its sequencer, from the address on top of the stack and those under it. -/
def afterRet (r : BitVec 14) (rs : List (BitVec 14)) (q : Sqr) : Sqr :=
  { execNano q (nanoNow q) with stack := rs, pc := r, readFalse := false }

/-- The loop counter a nanoword names. -/
def loopNo (nw : BitVec 128) : Nat := bitsOf nw 105 104

/-- The loop counter of a LOOP, decremented. -/
def loopLeft (q : Sqr) : BitVec 16 := vget (execNano q (nanoNow q)).loops (loopNo (nanoNow q)) 0 - 1

/-- What LOOP leaves of its sequencer. -/
def afterLoop (q : Sqr) : Sqr :=
  { execNano q (nanoNow q) with
    loops := vset (execNano q (nanoNow q)).loops (loopNo (nanoNow q)) (loopLeft q),
    pc := if loopLeft q ≠ 0 then branchTo q.pc (microAt q) else q.pc + 1, readFalse := false }

section
variable {s : State} {n : Fin 5} (ce : Bool)

theorem mwNext_runs (h : runsOp s n 0 = true) : mwNext s n ce = stepSq s n ce afterNext := if_neg (not_not.mpr h)

theorem mwWait_runs (h : runsOp s n 1 = true) : mwWait s n ce = stepSq s n ce (afterWait s (waitCond (sqr s n))) := by
  unfold mwWait
  dsimp only
  rw [if_pos h]
  cases ce <;> rfl

theorem mwBrt_runs (h : runsOp s n 2 = true) : mwBrt s n ce = stepSq s n ce (afterBranch s true) := if_pos h

theorem mwBrf_runs (h : runsOp s n 3 = true) : mwBrf s n ce = stepSq s n ce (afterBranch s false) := if_pos h

theorem mwCall_runs (h : runsOp s n 4 = true) (hl : (sqr s n).stack.length < 8) : mwCall s n ce = stepSq s n ce afterCall := by
  unfold mwCall
  rw [if_neg (not_not.mpr h), if_neg (Nat.not_le.mpr hl)]
  rfl

theorem mwCall_full (h : runsOp s n 4 = true) (hl : 8 ≤ (sqr s n).stack.length) : mwCall s n ce = seqFault (fetchCe s n ce) n := by
  unfold mwCall
  rw [if_neg (not_not.mpr h), if_pos hl]

theorem mwRet_runs (h : runsOp s n 5 = true) {r : BitVec 14} {rs : List (BitVec 14)} (hr : (sqr s n).stack = r :: rs) :
    mwRet s n ce = stepSq s n ce (afterRet r rs) := by
  unfold mwRet
  rw [if_neg (not_not.mpr h), hr]
  rfl

theorem mwRet_empty (h : runsOp s n 5 = true) (hr : (sqr s n).stack = []) : mwRet s n ce = seqFault (fetchCe s n ce) n := by
  unfold mwRet
  rw [if_neg (not_not.mpr h), hr]

theorem mwLoop_runs (h : runsOp s n 6 = true) : mwLoop s n ce = stepSq s n ce afterLoop := if_neg (not_not.mpr h)

end

/-! ## What the microwords leave -/

section
variable (q : Sqr)

theorem execNano_keeps : (execNano q (nanoNow q)).storeCe = q.storeCe ∧ (execNano q (nanoNow q)).store = q.store := by
  rw [execNano_frame]
  exact ⟨rfl, rfl⟩

theorem afterWait_keeps (s : State) (c : SeqCond) : (afterWait s c q).storeCe = q.storeCe ∧ (afterWait s c q).store = q.store := by
  unfold afterWait waitJudged
  split <;> exact execNano_keeps q

end

section
variable (ce : Bool) (q : Sqr)

theorem execNano_nanoNow_fetched :
    execNano (fetched ce q) (nanoNow (fetched ce q)) = fetched ce (execNano q (nanoNow q)) := execNano_fetched ce q (nanoNow q)

theorem afterNext_fetched : afterNext (fetched ce q) = fetched ce (afterNext q) := by
  unfold afterNext
  rw [execNano_nanoNow_fetched]
  rfl

theorem waitBegun_fetched (wedges : Nat) : waitBegun wedges (fetched ce q) = fetched ce (waitBegun wedges q) := by
  unfold waitBegun
  rw [execNano_nanoNow_fetched]
  rfl

theorem afterWait_fetched (s : State) (c : SeqCond) : afterWait s c (fetched ce q) = fetched ce (afterWait s c q) := by
  have hj (r : Sqr) : waitJudged s c (fetched ce r) = fetched ce (waitJudged s c r) := by
    unfold waitJudged
    rw [show condTrue s (fetched ce r) c = condTrue s r c from rfl]
    split <;> rfl
  unfold afterWait
  rw [waitBegun_fetched, hj]
  rfl

theorem afterBranch_fetched (s : State) (want : Bool) : afterBranch s want (fetched ce q) = fetched ce (afterBranch s want q) := by
  unfold afterBranch
  rw [execNano_nanoNow_fetched]
  rfl

theorem afterCall_fetched : afterCall (fetched ce q) = fetched ce (afterCall q) := by
  unfold afterCall
  rw [execNano_nanoNow_fetched]
  rfl

theorem afterRet_fetched (r : BitVec 14) (rs : List (BitVec 14)) : afterRet r rs (fetched ce q) = fetched ce (afterRet r rs q) := by
  unfold afterRet
  rw [execNano_nanoNow_fetched]
  rfl

theorem afterLoop_fetched : afterLoop (fetched ce q) = fetched ce (afterLoop q) := by
  unfold afterLoop loopLeft
  rw [execNano_nanoNow_fetched]
  rfl

end

section
variable (q : Sqr)

theorem afterNext_leaves : SameData (execNano q (nanoNow q)) (afterNext q) ∧ (afterNext q).loops = (execNano q (nanoNow q)).loops ∧
    (afterNext q).pc = q.pc + 1 ∧ (afterNext q).stack = q.stack ∧ (afterNext q).readFalse = false := by
  have hstack : (execNano q (nanoNow q)).stack = q.stack := by rw [execNano_frame]
  exact ⟨⟨rfl, rfl, rfl, rfl⟩, rfl, rfl, hstack, rfl⟩

theorem afterBranch_leaves (s : State) (want : Bool) : SameData (execNano q (nanoNow q)) (afterBranch s want q) ∧
    (afterBranch s want q).pc = if readCond s q (nanoNow q) = want then branchTo q.pc (microAt q) else q.pc + 1 :=
  ⟨⟨rfl, rfl, rfl, rfl⟩, rfl⟩

theorem afterCall_leaves : SameData (execNano q (nanoNow q)) (afterCall q) ∧ (afterCall q).stack = (q.pc + 1) :: q.stack ∧
    (afterCall q).pc = BitVec.ofNat 14 (bitsOf (nanoNow q) 127 114) := ⟨⟨rfl, rfl, rfl, rfl⟩, rfl, rfl⟩

theorem afterRet_leaves (r : BitVec 14) (rs : List (BitVec 14)) :
    SameData (execNano q (nanoNow q)) (afterRet r rs q) ∧ (afterRet r rs q).stack = rs ∧ (afterRet r rs q).pc = r :=
  ⟨⟨rfl, rfl, rfl, rfl⟩, rfl, rfl⟩

end

/-- A WAIT goes on where its condition is true, and else holds at its own microword. -/
theorem afterWait_leaves {s : State} {q : Sqr} (c : SeqCond) (hq : q.mode = .running) :
    SameData (execNano q (nanoNow q)) (afterWait s c q) ∧
      if condTrue s (waitBegun (vget s.srv.loop q.serves {}).wedges q) c then
        (afterWait s c q).mode = .running ∧ (afterWait s c q).pc = q.pc + 1
      else (afterWait s c q).mode = .waiting ∧ (afterWait s c q).pc = q.pc := by
  have hm : (execNano q (nanoNow q)).mode = .running := by
    rw [execNano_frame]
    exact hq
  have hpc : (execNano q (nanoNow q)).pc = q.pc := by rw [execNano_frame]
  unfold afterWait waitJudged
  split
  · exact ⟨⟨rfl, rfl, rfl, rfl⟩, hm, congrArg (· + 1) hpc⟩
  · exact ⟨⟨rfl, rfl, rfl, rfl⟩, rfl, hpc⟩

/-- A loop counter read after one is set. -/
theorem vget_vset {α : Type} {n : Nat} (v : Vector α n) {k : Nat} (hk : k < n) (x d : α) :
    vget (vset v k x) k d = x ∧ ∀ i, i ≠ k → vget (vset v k x) i d = vget v i d :=
  ⟨vget_vmod_same v hk (fun _ => x) d, fun _ hi => vget_vmod_other v hi (fun _ => x) d⟩

theorem loopNo_lt (nw : BitVec 128) : loopNo nw < 4 := Nat.mod_lt _ (by decide)

theorem afterLoop_leaves (q : Sqr) : SameData (execNano q (nanoNow q)) (afterLoop q) ∧
    vget (afterLoop q).loops (loopNo (nanoNow q)) 0 = loopLeft q ∧
    (∀ i, i < 4 → i ≠ loopNo (nanoNow q) → vget (afterLoop q).loops i 0 = vget (execNano q (nanoNow q)).loops i 0) ∧
    (afterLoop q).pc = if loopLeft q ≠ 0 then branchTo q.pc (microAt q) else q.pc + 1 := by
  obtain ⟨hcount, hothers⟩ := vget_vset (execNano q (nanoNow q)).loops (loopNo_lt (nanoNow q)) (loopLeft q) 0
  exact ⟨⟨rfl, rfl, rfl, rfl⟩, hcount, fun i _ hi => hothers i hi, rfl⟩

/-! ## A microword that does not run, and one that waits -/

section
variable {s : State} {n : Nat}

theorem runsOp_running {op : Nat} (h : runsOp s n op = true) : (sqr s n).mode = .running := by
  unfold runsOp at h
  simp only [Bool.and_eq_true, decide_eq_true_eq] at h
  exact h.1.1

theorem runsOp_not_running (h : (sqr s n).mode ≠ .running) (op : Nat) : ¬ runsOp s n op = true := fun hr => h (runsOp_running hr)

end

section
variable {s : State} {n : Fin 5} (ce : Bool)

/-- A WAIT whose condition is not yet true, or that is not running, stays. -/
theorem mwWait_stays (h : (sqr s n).mode ≠ .running)
    (hw : (sqr s n).mode = .waiting → condTrue s (sqr s n) (waitCond (sqr s n)) = false) :
    mwWait s n ce = s := by
  unfold mwWait
  dsimp only
  rw [if_neg (runsOp_not_running h 1), if_neg]
  rintro ⟨hm, hc⟩
  exact Bool.false_ne_true ((hw hm).symm.trans hc)

theorem mwWait_ends (hm : (sqr s n).mode = .waiting) (hc : condTrue s (sqr s n) (waitCond (sqr s n)) = true) :
    mwWait s n ce = onSq s n fun q => { q with pc := q.pc + 1, mode := .running } := by
  unfold mwWait
  dsimp only
  rw [if_neg (runsOp_not_running (by simp [hm]) 1), if_pos ⟨hm, hc⟩]

/-- The wedges of a WAIT's timeout have passed (R319). -/
def WaitLate (s : State) (q : Sqr) : Prop :=
  bitsOf (microAt q) 3 0 ≠ 0 ∧ q.waitFrom + 2 ^ (bitsOf (microAt q) 3 0 - 1) ≤ (vget s.srv.loop q.serves {}).wedges

theorem waitTimeout_late (hm : (sqr s n).mode = .waiting) (h : WaitLate s (sqr s n)) :
    waitTimeout s n = onSq s n fun q => { q with pc := q.pc + 1, mode := .running, readFalse := true } :=
  if_pos ⟨hm, h⟩

theorem waitTimeout_early (h : ¬ WaitLate s (sqr s n)) : waitTimeout s n = s := if_neg fun k => h k.2

/-- A quiet sequencer runs nothing (R325). -/
theorem quiet_runs_nothing (h : (sqr s n).mode = .quiet) :
    mwNext s n ce = s ∧ mwWait s n ce = s ∧ mwBrt s n ce = s ∧ mwBrf s n ce = s ∧ mwCall s n ce = s ∧ mwRet s n ce = s ∧
      mwLoop s n ce = s ∧ mwEnd s n ce = s := by
  have hn : (sqr s n).mode ≠ .running := by simp [h]
  have hr := runsOp_not_running hn
  exact ⟨if_pos (hr 0), mwWait_stays ce hn (by simp [h]), if_neg (hr 2), if_neg (hr 3), if_pos (hr 4), if_pos (hr 5),
    if_pos (hr 6), if_pos (hr 7)⟩

end

end Sys2Proof.Machine
end

section
/-! PROOF. END: the quiet point, and the routine that begins there. -/
namespace Sys2Proof.Machine
open Sys2Proof

/-! ## The media time of a background routine that ends (R34) -/

/-- The media times after a routine that ends is noted: those of the last second, its own first. -/
def bgNoted (now : Nat) (q : Sqr) (noted : List (Nat × Nat × Nat)) : List (Nat × Nat × Nat) :=
  match q.routine with
  | some t =>
    if t.activity = 0 then noted
    else (q.serves * 8 + t.activity, q.startedAt, now) :: noted.filter fun p => now < p.2.2 + 1000000
  | none => noted

theorem bgEnded_eq (s : State) (n : Nat) : bgEnded s n = { s with seq.bgTime := bgNoted s.time (sqr s n) s.seq.bgTime } := by
  unfold bgEnded bgNoted
  cases h : (sqr s n).routine with
  | none => simp only [h]
  | some t =>
    simp only [h]
    split <;> rfl

theorem sqr_bgEnded (s : State) (n m : Nat) : sqr (bgEnded s n) m = sqr s m := by
  rw [bgEnded_eq]
  rfl

/-! ## The quiet point that END reaches (R315, R325) -/

/-- A sequencer that has executed the nanoword of its END. -/
def afterEnd (q : Sqr) : Sqr := { execNano q (nanoNow q) with ends := q.ends + 1, wdog := 0 }

/-- A sequencer at its quiet point, before it holds or starts. -/
def quieted (q : Sqr) : Sqr := { q with routine := none, mode := .quiet, handler := none }

/-- The state in which END has reached the quiet point, before the sequencer holds or starts. -/
def endPoint (s : State) (n : Nat) (ce : Bool) : State := onSq (onSq (bgEnded (fetchCe s n ce) n) n afterEnd) n quieted

theorem mwEnd_runs {s : State} {n : Fin 5} (ce : Bool) (h : runsOp s n 7 = true) : mwEnd s n ce = holdOrStart (endPoint s n ce) n :=
  if_neg (not_not.mpr h)

section
variable (s : State) (n : Fin 5) (ce : Bool)

theorem sqr_fetchCe : sqr (fetchCe s n ce) n = fetched ce (sqr s n) := by
  rw [← fetchCe_eq]
  exact sqr_onSq_same s n.isLt _

/-- The quiet point is that of an ended routine with its nanoword executed. -/
theorem endPoint_eq :
    endPoint s n ce = { stepSq s n ce (fun q => quieted (afterEnd q)) with seq.bgTime := (bgEnded s n).seq.bgTime } := by
  have hb : bgEnded (fetchCe s n ce) n = { fetchCe s n ce with seq.bgTime := (bgEnded s n).seq.bgTime } := by
    rw [bgEnded_eq, bgEnded_eq, sqr_fetchCe]
    cases ce <;> rfl
  unfold endPoint
  rw [onSq_onSq, hb]
  rfl

theorem endPoint_onlySeq : OnlySeq s (endPoint s n ce) := by
  rw [endPoint_eq, stepSq_eq]
  rfl

theorem sqr_endPoint_same : sqr (endPoint s n ce) n = fetched ce (quieted (afterEnd (sqr s n))) := by
  rw [endPoint_eq]
  refine sqr_stepSq s n ce (fun q => quieted (afterEnd q)) fun q => ?_
  unfold afterEnd
  rw [execNano_nanoNow_fetched]
  rfl

theorem sqr_endPoint_other {m : Nat} (hm : m ≠ n) : sqr (endPoint s n ce) m = sqr s m := by
  rw [endPoint_eq, stepSq_eq]
  exact sqr_onSq_other s hm _

/-- What the END of a routine leaves of its sequencer as it was. -/
theorem endPoint_keeps : (sqr (endPoint s n ce) n).start = (sqr s n).start ∧
    (sqr (endPoint s n ce) n).store = (sqr s n).store ∧ ∀ m, (sqr (endPoint s n ce) m).serves = (sqr s m).serves ∧
      (sqr (endPoint s n ce) m).partly = (sqr s m).partly := by
  have h : sqr (endPoint s n ce) n = fetched ce (quieted (afterEnd (sqr s n))) := sqr_endPoint_same s n ce
  unfold afterEnd at h
  rw [execNano_frame] at h
  refine ⟨by rw [h]; rfl, by rw [h]; rfl, fun m => ?_⟩
  by_cases hm : m = n
  · rw [hm, h]
    exact ⟨rfl, rfl⟩
  · rw [sqr_endPoint_other s n ce hm]
    exact ⟨rfl, rfl⟩

theorem endPoint_counts : (sqr (endPoint s n ce) n).ends = (sqr s n).ends + 1 ∧
    (sqr (endPoint s n ce) n).storeCe = (if ce then satInc (sqr s n).storeCe else (sqr s n).storeCe) := by
  have h : sqr (endPoint s n ce) n = fetched ce (quieted (afterEnd (sqr s n))) := sqr_endPoint_same s n ce
  unfold afterEnd at h
  rw [execNano_frame] at h
  rw [h]
  exact ⟨rfl, rfl⟩

/-- Of what the sequencers share, the media times alone differ. -/
theorem endPoint_seq : (endPoint s n ce).seq.kept = s.seq.kept ∧ (endPoint s n ce).seq.bgTime = (bgEnded s n).seq.bgTime ∧
    (endPoint s n ce).seq.patching = s.seq.patching ∧ (endPoint s n ce).seq.undoing = s.seq.undoing ∧
    (endPoint s n ce).seq.switchReq = s.seq.switchReq := by
  rw [endPoint_eq, stepSq_eq]
  exact ⟨rfl, rfl, rfl, rfl, rfl⟩

theorem startsOf_endPoint : startsOf (endPoint s n ce) n = startsOf s n := by
  obtain ⟨hstart, -, hkeeps⟩ := endPoint_keeps s n ce
  exact startsOf_congr hstart (hkeeps n).1 (keptFor_congr (endPoint_seq s n ce).1 _)

theorem mustHold_endPoint : mustHold (endPoint s n ce) n = mustHold s n := by
  obtain ⟨-, -, hkeeps⟩ := endPoint_keeps s n ce
  obtain ⟨-, -, hpatching, hundoing, hreq⟩ := endPoint_seq s n ce
  have hturn : patchTurn (endPoint s n ce) n = patchTurn s n :=
    patchTurn_congr hpatching hundoing (fun m => (hkeeps m).1) (fun m => (hkeeps m).2) n
  unfold mustHold
  rw [(hkeeps n).1, hturn, hreq]

/-- The quiet point with the routine ended and its nanoword left out: the same starts are held back there. -/
def routineOver (s : State) (n : Nat) : State := onSq (bgEnded s n) n quieted

theorem shareHeld_endPoint (a : Nat) (x : RoutineStart) : shareHeld (endPoint s n ce) a x = shareHeld (routineOver s n) a x := by
  have hq : sqr (routineOver s n) n = quieted (sqr s n) :=
    (sqr_onSq_same _ n.isLt quieted).trans (congrArg quieted (sqr_bgEnded s n n))
  have hother {m : Nat} (hm : m ≠ n) : sqr (routineOver s n) m = sqr s m :=
    (sqr_onSq_other _ hm quieted).trans (sqr_bgEnded s n m)
  have hover : OnlySeq s (routineOver s n) ∧ (routineOver s n).seq.kept = s.seq.kept := by
    unfold routineOver
    rw [bgEnded_eq]
    exact ⟨rfl, rfl⟩
  obtain ⟨hkept, hbg, -⟩ := endPoint_seq s n ce
  have hend : sqr (endPoint s n ce) n = fetched ce (quieted (afterEnd (sqr s n))) := sqr_endPoint_same s n ce
  unfold afterEnd at hend
  rw [execNano_frame] at hend
  refine shareHeld_congr (hover.1.symm.trans (endPoint_onlySeq s n ce)) (hkept.trans hover.2.symm) hbg (fun m => ?_) a x
  by_cases hm : m = n
  · rw [hm, hend, hq]
    exact ⟨rfl, rfl, rfl⟩
  · rw [sqr_endPoint_other s n ce hm, hother hm]
    exact ⟨rfl, rfl, rfl⟩

end

end Sys2Proof.Machine
end

section
/-! PROOF. A sequencer declared faulty, and what frame aborts and elements leaving service change of the sequencers. -/
namespace Sys2Proof.Machine
open Sys2Proof

/-! ## What reaches the sequencers when frames are abandoned and elements leave service -/

/-- Of every sequencer at most the causes held differ. -/
def OnlyTrapPend (s t : State) : Prop := ∀ m, sqr t m = { sqr s m with trapPend := (sqr t m).trapPend }

namespace OnlyTrapPend

theorem of_sq {s t : State} (h : t.seq.sq = s.seq.sq) : OnlyTrapPend s t := fun m => by rw [sqr_congr h]

theorem trans {s t u : State} (h : OnlyTrapPend s t) (k : OnlyTrapPend t u) : OnlyTrapPend s u := fun m =>
  (k m).trans (congrArg (fun q => { q with trapPend := (sqr u m).trapPend }) (h m))

theorem serves {s t : State} (h : OnlyTrapPend s t) (m : Nat) : (sqr t m).serves = (sqr s m).serves := by rw [h m]

end OnlyTrapPend

theorem trapSq_onlyTrapPend (s : State) (i : Nat) (c : TrapCause) : OnlyTrapPend s (trapSq s i c) := by
  intro m
  rw [show trapSq s i c = onSq s i fun q => { q with trapPend := q.trapPend ||| (1#8 <<< trapPrio c) } from rfl]
  by_cases hi : i < 5
  · by_cases hm : m = i
    · rw [hm, sqr_onSq_same s hi]
    · rw [sqr_onSq_other s hm]
  · rw [onSq_beyond s (Nat.not_lt.mp hi)]

theorem trapAct_onlyTrapPend (s : State) (a : Nat) (c : TrapCause) : OnlyTrapPend s (trapAct s a c) := by
  unfold trapAct
  split
  · split
    · exact trapSq_onlyTrapPend s _ c
    · exact .of_sq rfl
  · exact .of_sq rfl

theorem frameAbort_onlyTrapPend (s : State) (a : Nat) : OnlyTrapPend s (frameAbort s a) := by
  unfold frameAbort
  split
  · exact .of_sq rfl
  · exact .trans (.of_sq rfl) (trapAct_onlyTrapPend _ _ _)

theorem retractAct_onlyTrapPend (s : State) (a : Nat) : OnlyTrapPend s (retractAct s a) :=
  (frameAbort_onlyTrapPend s a).trans (.of_sq rfl)

theorem OnlyStore.seq {s t : State} (h : OnlyStore s t) : t.seq = s.seq := by rw [h]

theorem fault1_seq (s : State) (e : Element) (tr : Nat) (d : List Nat) (h : HealthEvent) : (fault1 s e tr d h).seq = s.seq := by
  obtain ⟨w, a, r, n, f, k⟩ := fault1_frame s e tr d h
  rw [k]

theorem fault2_seq (s : State) (e : Element) (tr : Nat) (d : List Nat) (h : HealthEvent) : (fault2 s e tr d h).seq = s.seq := by
  obtain ⟨w, a, r, n, f, k⟩ := fault2_frame s e tr d h
  rw [k]

theorem spareUsed_seq (s : State) (old new : Element) : (spareUsed s old new).seq = s.seq := by
  obtain ⟨w, a, r, n, f, h⟩ := spareUsed_frame s old new
  rw [h]

theorem spareUsed_seqLeft (s : State) (old new : Element) : (spareUsed s old new).str.seqLeft = s.str.seqLeft := by
  obtain ⟨w, a, r, n, f, h⟩ := spareUsed_frame s old new
  rw [h]

theorem emberCopy_seq (s : State) (uid : Nat) : (emberCopy s uid).seq = s.seq := by
  unfold emberCopy
  split
  · rfl
  · split
    · rfl
    · split <;> rfl

theorem foldl_seq {α : Type} {f : State → α → State} (hf : ∀ s a, (f s a).seq = s.seq) (l : List α) (s : State) :
    (l.foldl f s).seq = s.seq :=
  foldl_frame (fun s t => t.seq = s.seq) (fun _ => rfl) (fun _ _ _ h k => k.trans h) f hf l s

/-- A head that leaves service changes no sequencer. -/
theorem headChange_seq (s : State) (f : Nat) (st : HeadState) : (headChange s f st).seq = s.seq := by
  unfold headChange
  extract_lets old code
  split
  · rfl
  next cap opened undone jobs cut stripes embers _ s1 s2 _ s3 s4 _ s5 _ =>
    have h2 : s2.seq = s1.seq := foldl_seq (fun s (g : Group) => (groupFull_onlyStore s g.id).seq) _ _
    have h4 : s4.seq = s3.seq := foldl_seq emberCopy_seq _ _
    have h5 : s5.seq = s4.seq := by
      unfold s5
      split <;> rfl
    exact (fault1_seq _ _ _ _ _).trans (h5.trans (h4.trans h2))

theorem actuatorOut_onlyTrapPend (s : State) (a c : Nat) : OnlyTrapPend s (actuatorOut s a c) := by
  unfold actuatorOut
  split
  · exact .of_sq rfl
  · extract_lets s1 _ s2 s3
    have h2 : OnlyTrapPend s s2 := (retractAct_onlyTrapPend s a).trans (.of_sq rfl)
    have h3 : s3.seq = s2.seq := foldl_seq (fun s h => by
      split
      · rfl
      · exact headChange_seq _ _ _) _ _
    exact h2.trans (.of_sq (congrArg SeqS.sq ((fault2_seq _ _ _ _ _).trans h3)))

/-! ## A frame being read, discarded (R322) -/

theorem discardRead_frame (s : State) (a : Nat) :
    ∃ c w r, discardRead s a = { s with chan.act := c, wrt.act := w, reqs := r } := by
  unfold discardRead leafWaits
  split
  · exact ⟨_, _, _, rfl⟩
  · exact ⟨s.chan.act, s.wrt.act, s.reqs, rfl⟩

theorem discardRead_seq (s : State) (a : Nat) : (discardRead s a).seq = s.seq := by
  obtain ⟨c, w, r, h⟩ := discardRead_frame s a
  rw [h]

/-- A read discarded leaves no frame being read. -/
theorem discardRead_idle (s : State) {a : Nat} (ha : a < 4) : (chanAt (discardRead s a) a).read = none := by
  unfold discardRead
  split
  · exact congrArg ChanAct.read (vget_vmod_same s.chan.act ha (fun c => { c with read := none }) {})
  · next h => exact h

/-! ## A faulty sequencer (R332 to R334) -/

/-- A sequencer retired. -/
def halted (q : Sqr) : Sqr := { q with serves := 6, mode := .quiet, routine := none, hold := false, handler := none }

/-- The state in which a faulty sequencer is halted and its frames are abandoned. -/
def seqHalted (s : State) (n : Nat) : State :=
  onSq (discardRead (frameAbort s (sqr s n).serves) (sqr s n).serves) n halted

/-- SQ4 in the place of a sequencer, with its save record loaded. -/
def sq4Loaded (q r : Sqr) : Sqr :=
  { r with
    serves := q.serves, routine := q.routine, start := q.start, startedAt := q.startedAt, save := q.save, hold := q.hold,
    trapPend := match q.handler with | some _ => q.trapPend ||| (1#8 <<< q.lastCause.toNat) | none => q.trapPend }

/-- SQ4 goes on where the sequencer's save record, or its routine's entry point, tells it to. -/
def sq4Resumes (q r : Sqr) : Sqr :=
  match q.save, q.routine with
  | some m, some _ =>
    { r with
      pc := m.resume, resume := m.resume, stack := m.stack, loops := m.loops, regs := m.regs, flags := m.flags, mode := .running,
      wdog := 0 }
  | none, some t => { r with pc := t.entry, resume := t.entry, mode := .running, wdog := 0 }
  | _, none => { r with mode := .quiet }

theorem sq4Resumes_keeps (q r : Sqr) : (sq4Resumes q r).serves = r.serves ∧ (sq4Resumes q r).routine = r.routine := by
  unfold sq4Resumes
  split <;> exact ⟨rfl, rfl⟩

section
variable {s : State} {n : Nat}

theorem seqFault_idle (h : (sqr s n).serves = 7) : seqFault s n =
    fault1 (onSq { s with str.seqLeft := false } n fun q => { q with serves := 6, mode := .quiet }) (.sequencer n) 0x24 [3, n] := by
  unfold seqFault
  dsimp only
  rw [if_neg (by simp [h]), if_pos h]

/-- A sequencer in service that is declared faulty gives its place to an idle SQ4, or its actuator leaves service. -/
theorem seqFault_serving (h : (sqr s n).serves < 4) : seqFault s n =
    if (seqHalted s n).str.seqLeft ∧ (sqr (seqHalted s n) 4).serves = 7 then
      spareUsed (onSq { seqHalted s n with str.seqLeft := false } 4 fun r => sq4Resumes (sqr s n) (sq4Loaded (sqr s n) r))
        (.sequencer n) (.sequencer 4)
    else actuatorOut (seqHalted s n) (sqr s n).serves 2 := by
  unfold seqFault
  dsimp only
  rw [if_neg (by omega), if_neg (by omega)]
  rfl

theorem seqHalted_str (s : State) (n : Nat) : (seqHalted s n).str = s.str := by
  obtain ⟨w, f, q, h⟩ := frameAbort_frame s (sqr s n).serves
  obtain ⟨c, w', r, k⟩ := discardRead_frame (frameAbort s (sqr s n).serves) (sqr s n).serves
  unfold seqHalted
  rw [k, h]
  rfl

theorem seqHalted_other {m : Nat} (hm : m ≠ n) : (sqr (seqHalted s n) m).serves = (sqr s m).serves := by
  unfold seqHalted
  rw [sqr_onSq_other _ hm, sqr_congr (congrArg SeqS.sq (discardRead_seq _ _))]
  exact (frameAbort_onlyTrapPend s _).serves m

section
variable (hn : n < 5)
include hn

theorem seqHalted_serves : (sqr (seqHalted s n) n).serves = 6 := by
  unfold seqHalted
  rw [sqr_onSq_same _ hn]
  rfl

/-- A sequencer declared faulty is retired. -/
theorem seqFault_retires (h : (sqr s n).serves < 4 ∨ (sqr s n).serves = 7) : (sqr (seqFault s n) n).serves = 6 := by
  obtain h | h := h
  · rw [seqFault_serving h]
    split
    · next h7 =>
      have h4 : n ≠ 4 := by
        rintro rfl
        have := seqHalted_serves (s := s) hn
        omega
      rw [sqr_congr (congrArg SeqS.sq (spareUsed_seq _ _ _)), sqr_onSq_other _ h4]
      exact seqHalted_serves hn
    · rw [(actuatorOut_onlyTrapPend _ _ _).serves]
      exact seqHalted_serves hn
  · rw [seqFault_idle h, sqr_congr (congrArg SeqS.sq (fault1_seq _ _ _ _ _)), sqr_onSq_same _ hn]

end

/-- An idle SQ4 takes the place of a faulty sequencer and resumes its routine from the save record (R333). -/
theorem seqFault_substitutes (h : (sqr s n).serves < 4) (hl : s.str.seqLeft = true) (h4 : (sqr s 4).serves = 7) :
    (sqr (seqFault s n) 4).serves = (sqr s n).serves ∧ (seqFault s n).str.seqLeft = false ∧
      ∀ u m, (sqr s n).routine = some u → (sqr s n).save = some m →
        (sqr (seqFault s n) 4).routine = some u ∧ (sqr (seqFault s n) 4).pc = m.resume ∧ (sqr (seqFault s n) 4).mode = .running := by
  have hne : 4 ≠ n := by
    rintro rfl
    omega
  rw [seqFault_serving h, if_pos ⟨by rw [seqHalted_str]; exact hl, (seqHalted_other hne).trans h4⟩,
    sqr_congr (congrArg SeqS.sq (spareUsed_seq _ _ _)), sqr_onSq_same _ (by decide), spareUsed_seqLeft]
  obtain ⟨hserves, hroutine⟩ := sq4Resumes_keeps (sqr s n) (sq4Loaded (sqr s n) (sqr { seqHalted s n with str.seqLeft := false } 4))
  refine ⟨hserves, rfl, fun u m hu hm => ⟨hroutine.trans hu, ?_⟩⟩
  unfold sq4Resumes
  rw [hm, hu]
  exact ⟨rfl, rfl⟩

/-- With SQ4 spent, the actuator of a faulty sequencer leaves service (R334). -/
theorem seqFault_actuatorOut (h : (sqr s n).serves < 4) (hl : s.str.seqLeft = false) :
    vget (seqFault s n).str.actOut (sqr s n).serves false = true := by
  rw [seqFault_serving h, if_neg (by simp [seqHalted_str, hl])]
  exact actuatorOut_out _ h 2

end

end Sys2Proof.Machine
end

section
/-! PROOF. The statement about microwords. -/
namespace Sys2Proof.Machine
open Sys2Proof

theorem mustHold_iff {s : State} {n : Nat} :
    mustHold s n = true ↔ (s.seq.switchReq = true ∧ (sqr s n).serves < 4) ∨ patchTurn s n = true := by
  simp [mustHold]

section
variable (s : State) (n : Fin 5) (ce : Bool)

/-- END changes its own sequencer alone, and counts its routine-end event. -/
theorem holdOrStart_endPoint_onlyFetches :
    OnlyFetches s n ce (holdOrStart (endPoint s n ce) n) ∧ (sqr (holdOrStart (endPoint s n ce) n) n).ends = (sqr s n).ends + 1 := by
  have hstarts := holdOrStart_onlyStarts (endPoint s n ce) n
  have hq := hstarts.sqrs n
  obtain ⟨hends, hce⟩ := endPoint_counts s n ce
  obtain ⟨-, hstore, -⟩ := endPoint_keeps s n ce
  refine ⟨⟨(endPoint_onlySeq s n ce).trans hstarts.onlySeq, fun m hm => ?_, ?_, ?_⟩, ?_⟩
  · have hm' : (m : Nat) ≠ n := fun h => hm (Fin.ext h)
    exact (sqr_holdOrStart_other _ _ hm').trans (sqr_endPoint_other s n ce hm')
  · rw [hq]
    exact hce
  · rw [hq]
    exact hstore
  · rw [hq]
    exact hends

/-- The start that begins at the quiet point of an END is the first that its share lets begin. -/
theorem find_endPoint :
    ((startsOf (endPoint s n ce) n).find? fun x => ¬ shareHeld (endPoint s n ce) (sqr (endPoint s n ce) n).serves x) =
      (startsOf s n).find? fun x => ¬ shareHeld (routineOver s n) (sqr s n).serves x := by
  obtain ⟨-, -, hkeeps⟩ := endPoint_keeps s n ce
  rw [startsOf_endPoint, (hkeeps n).1]
  simp only [shareHeld_endPoint]

/-- Where the quiet point of an END lasts, the starts go on waiting. -/
theorem holdOrStart_endPoint_stays (h : holdOrStart (endPoint s n ce) n = holdSet (endPoint s n ce) n) :
    (sqr (holdOrStart (endPoint s n ce) n) n).mode = .quiet ∧ (sqr (holdOrStart (endPoint s n ce) n) n).routine = none ∧
      startsOf (holdOrStart (endPoint s n ce) n) n = startsOf s n := by
  have hq : sqr (endPoint s n ce) n = _ := sqr_endPoint_same s n ce
  rw [h, startsOf_holdSet n.isLt, startsOf_endPoint, sqr_holdSet n.isLt, hq]
  exact ⟨rfl, rfl, rfl⟩

end

/-- Settles O55: each microword is one change to its own sequencer (`stepSq`), which the count of a corrected fetch does not touch;
END's quiet point differs from the routine's end alone in what no start rests on. -/
theorem microwordsRun : Obligations.MicrowordsRun := by
  unfold Obligations.MicrowordsRun
  refine ⟨fun s n ce => ?_, fun s n ce hm => ⟨fun hc => ?_, fun hc => ?_, fun hl => ?_, fun hl => ?_⟩⟩
  · intro q w nw e only data
    have hk := execNano_keeps q
    refine ⟨fun h => ?_, fun h => ?_, fun h => ?_, fun h => ?_, fun h hl => ?_, fun h hl hs => ?_, fun h r rs hr => ?_,
      fun h hr hs => ?_, fun h => ?_, fun h => ?_, fun h => ?_⟩
    · -- NEXT
      refine ⟨_, congrArg Host.Outcome.next (mwNext_runs ce h), stepSq_onlyFetches s n ce afterNext (afterNext_fetched ce) hk, ?_⟩
      simp only [data, sqr_stepSq s n ce _ (afterNext_fetched ce)]
      exact afterNext_leaves q
    · -- WAIT
      have hf (r : Sqr) := afterWait_fetched ce r s (waitCond (sqr s n))
      refine ⟨_, congrArg Host.Outcome.next (mwWait_runs ce h), stepSq_onlyFetches s n ce _ hf (afterWait_keeps q s _), ?_⟩
      simp only [data, sqr_stepSq s n ce _ hf]
      exact afterWait_leaves (waitCond q) (runsOp_running h)
    · -- BRT
      have hf (r : Sqr) := afterBranch_fetched ce r s true
      refine ⟨_, congrArg Host.Outcome.next (mwBrt_runs ce h), stepSq_onlyFetches s n ce _ hf hk, ?_⟩
      simp only [data, sqr_stepSq s n ce _ hf]
      exact afterBranch_leaves q s true
    · -- BRF
      have hf (r : Sqr) := afterBranch_fetched ce r s false
      refine ⟨_, congrArg Host.Outcome.next (mwBrf_runs ce h), stepSq_onlyFetches s n ce _ hf hk, ?_⟩
      simp only [data, sqr_stepSq s n ce _ hf]
      exact afterBranch_leaves q s false
    · -- CALL
      refine ⟨_, congrArg Host.Outcome.next (mwCall_runs ce h hl), stepSq_onlyFetches s n ce _ (afterCall_fetched ce) hk, ?_⟩
      simp only [data, sqr_stepSq s n ce _ (afterCall_fetched ce)]
      exact afterCall_leaves q
    · -- CALL onto a full stack
      refine ⟨_, congrArg Host.Outcome.next (mwCall_full ce h hl), seqFault_retires n.isLt (.inl ?_)⟩
      rw [sqr_fetchCe]
      exact hs
    · -- RET
      have hf (x : Sqr) := afterRet_fetched ce x r rs
      refine ⟨_, congrArg Host.Outcome.next (mwRet_runs ce h hr), stepSq_onlyFetches s n ce _ hf hk, ?_⟩
      simp only [data, sqr_stepSq s n ce _ hf]
      exact afterRet_leaves q r rs
    · -- RET from an empty stack
      refine ⟨_, congrArg Host.Outcome.next (mwRet_empty ce h hr), seqFault_retires n.isLt (.inl ?_)⟩
      rw [sqr_fetchCe]
      exact hs
    · -- LOOP
      refine ⟨_, congrArg Host.Outcome.next (mwLoop_runs ce h), stepSq_onlyFetches s n ce _ (afterLoop_fetched ce) hk, ?_⟩
      simp only [data, sqr_stepSq s n ce _ (afterLoop_fetched ce)]
      exact afterLoop_leaves q
    · -- END
      intro holds u
      obtain ⟨honly, hends⟩ := holdOrStart_endPoint_onlyFetches s n ce
      have hmust : mustHold (endPoint s n ce) n = true ↔ holds := by
        rw [mustHold_endPoint]
        exact mustHold_iff
      have hhold : (sqr (holdOrStart (endPoint s n ce) n) n).hold = mustHold (endPoint s n ce) n := holdOrStart_hold n.isLt
      have hpaused := (endPoint_onlySeq s n ce).seqPaused
      refine ⟨_, congrArg Host.Outcome.next (mwEnd_runs ce h), honly, hends, fun hh => ?_, fun hh => ?_, fun hh hwait => ?_,
        fun x hh hp hx => ?_⟩
      · exact ⟨hhold.trans (hmust.mpr hh), holdOrStart_endPoint_stays s n ce (holdOrStart_stays n.isLt (.inl (hmust.mpr hh)))⟩
      · exact hhold.trans (Bool.eq_false_iff.mpr (mt hmust.mp hh))
      · refine holdOrStart_endPoint_stays s n ce (holdOrStart_stays n.isLt (.inr (hwait.imp hpaused.trans fun hx => ?_)))
        rw [find_endPoint]
        refine List.find?_eq_none.mpr fun x hmem => ?_
        have hheld : shareHeld (routineOver s n) (sqr s n).serves x = true := hx x hmem
        simp [hheld]
      · obtain ⟨hsq, hleft⟩ := holdOrStart_starts n.isLt (Bool.eq_false_iff.mpr (mt hmust.mp hh)) (hpaused.trans hp)
          ((find_endPoint s n ce).trans hx)
        rw [startsOf_endPoint] at hleft
        rw [hsq]
        exact ⟨rfl, rfl, rfl, hleft⟩
    · -- a quiet sequencer
      obtain ⟨h0, h1, h2, h3, h4, h5, h6, h7⟩ := quiet_runs_nothing ce h
      exact ⟨congrArg Host.Outcome.next h0, congrArg Host.Outcome.next h1, congrArg Host.Outcome.next h2,
        congrArg Host.Outcome.next h3, congrArg Host.Outcome.next h4, congrArg Host.Outcome.next h5,
        congrArg Host.Outcome.next h6, congrArg Host.Outcome.next h7⟩
  · -- WAIT while it holds
    exact congrArg Host.Outcome.next (mwWait_stays ce (by simp [hm]) fun _ => hc)
  · exact ⟨_, congrArg Host.Outcome.next (mwWait_ends ce hm hc), sqr_onSq_same s n.isLt _, rfl⟩
  · -- WAIT_TIMEOUT
    exact ⟨_, congrArg Host.Outcome.next (waitTimeout_late hm hl), sqr_onSq_same s n.isLt _, rfl,
      fun m hne => sqr_onSq_other s (fun h => hne (Fin.ext h)) _⟩
  · exact congrArg Host.Outcome.next (waitTimeout_early hl)

end Sys2Proof.Machine
end

section
/-! PROOF. Routines started, micro-traps taken and resumed, and a store's words reloaded. -/
namespace Sys2Proof.Machine
open Sys2Proof

/-! ## ROUTINE_START (R315) -/

section
variable {s : State} {n : Fin 5} {u : RoutineStart} (hs : (sqr s n).serves < 4)
include hs

theorem routineStart_cases : routineStart s n u =
    if (sqr s n).start.isSome ∨ shareHeld s (sqr s n).serves u then { s with seq.kept := s.seq.kept ++ [((sqr s n).serves, u)] }
    else if (sqr s n).routine.isNone ∧ ¬ (sqr s n).hold ∧ (sqr s n).mode = .quiet ∧ ¬ seqPaused s then onSq s n (begun u s.time)
    else onSq s n fun q => { q with start := some u } := by
  unfold routineStart
  dsimp only
  rw [if_neg (by omega)]
  rfl

theorem routineStart_frame : OnlySeq s (routineStart s n u) ∧ ∀ m : Fin 5, m ≠ n → sqr (routineStart s n u) m = sqr s m := by
  have hother (m : Fin 5) (hm : m ≠ n) (f : Sqr → Sqr) : sqr (onSq s n f) m = sqr s m :=
    sqr_onSq_other s (fun h => hm (Fin.ext h)) f
  rw [routineStart_cases hs]
  split
  · exact ⟨rfl, fun _ _ => rfl⟩
  · split
    · exact ⟨rfl, fun m hm => hother m hm _⟩
    · exact ⟨rfl, fun m hm => hother m hm _⟩

theorem routineStart_kept (h : (sqr s n).start ≠ none ∨ shareHeld s (sqr s n).serves u = true) :
    routineStart s n u = { s with seq.kept := s.seq.kept ++ [((sqr s n).serves, u)] } := by
  rw [routineStart_cases hs, if_pos (h.imp_left Option.isSome_iff_ne_none.mpr)]

theorem routineStart_begins (h0 : (sqr s n).start = none) (hh : shareHeld s (sqr s n).serves u = false)
    (hr : (sqr s n).routine = none) (hhold : (sqr s n).hold = false) (hm : (sqr s n).mode = .quiet) (hp : seqPaused s = false) :
    routineStart s n u = onSq s n (begun u s.time) := by
  rw [routineStart_cases hs, if_neg (by simp [h0, hh]), if_pos (by simp [hr, hhold, hm, hp])]

theorem routineStart_posted (h0 : (sqr s n).start = none) (hh : shareHeld s (sqr s n).serves u = false)
    (h : (sqr s n).routine ≠ none ∨ (sqr s n).hold = true ∨ (sqr s n).mode ≠ .quiet ∨ seqPaused s = true) :
    routineStart s n u = onSq s n fun q => { q with start := some u } := by
  rw [routineStart_cases hs, if_neg (by simp [h0, hh]), if_neg]
  rintro ⟨hr, hhold, hm, hp⟩
  exact h.elim (fun k => k (Option.isNone_iff_eq_none.mp hr)) fun h => h.elim hhold fun h => h.elim (fun k => k hm) hp

end

/-! ## The causes held (R321) -/

theorem trapTop_lt {p : BitVec 8} {i : Nat} (h : trapTop p = some i) : i < 8 :=
  List.mem_range.mp (List.mem_of_find?_eq_some h)

theorem trapTop_zero : trapTop 0 = none := by decide

/-- A cause that is taken is held no longer; the others still are. -/
theorem getLsbD_cause_taken (p : BitVec 8) {i k : Nat} (hk : k < 8) :
    (p &&& ~~~(1#8 <<< i)).getLsbD k = if k = i then false else p.getLsbD k := by
  have hone : (1#8 <<< i).getLsbD k = decide (k = i) := by
    rw [BitVec.getLsbD_shiftLeft, BitVec.getLsbD_one]
    by_cases hik : k < i
    · simp [hik, hik.ne]
    · by_cases he : k = i
      · subst he
        simp [hk]
      · have : k - i ≠ 0 := by omega
        simp [he, this]
  rw [BitVec.getLsbD_and, BitVec.getLsbD_not, hone]
  by_cases he : k = i <;> simp [he, hk]

/-! ## MICRO_TRAP (R321 to R323) -/

/-- A frame being read is discarded for every cause that resumes at the checkpoint or not at all. -/
def trapDiscards (s : State) (a : Nat) (c : TrapCause) : State := if c = .pause then s else discardRead s a

/-- A Recall and an Abandon end the routine. -/
def trapEnds (s : State) (n : Nat) (c : TrapCause) : State := if c = .recall ∨ c = .abandon then bgEnded s n else s

/-- A Recall leaves the routine with the hearth. -/
def trapKeeps (s : State) (a : Nat) (c : TrapCause) (r : Option RoutineStart) : State :=
  match c, r with
  | .recall, some t => { s with seq.kept := s.seq.kept ++ [(a, t)] }
  | _, _ => s

/-- The state in which a trap of a cause writes the save record and begins its handler. -/
def trapReady (s : State) (n : Nat) (c : TrapCause) : State :=
  trapKeeps (trapEnds (trapDiscards s (sqr s n).serves c) n c) (sqr s n).serves c (sqr s n).routine

/-- A sequencer that has taken the cause of a priority. -/
def trapped (i : Nat) (q : Sqr) : Sqr :=
  { q with
    save := trapSave q (trapCause i), mode := .trap, handler := some (trapCause i), trapPend := q.trapPend &&& ~~~(1#8 <<< i),
    lastCause := BitVec.ofNat 3 i, traps := satInc q.traps, readFalse := false,
    routine := if trapCause i = .recall ∨ trapCause i = .abandon then none else q.routine }

theorem trapDiscards_seq (s : State) (a : Nat) (c : TrapCause) : (trapDiscards s a c).seq = s.seq := by
  unfold trapDiscards
  split
  · rfl
  · exact discardRead_seq s a

theorem trapDiscards_idle (s : State) {a : Nat} (ha : a < 4) {c : TrapCause} (hc : c ≠ .pause) :
    (chanAt (trapDiscards s a c) a).read = none := by
  rw [trapDiscards, if_neg hc]
  exact discardRead_idle s ha

theorem trapEnds_frame (s : State) (n : Nat) (c : TrapCause) : ∃ b, trapEnds s n c = { s with seq.bgTime := b } := by
  unfold trapEnds
  split
  · exact ⟨_, bgEnded_eq s n⟩
  · exact ⟨s.seq.bgTime, rfl⟩

theorem trapKeeps_frame (s : State) (a : Nat) (c : TrapCause) (r : Option RoutineStart) :
    ∃ k, trapKeeps s a c r = { s with seq.kept := k } := by
  unfold trapKeeps
  split
  · exact ⟨_, rfl⟩
  · exact ⟨s.seq.kept, rfl⟩

section
variable (s : State) (n : Nat) (c : TrapCause)

theorem trapReady_sq : (trapReady s n c).seq.sq = s.seq.sq := by
  obtain ⟨b, hb⟩ := trapEnds_frame (trapDiscards s (sqr s n).serves c) n c
  obtain ⟨k, hk⟩ := trapKeeps_frame (trapEnds (trapDiscards s (sqr s n).serves c) n c) (sqr s n).serves c (sqr s n).routine
  have hsq : (trapDiscards s (sqr s n).serves c).seq.sq = s.seq.sq := congrArg SeqS.sq (trapDiscards_seq s _ c)
  unfold trapReady
  rw [hk, hb]
  exact hsq

theorem trapReady_kept {u : RoutineStart} (hu : (sqr s n).routine = some u) :
    (trapReady s n .recall).seq.kept = s.seq.kept ++ [((sqr s n).serves, u)] := by
  obtain ⟨b, hb⟩ := trapEnds_frame (trapDiscards s (sqr s n).serves .recall) n .recall
  have hkept : (trapDiscards s (sqr s n).serves .recall).seq.kept = s.seq.kept := congrArg SeqS.kept (trapDiscards_seq s _ _)
  unfold trapReady
  rw [hu, hb]
  exact congrArg (· ++ [((sqr s n).serves, u)]) hkept

theorem trapReady_idle (hs : (sqr s n).serves < 4) (hc : c ≠ .pause) : (chanAt (trapReady s n c) (sqr s n).serves).read = none := by
  obtain ⟨b, hb⟩ := trapEnds_frame (trapDiscards s (sqr s n).serves c) n c
  obtain ⟨k, hk⟩ := trapKeeps_frame (trapEnds (trapDiscards s (sqr s n).serves c) n c) (sqr s n).serves c (sqr s n).routine
  unfold trapReady
  rw [hk, hb]
  exact trapDiscards_idle s hs hc

end

/-- A cause sent to an actuator's sequencer reaches none that runs no routine. -/
theorem sqr_trapAct_no_routine (s : State) (a : Nat) (c : TrapCause) {n : Nat} (h : (sqr s n).routine = none) :
    sqr (trapAct s a c) n = sqr s n := by
  unfold trapAct
  split
  · next i _ =>
    split
    · next hr =>
      refine sqr_onSq_other s (fun e => ?_) _
      subst e
      exact Bool.false_ne_true ((congrArg Option.isSome h).symm.trans hr)
    · rfl
  · rfl

theorem sqr_frameAbort_no_routine (s : State) (a : Nat) {n : Nat} (h : (sqr s n).routine = none) :
    sqr (frameAbort s a) n = sqr s n := by
  unfold frameAbort
  split
  · rfl
  · exact sqr_trapAct_no_routine (mediaPut _ _) _ _ h

/-- The state in which a trap's handler has begun, before a Recall abandons the frame being written. -/
def trapTaken (s : State) (n i : Nat) : State := onSq (trapReady s n (trapCause i)) n (trapped i)

section
variable {s : State} {n : Fin 5} {i : Nat}

theorem microTrap_takes (h : (sqr s n).handler = none) (hi : trapTop (sqr s n).trapPend = some i) :
    microTrap s n = if trapCause i = .recall then frameAbort (trapTaken s n i) (sqr s n).serves else trapTaken s n i := by
  unfold microTrap
  dsimp only
  rw [h, hi]
  rfl

theorem microTrap_none (h : (sqr s n).handler ≠ none ∨ (sqr s n).trapPend = 0) : microTrap s n = s := by
  unfold microTrap
  dsimp only
  split
  · next hh hi =>
    obtain h | h := h
    · exact absurd hh h
    · rw [h, trapTop_zero] at hi
      exact absurd hi nofun
  · rfl

variable (s n i)

theorem sqr_trapTaken_same : sqr (trapTaken s n i) n = trapped i (sqr s n) := by
  unfold trapTaken
  rw [sqr_onSq_same _ n.isLt, sqr_congr (trapReady_sq s n _)]

theorem sqr_trapTaken_other {m : Nat} (hm : m ≠ n) : sqr (trapTaken s n i) m = sqr s m := by
  unfold trapTaken
  rw [sqr_onSq_other _ hm, sqr_congr (trapReady_sq s n _)]

theorem trapped_routine_recall (q : Sqr) (hc : trapCause i = .recall) : (trapped i q).routine = none := if_pos (.inl hc)

variable {s n i}

/-- The sequencer that takes a trap is as the trap leaves it: the Write abort of a Recall's frame does not reach it. -/
theorem sqr_microTrap_same (h : (sqr s n).handler = none) (hi : trapTop (sqr s n).trapPend = some i) :
    sqr (microTrap s n) n = trapped i (sqr s n) := by
  have ht := sqr_trapTaken_same s n i
  rw [microTrap_takes h hi]
  split
  · next hc =>
    rw [sqr_frameAbort_no_routine _ _ (by rw [ht]; exact trapped_routine_recall i _ hc), ht]
  · exact ht

/-- Of the other sequencers at most a cause held differs, and that only for a Recall. -/
theorem sqr_microTrap_other (h : (sqr s n).handler = none) (hi : trapTop (sqr s n).trapPend = some i) {m : Nat} (hm : m ≠ n) :
    sqr (microTrap s n) m = { sqr s m with trapPend := (sqr (microTrap s n) m).trapPend } ∧
      (trapCause i ≠ .recall → sqr (microTrap s n) m = sqr s m) := by
  have ht := sqr_trapTaken_other s n i hm
  rw [microTrap_takes h hi]
  split
  · next hc =>
    refine ⟨?_, fun hn => absurd hc hn⟩
    rw [← ht]
    exact frameAbort_onlyTrapPend _ _ m
  · rw [ht]
    exact ⟨rfl, fun _ => rfl⟩

/-- What a trap leaves of the hearth's queue and of the actuator's paths. -/
theorem microTrap_leaves (h : (sqr s n).handler = none) (hi : trapTop (sqr s n).trapPend = some i) :
    (trapCause i = .recall → ∀ u, (sqr s n).routine = some u →
      (microTrap s n).seq.kept = s.seq.kept ++ [((sqr s n).serves, u)]) ∧
    (trapCause i ≠ .pause → (sqr s n).serves < 4 → (chanAt (microTrap s n) (sqr s n).serves).read = none) ∧
    (trapCause i = .recall → (sqr s n).serves < 4 → (wrAt (microTrap s n) (sqr s n).serves).frame = none) := by
  rw [microTrap_takes h hi]
  refine ⟨fun hc u hu => ?_, fun hp hs => ?_, fun hc hs => ?_⟩
  · obtain ⟨w, f, q, hframe⟩ := frameAbort_frame (trapTaken s n i) (sqr s n).serves
    rw [if_pos hc, hframe]
    refine Eq.trans ?_ (trapReady_kept s n hu)
    rw [← hc]
    rfl
  · have hidle : (chanAt (trapTaken s n i) (sqr s n).serves).read = none := trapReady_idle s n _ hs hp
    obtain ⟨w, f, q, hframe⟩ := frameAbort_frame (trapTaken s n i) (sqr s n).serves
    split
    · rw [hframe]
      exact hidle
    · exact hidle
  · rw [if_pos hc]
    exact (frameAbort_idle _ hs).1

end

/-- The save record that a trap leaves (R321, R322). -/
theorem trapSave_cases (q : Sqr) (c : TrapCause) :
    (q.mode ≠ .trap → trapSave q c = some (saveRecord q)) ∧
      (q.mode = .trap → c = .pause → q.lastCause = 7 → trapSave q c = q.save) ∧
      (q.mode = .trap → c ≠ .pause ∨ q.lastCause ≠ 7 → trapSave q c = q.save.map fun m => { m with pc := m.resume }) := by
  unfold trapSave
  refine ⟨fun hm => if_pos hm, fun hm hc hl => ?_, fun hm h => ?_⟩
  · rw [if_neg (not_not.mpr hm), if_pos ⟨hc, hl⟩]
  · rw [if_neg (not_not.mpr hm), if_neg (not_and_or.mpr h)]

/-! ## TRAP_RESUME (R321, R322) -/

/-- A sequencer that resumes from a save record after a cause. -/
def resumed (c : TrapCause) (m : MicroState) (q : Sqr) : Sqr :=
  { q with
    handler := none, mode := .running, pc := if c = .pause then m.pc else m.resume, resume := m.resume, stack := m.stack,
    loops := m.loops, regs := m.regs, flags := m.flags, wdog := 0 }

theorem quietPoint_onlySeq (s : State) (n : Nat) : OnlySeq s (quietPoint s n) :=
  .trans (t := onSq s n fun q => { q with routine := none, mode := .quiet, handler := none }) rfl
    (holdOrStart_onlyStarts _ n).onlySeq

section
variable {s : State} {n : Fin 5} {c : TrapCause} (h : (sqr s n).handler = some c)
include h

theorem trapResume_waits (hm : mayResume s (sqr s n).serves c = false) : trapResume s n = s := by
  unfold trapResume
  simp only [h]
  exact if_pos (by simp [hm])

theorem trapResume_next (hm : mayResume s (sqr s n).serves c = true) (hp : (sqr s n).trapPend ≠ 0) :
    trapResume s n = onSq s n fun q => { q with handler := none } := by
  unfold trapResume
  simp only [h]
  rw [if_neg (not_not.mpr hm), if_pos hp]

theorem trapResume_goes (hm : mayResume s (sqr s n).serves c = true) (hp : (sqr s n).trapPend = 0) {u : RoutineStart}
    {m : MicroState} (hu : (sqr s n).routine = some u) (hsave : (sqr s n).save = some m) :
    trapResume s n = onSq s n (resumed c m) := by
  unfold trapResume
  simp only [h]
  rw [if_neg (not_not.mpr hm), if_neg (not_not.mpr hp), hu, hsave]
  rfl

theorem trapResume_onlySeq : OnlySeq s (trapResume s n) := by
  unfold trapResume
  simp only [h]
  split
  · exact .refl s
  · split
    · rfl
    · split
      · rfl
      · exact quietPoint_onlySeq s n

end

/-! ## CONTROL_STORE_RELOAD, SEQ_WATCHDOG and SEQUENCER_KAT (R318, R332) -/

/-- A word of a store had a double-bit error within the last second. -/
def failedBefore (s : State) (n : Nat) (nano : Bool) (addr : Nat) : Bool :=
  (sqr s n).dbl.any fun d => d.1 = nano ∧ d.2.1 = addr ∧ s.time < d.2.2 + 1000000

/-- A store with a word reloaded from another. -/
def reloadWord (master : Store) (nano : Bool) (addr : Nat) (st : Store) : Store :=
  if nano then { st with nano := assocSet st.nano addr (lookupD master.nano addr 0) }
  else { st with micro := assocSet st.micro addr (lookupD master.micro addr 0) }

/-- A sequencer with a word reloaded, the error noted. -/
def reloaded (now : Nat) (master : Store) (nano : Bool) (addr : Nat) (q : Sqr) : Sqr :=
  { q with
    dbl := (nano, addr, now) :: q.dbl.filter fun d => now < d.2.2 + 1000000, store := reloadWord master nano addr q.store }

theorem reloadWord_nano (master : Store) (addr : Nat) (st : Store) :
    lookupD (reloadWord master true addr st).nano addr 0 = lookupD master.nano addr 0 ∧
      (reloadWord master true addr st).micro = st.micro := ⟨lookupD_assocSet_same _ _ _ _, rfl⟩

theorem reloadWord_micro (master : Store) (addr : Nat) (st : Store) :
    lookupD (reloadWord master false addr st).micro addr 0 = lookupD master.micro addr 0 ∧
      (reloadWord master false addr st).nano = st.nano := ⟨lookupD_assocSet_same _ _ _ _, rfl⟩

section
variable {s : State} {n : Fin 5}

theorem controlStoreReload_first {nano : Bool} {addr : Nat} (h : failedBefore s n nano addr = false) :
    controlStoreReload s n nano addr = onSq s n (reloaded s.time s.seq.master nano addr) := by
  unfold controlStoreReload
  exact if_neg (Bool.eq_false_iff.mp h)

theorem controlStoreReload_again {nano : Bool} {addr : Nat} (h : failedBefore s n nano addr = true) :
    controlStoreReload s n nano addr = seqFault s n := by
  unfold controlStoreReload
  exact if_pos h

theorem sequencerKat_passes {pass : Bool} (h : (sqr s n).routine ≠ none ∨ (sqr s n).mode ≠ .quiet ∨ pass = true) :
    sequencerKat s n pass = s :=
  if_pos (h.imp_left Option.isSome_iff_ne_none.mpr)

theorem sequencerKat_fails (hr : (sqr s n).routine = none) (hm : (sqr s n).mode = .quiet) : sequencerKat s n false = seqFault s n :=
  if_neg (by simp [hr, hm])

end

end Sys2Proof.Machine
end

section
/-! PROOF. The statement about routines, traps and faulty sequencers. -/
namespace Sys2Proof.Machine
open Sys2Proof

/-- Settles O56: each command's equations give its clause; what a trap or a fault does beside its own sequencer reaches others only
through the causes they hold. -/
theorem routinesTrapsAndSequencerFaults : Obligations.RoutinesTrapsAndSequencerFaults := by
  unfold Obligations.RoutinesTrapsAndSequencerFaults
  refine ⟨?_, ?_, ?_, ?_, ?_, ?_, ?_⟩
  · -- ROUTINE_START (R315)
    intro s n u hs q
    obtain ⟨honly, hothers⟩ := routineStart_frame (u := u) hs
    refine ⟨_, rfl, honly, hothers, fun h => ?_, fun h0 hh hr hhold hm hp => ?_, fun h0 hh h => ?_⟩
    · rw [routineStart_kept hs h]
      exact ⟨rfl, rfl⟩
    · rw [routineStart_begins hs h0 hh hr hhold hm hp, sqr_onSq_same s n.isLt]
      exact ⟨rfl, rfl, rfl, rfl, rfl⟩
    · rw [routineStart_posted hs h0 hh h, sqr_onSq_same s n.isLt]
      exact ⟨rfl, rfl⟩
  · -- MICRO_TRAP with a cause held (R321 to R323)
    intro s n i h hi q c
    have hi8 := trapTop_lt hi
    obtain ⟨hkept, hread, hframe⟩ := microTrap_leaves h hi
    obtain ⟨hfirst, hpause, hlater⟩ := trapSave_cases q c
    refine ⟨_, rfl, ?_⟩
    rw [sqr_microTrap_same h hi]
    exact ⟨rfl, rfl, (getLsbD_cause_taken q.trapPend hi8).trans (if_pos rfl),
      fun k hk hne => (getLsbD_cause_taken q.trapPend hk).trans (if_neg hne), hfirst, hpause, hlater, rfl, rfl, hkept, hread, hframe,
      fun m hm => sqr_microTrap_other h hi fun e => hm (Fin.ext e)⟩
  · -- MICRO_TRAP with none, or while a handler runs
    intro s n h
    exact congrArg Host.Outcome.next (microTrap_none h)
  · -- TRAP_RESUME (R321, R322)
    intro s n c h q
    refine ⟨fun hm => congrArg Host.Outcome.next (trapResume_waits h hm),
      fun hm => ⟨_, rfl, trapResume_onlySeq h, fun hp => ?_, fun u m hp hu hsave => ?_⟩⟩
    · rw [trapResume_next h hm hp]
      exact sqr_onSq_same s n.isLt _
    · rw [trapResume_goes h hm hp hu hsave, sqr_onSq_same s n.isLt]
      exact ⟨rfl, rfl, rfl, rfl, rfl, rfl, rfl⟩
  · -- CONTROL_STORE_RELOAD (R318)
    intro s n nano addr q again
    refine ⟨_, rfl, fun h => ?_, fun h hs => ?_⟩
    · rw [controlStoreReload_first h, sqr_onSq_same s n.isLt]
      refine ⟨rfl, fun hn => ?_, fun hn => ?_⟩ <;> subst hn
      · exact reloadWord_nano _ addr q.store
      · exact reloadWord_micro _ addr q.store
    · rw [controlStoreReload_again h]
      exact seqFault_retires n.isLt (.inl hs)
  · -- SEQ_WATCHDOG (R332, R333)
    intro s n q late
    refine ⟨fun h => congrArg Host.Outcome.next (if_neg h), fun h hs => ⟨_, congrArg Host.Outcome.next (if_pos h), ?_⟩⟩
    exact ⟨seqFault_retires n.isLt (.inl hs), fun hl h4 => seqFault_substitutes hs hl h4, fun hl => seqFault_actuatorOut hs hl⟩
  · -- SEQUENCER_KAT (R332)
    intro s n pass q
    refine ⟨fun h => congrArg Host.Outcome.next (sequencerKat_passes h), fun hr hm hp hs => ?_⟩
    subst hp
    exact ⟨_, congrArg Host.Outcome.next (sequencerKat_fails hr hm), seqFault_retires n.isLt hs⟩

end Sys2Proof.Machine
end

section
/-! PROOF. Every sequencer at its quiet point: the folds of a switch, a patch and its undoing. -/
namespace Sys2Proof.Machine
open Sys2Proof

/-! ## One sequencer's turn in a fold -/

/-- A fold over distinct numbers, seen from one of them: what the others' turns keep holds before its own turn and after it. -/
theorem foldl_turn {R : State → State → Prop} (h0 : ∀ s, R s s) (ht : ∀ s t u, R s t → R t u → R s u)
    {f : State → Nat → State} {n : Nat} {l : List Nat} (hf : ∀ s, ∀ m ∈ l, m ≠ n → R s (f s m)) (hl : l.Nodup) (hn : n ∈ l)
    (s : State) : ∃ u, R s u ∧ R (f u n) (l.foldl f s) := by
  have aside (k : List Nat) (hkl : k ⊆ l) (hk : n ∉ k) (s : State) : R s (k.foldl f s) :=
    List.foldlRecOn (motive := R s) k f (h0 s) fun t hs m hm => ht _ _ _ hs (hf t m (hkl hm) fun e => hk (e ▸ hm))
  obtain ⟨l1, l2, rfl⟩ := List.append_of_mem hn
  obtain ⟨hn2, hn1⟩ : n ∉ l2 ∧ n ∉ l1 := by
    simp only [List.nodup_append, List.nodup_cons] at hl
    exact ⟨hl.2.1.1, fun h => hl.2.2 n h n (List.mem_cons_self ..) rfl⟩
  refine ⟨l1.foldl f s, aside l1 (List.subset_append_left _ _) hn1 s, ?_⟩
  rw [List.foldl_append, List.foldl_cons]
  exact aside l2 (fun m hm => List.mem_append_right _ (List.mem_cons_of_mem _ hm)) hn2 _

/-- No other sequencer serves what a sequencer serves. -/
def ServesAlone (s : State) (n : Nat) : Prop := ∀ m, m < 5 → m ≠ n → (sqr s m).serves ≠ (sqr s n).serves

/-- Another sequencer's turn: this one stands as it did, and so do the starts kept for an actuator that it serves alone. -/
structure Aside (n : Nat) (s t : State) : Prop where
  starts : OnlyStarts s t
  same : sqr t n = sqr s n
  kept : ServesAlone s n → keptFor t (sqr s n).serves = keptFor s (sqr s n).serves

theorem OnlyStarts.servesAlone {s t : State} (h : OnlyStarts s t) {n : Nat} (ha : ServesAlone s n) : ServesAlone t n := by
  intro m hm hne
  rw [h.serves, h.serves]
  exact ha m hm hne

namespace Aside

variable {n : Nat}

theorem refl (s : State) : Aside n s s := ⟨.refl s, rfl, fun _ => rfl⟩

theorem trans {s t u : State} (h : Aside n s t) (k : Aside n t u) : Aside n s u := by
  refine ⟨h.starts.trans k.starts, k.same.trans h.same, fun ha => ?_⟩
  have hk := k.kept (h.starts.servesAlone ha)
  rw [h.same] at hk
  exact hk.trans (h.kept ha)

theorem startsOf {s t : State} (h : Aside n s t) (ha : ServesAlone s n) : startsOf t n = startsOf s n :=
  startsOf_congr (congrArg Sqr.start h.same) (congrArg Sqr.serves h.same) (h.kept ha)

end Aside

/-! ## Each holds or starts (R326) -/

/-- A sequencer's turn: at a quiet point it holds or starts. -/
def quietStep (s : State) (n : Nat) : State := if (sqr s n).mode = .quiet ∧ (sqr s n).routine.isNone then holdOrStart s n else s

theorem quietStep_onlyStarts (s : State) (n : Nat) : OnlyStarts s (quietStep s n) := by
  unfold quietStep
  split
  · exact holdOrStart_onlyStarts s n
  · exact .refl s

theorem quietAll_onlyStarts (s : State) : OnlyStarts s (quietAll s) := .foldl quietStep_onlyStarts _ s

theorem quietStep_aside (s : State) {n m : Nat} (h5 : m < 5) (hm : m ≠ n) : Aside n s (quietStep s m) := by
  unfold quietStep
  split
  · exact ⟨holdOrStart_onlyStarts s m, sqr_holdOrStart_other s m hm.symm,
      fun ha => keptFor_holdOrStart_other s m (ha m h5 hm).symm⟩
  · exact .refl s

theorem quietAll_turn (s : State) {n : Nat} (hn : n < 5) : ∃ u, Aside n s u ∧ Aside n (quietStep u n) (quietAll s) :=
  foldl_turn Aside.refl (fun _ _ _ => Aside.trans) (fun s _ h5 hm => quietStep_aside s (List.mem_range.mp h5) hm)
    List.nodup_range (List.mem_range.mpr hn) s

theorem OnlyStarts.mustHold {s t : State} (h : OnlyStarts s t) (n : Nat) : mustHold t n = mustHold s n := by
  unfold Machine.mustHold
  rw [h.switchReq, h.serves, h.patchTurn]

section
variable {s : State} {n : Nat} (hn : n < 5)
include hn

/-- A sequencer that runs a routine or a handler is left as it is. -/
theorem sqr_quietAll_busy (h : (sqr s n).mode ≠ .quiet ∨ (sqr s n).routine ≠ none) : sqr (quietAll s) n = sqr s n := by
  obtain ⟨u, hu, ht⟩ := quietAll_turn s hn
  have hstep : quietStep u n = u := by
    refine if_neg fun ⟨hm, hr⟩ => ?_
    rw [hu.same] at hm hr
    exact h.elim (fun k => k hm) fun k => k (Option.isNone_iff_eq_none.mp hr)
  rw [hstep] at ht
  exact ht.same.trans hu.same

section
variable (hm : (sqr s n).mode = .quiet) (hr : (sqr s n).routine = none)
include hm hr

/-- A quiet sequencer holds or starts in its turn. -/
theorem quietAll_quiet : ∃ u, Aside n s u ∧ Aside n (holdOrStart u n) (quietAll s) := by
  obtain ⟨u, hu, ht⟩ := quietAll_turn s hn
  rw [quietStep, hu.same, if_pos ⟨hm, by rw [hr]; rfl⟩] at ht
  exact ⟨u, hu, ht⟩

theorem quietAll_hold : (sqr (quietAll s) n).hold = mustHold s n := by
  obtain ⟨u, hu, ht⟩ := quietAll_quiet hn hm hr
  rw [ht.same, holdOrStart_hold hn, hu.starts.mustHold]

/-- One that must hold, may not start or has no start waiting only takes its hold. -/
theorem sqr_quietAll_stays (ha : ServesAlone s n) (h : mustHold s n = true ∨ seqPaused s = true ∨ startsOf s n = []) :
    sqr (quietAll s) n = { sqr s n with hold := mustHold s n } := by
  obtain ⟨u, hu, ht⟩ := quietAll_quiet hn hm hr
  have hstays : holdOrStart u n = holdSet u n := by
    refine holdOrStart_stays hn (h.imp (hu.starts.mustHold n).trans (Or.imp hu.starts.onlySeq.seqPaused.trans fun hs => ?_))
    rw [hu.startsOf ha, hs]
    rfl
  rw [ht.same, hstays, sqr_holdSet hn, hu.same, hu.starts.mustHold]

/-- Else the first start that waits begins, where no share holds it back. -/
theorem quietAll_starts (ha : ServesAlone s n) (hh : mustHold s n = false) (hp : seqPaused s = false) {x : RoutineStart}
    {rest : List RoutineStart} (hx : startsOf s n = x :: rest) (hfree : x.activity = 0 ∨ s.spn.draftQ = 0) :
    (∃ now, sqr (quietAll s) n = begunNext x rest now { sqr s n with hold := false }) ∧ startsOf (quietAll s) n = rest := by
  obtain ⟨u, hu, ht⟩ := quietAll_quiet hn hm hr
  have hux : startsOf u n = x :: rest := (hu.startsOf ha).trans hx
  have hfind : ((startsOf u n).find? fun x => ¬ shareHeld u (sqr u n).serves x) = some x := by
    rw [hux, List.find?_cons_of_pos]
    simp [shareHeld_free (s := u) (hfree.imp_right hu.starts.draftQ.trans)]
  obtain ⟨hsq, hleft⟩ := holdOrStart_starts hn ((hu.starts.mustHold n).trans hh) (hu.starts.onlySeq.seqPaused.trans hp) hfind
  rw [hux, List.erase_cons_head] at hsq hleft
  refine ⟨⟨u.time, ?_⟩, ?_⟩
  · rw [ht.same, hsq, hu.same]
  · rw [ht.startsOf ((hu.starts.trans (holdOrStart_onlyStarts u n)).servesAlone ha), hleft]

end

end

/-! ## The table switch (R326, R327) -/

/-- An in-service sequencer that runs no routine holds from a switch's request on. -/
def heldIdle (q : Sqr) : Sqr := if q.serves < 4 ∧ q.routine.isNone ∧ q.mode = .quiet then { q with hold := true } else q

theorem heldIdle_eq (q : Sqr) :
    heldIdle q = { q with hold := q.hold || decide (q.serves < 4 ∧ q.routine.isNone ∧ q.mode = .quiet) } := by
  unfold heldIdle
  split
  · next h => rw [decide_eq_true h, Bool.or_true]
  · next h => rw [decide_eq_false h, Bool.or_false]

theorem sqr_seqHolds (s : State) (n : Nat) : sqr (seqHolds s) n = heldIdle (sqr s n) := sqr_of_map (F := heldIdle) rfl rfl n

/-- The pointers changed and the request cleared. -/
def switched (s : State) : State :=
  { s with seq.switchReq := false, seq.ringMapCopy := !s.seq.ringMapCopy, seq.switches := s.seq.switches + 1 }

/-- A switch is asked for and every sequencer in service holds. -/
def SwitchReady (s : State) : Prop := s.seq.switchReq = true ∧ ∀ n : Fin 5, 4 ≤ (sqr s n).serves ∨ (sqr s n).hold = true

section
variable {s : State}

theorem switchReady_iff : SwitchReady s ↔ s.seq.switchReq = true ∧ s.seq.sq.toList.all (fun q => 4 ≤ q.serves ∨ q.hold) = true := by
  rw [all_sq]
  simp only [decide_eq_true_eq]
  rfl

theorem tableSwitch_ready (h : SwitchReady s) : tableSwitch s = quietAll (switched s) := if_pos (switchReady_iff.mp h)

theorem tableSwitch_waits (h : ¬ SwitchReady s) : tableSwitch s = s := if_neg (mt switchReady_iff.mpr h)

theorem mustHold_switched (n : Nat) : mustHold (switched s) n = patchTurn s n := rfl

end

/-! ## A patch accepted (R328 to R331) -/

/-- A sequencer's turn to hold for a patch or its undoing. -/
def patchStep (s : State) (n : Nat) : State :=
  if patchTurn s n ∧ (sqr s n).mode = .quiet ∧ (sqr s n).routine.isNone then onSq s n fun q => { q with hold := true } else s

theorem patchStep_onlyStarts (s : State) (n : Nat) : OnlyStarts s (patchStep s n) := by
  unfold patchStep
  split
  · exact .onSq (by exact fun _ => rfl) s n
  · exact .refl s

theorem patchHolds_onlyStarts (s : State) : OnlyStarts s (patchHolds s) := .foldl patchStep_onlyStarts _ s

theorem patchStep_aside (s : State) {n m : Nat} (hm : m ≠ n) : Aside n s (patchStep s m) := by
  unfold patchStep
  split
  · exact ⟨.onSq (by exact fun _ => rfl) s m, sqr_onSq_other s hm.symm _, fun _ => rfl⟩
  · exact .refl s

theorem patchHolds_turn (s : State) {n : Nat} (hn : n < 5) : ∃ u, Aside n s u ∧ Aside n (patchStep u n) (patchHolds s) :=
  foldl_turn Aside.refl (fun _ _ _ => Aside.trans) (fun s _ _ hm => patchStep_aside s hm) List.nodup_range
    (List.mem_range.mpr hn) s

/-- The sequencer whose turn it is holds from now on where it is quiet. -/
theorem patchHolds_holds {s : State} {n : Nat} (hn : n < 5) (ht : patchTurn s n = true) (hm : (sqr s n).mode = .quiet)
    (hr : (sqr s n).routine = none) : (sqr (patchHolds s) n).hold = true := by
  obtain ⟨u, hu, hend⟩ := patchHolds_turn s hn
  have hturn : patchTurn u n = true := (hu.starts.patchTurn n).trans ht
  rw [hend.same, patchStep, hu.same, if_pos ⟨hturn, hm, by rw [hr]; rfl⟩, sqr_onSq_same u hn]

/-- The state with a patch taken into the master copy. -/
def patchTaken (s : State) (image : List Byte) (p : Patch) : State :=
  let s := measExtend s 2 (shake256 image 64)
  { s with
    seq.patchReason := 0, seq.prevMaster := some s.seq.master, seq.prevPatch := s.seq.masterPatch,
    seq.master := patchStore s.seq.master p, seq.masterPatch := p.level, seq.patching := some p,
    seq.undoing := false, seq.patchCut := false, seq.sq := s.seq.sq.map fun q => { q with partly := false } }

section
variable {s : State} {image : List Byte} {p : Patch}

theorem sqr_patchTaken (n : Nat) : sqr (patchTaken s image p) n = { sqr s n with partly := false } :=
  sqr_of_map (F := fun q => { q with partly := false }) rfl rfl n

/-- The first in the order takes a patch first. -/
theorem patchTurn_patchTaken {n : Nat} (h : (patchOrder s).head? = some n) : patchTurn (patchTaken s image p) n = true := by
  have horder : patchOrder (patchTaken s image p) = patchOrder s := patchOrder_congr fun m => by rw [sqr_patchTaken]
  have hfind : (patchOrder s).find? (fun i => !(sqr (patchTaken s image p) i).partly) = some n := by
    obtain ⟨rest, hrest⟩ := List.head?_eq_some_iff.mp h
    rw [hrest, List.find?_cons_of_pos]
    rw [sqr_patchTaken]
    rfl
  unfold patchTurn
  rw [horder, hfind]
  exact beq_self_eq_true _

theorem microcodePatch_unread (h : Config.parsePatch image = none) : microcodePatch s image = { s with seq.patchReason := 9 } := by
  unfold microcodePatch
  simp only [h]

section
variable (h : Config.parsePatch image = some p)
include h

theorem microcodePatch_unfit (hv : Config.imageVerifies image = false ∨ p.base ≠ s.seq.masterBase) :
    microcodePatch s image = { s with seq.patchReason := 9 } := by
  unfold microcodePatch
  simp only [h]
  exact if_pos (hv.imp_left Bool.eq_false_iff.mp)

variable (hv : Config.imageVerifies image = true) (hb : p.base = s.seq.masterBase)
include hv hb

theorem microcodePatch_fits : microcodePatch s image =
    if s.pwr.banking ∨ substituting s ∨ s.seq.patching.isSome then { s with seq.patchReason := 5 }
    else if patchBanking p then { s with seq.patchReason := 0x0A } else patchHolds (patchTaken s image p) := by
  unfold microcodePatch
  simp only [h]
  rw [if_neg (by simp [hv, hb])]
  rfl

theorem microcodePatch_busy (hx : s.pwr.banking = true ∨ substituting s = true ∨ s.seq.patching.isSome = true) :
    microcodePatch s image = { s with seq.patchReason := 5 } := by
  rw [microcodePatch_fits h hv hb, if_pos hx]

variable (h1 : s.pwr.banking = false) (h2 : substituting s = false) (h3 : s.seq.patching = none)
include h1 h2 h3

theorem microcodePatch_banking (h4 : patchBanking p = true) : microcodePatch s image = { s with seq.patchReason := 0x0A } := by
  rw [microcodePatch_fits h hv hb, if_neg (by simp [h1, h2, h3]), if_pos h4]

theorem microcodePatch_accepts (h4 : patchBanking p = false) : microcodePatch s image = patchHolds (patchTaken s image p) := by
  rw [microcodePatch_fits h hv hb, if_neg (by simp [h1, h2, h3]), if_neg (by simp [h4])]

end

end

/-! ## A patch applied, and undone (R329) -/

/-- A sequencer with the words of a patch written. -/
def patchedSq (p : Patch) (q : Sqr) : Sqr :=
  { q with store := patchStore q.store p, crc := storeCrc (patchStore q.store p), patch := p.level, partly := true }

/-- A sequencer with its store restored from the previous level. -/
def restoredSq (old : Store) (level : BitVec 8) (q : Sqr) : Sqr :=
  { q with store := old, crc := storeCrc old, patch := level, partly := false }

/-- At most the sequencers' part differs, and no store, its CRC or its level. -/
structure KeepsStores (s t : State) : Prop where
  only : OnlySeq s t
  stores : ∀ m, (sqr t m).store = (sqr s m).store ∧ (sqr t m).crc = (sqr s m).crc ∧ (sqr t m).patch = (sqr s m).patch

namespace KeepsStores

theorem trans {s t u : State} (h : KeepsStores s t) (k : KeepsStores t u) : KeepsStores s u := by
  refine ⟨h.only.trans k.only, fun m => ?_⟩
  obtain ⟨h1, h2, h3⟩ := h.stores m
  obtain ⟨k1, k2, k3⟩ := k.stores m
  exact ⟨k1.trans h1, k2.trans h2, k3.trans h3⟩

theorem of_sq {s t : State} (h : OnlySeq s t) (hq : t.seq.sq = s.seq.sq) : KeepsStores s t := by
  refine ⟨h, fun m => ?_⟩
  rw [sqr_congr hq]
  exact ⟨rfl, rfl, rfl⟩

theorem of_starts {s t : State} (h : OnlyStarts s t) : KeepsStores s t := by
  refine ⟨h.onlySeq, fun m => ?_⟩
  rw [h.sqrs m]
  exact ⟨rfl, rfl, rfl⟩

end KeepsStores

/-- A patch that goes forward and is over, or not yet, keeps the master copy. -/
theorem patchEnd_forward {s : State} (h : s.seq.undoing = false) :
    KeepsStores s (patchEnd s) ∧ (patchEnd s).seq.master = s.seq.master ∧ (patchEnd s).seq.undoing = false := by
  have hsame : KeepsStores s s := .of_sq rfl rfl
  unfold patchEnd
  rw [if_neg (Bool.eq_false_iff.mp h)]
  split
  · refine ⟨⟨rfl, fun m => ?_⟩, rfl, h⟩
    rw [sqr_of_map (s := s) (F := fun q => { q with partly := false }) rfl rfl m]
    exact ⟨rfl, rfl, rfl⟩
  · exact ⟨hsame, rfl, h⟩

/-- An undoing that is over, or not yet, changes no sequencer. -/
theorem patchEnd_undoing {s : State} (h : s.seq.undoing = true) :
    OnlySeq s (patchEnd s) ∧ (patchEnd s).seq.sq = s.seq.sq := by
  unfold patchEnd
  rw [if_pos h]
  split <;> exact ⟨rfl, rfl⟩

/-- An undoing is not over while a sequencer is still to be restored. -/
theorem patchEnd_waits {s : State} (h : s.seq.undoing = true) {n : Fin 5} (hq : (sqr s n).partly = true) : patchEnd s = s := by
  unfold patchEnd
  rw [if_pos h, if_neg]
  intro hall
  have hn := all_sq.mp hall n
  rw [hq] at hn
  exact Bool.false_ne_true hn

/-- The state with a patch given up and the master copy back at the previous level. -/
def undone (s : State) (old : Store) : State :=
  { s with seq.master := old, seq.masterPatch := s.seq.prevPatch, seq.undoing := true, seq.patchCut := false }

/-- A patch given up after a sequencer has taken it is undone on the sequencers that have. -/
theorem patchAbandon_undoes {s : State} {old : Store} (ho : s.seq.prevMaster = some old) {n : Fin 5}
    (hq : (sqr s n).partly = true) : patchAbandon s = patchHolds (undone s old) := by
  have hwaits : patchEnd (undone s old) = undone s old := patchEnd_waits rfl (n := n) hq
  unfold patchAbandon
  rw [ho]
  exact congrArg patchHolds hwaits

section
variable {s : State} {n : Fin 5} {p : Patch} {old : Store} (hp : s.seq.patching = some p) (ho : s.seq.prevMaster = some old)
include hp ho

theorem patchApply_waits (h : (sqr s n).routine ≠ none ∨ (sqr s n).mode ≠ .quiet ∨ s.pwr.banking = true ∨ s.seq.patchCut = true ∨
    patchTurn s n = false) : patchApply s n = s := by
  unfold patchApply
  simp only [hp, ho]
  exact if_pos (h.imp Option.isSome_iff_ne_none.mpr (Or.imp id (Or.imp id (Or.imp id Bool.eq_false_iff.mp))))

variable (hr : (sqr s n).routine = none) (hm : (sqr s n).mode = .quiet) (hb : s.pwr.banking = false) (hc : s.seq.patchCut = false)
include hr hm hb hc

theorem patchApply_writes (hu : s.seq.undoing = false) (ht : patchTurn s n = true) : patchApply s n =
    quietAll (if storeCrc (patchStore (sqr s n).store p) = p.crc then patchEnd (onSq s n (patchedSq p))
      else patchAbandon (onSq s n (patchedSq p))) := by
  have hset : (onSq s n fun q => { q with
      store := patchStore (sqr s n).store p, crc := storeCrc (patchStore (sqr s n).store p), patch := p.level, partly := true }) =
      onSq s n (patchedSq p) := onSq_congr rfl
  unfold patchApply
  simp only [hp, ho]
  rw [if_neg (by simp [hr, hm, hb, hc, ht]), if_neg (by simp [hu]), hset]

theorem patchApply_restores (hu : s.seq.undoing = true) (ht : patchTurn s n = true) : patchApply s n =
    quietAll (patchEnd (onSq s n (restoredSq old s.seq.prevPatch))) := by
  unfold patchApply
  simp only [hp, ho]
  rw [if_neg (by simp [hr, hm, hb, hc, ht]), if_pos hu]
  rfl

end

end Sys2Proof.Machine
end

section
/-! PROOF. The statement about table switches and patches. -/
namespace Sys2Proof.Machine
open Sys2Proof

/-- A sequencer whose turn has come by the order of a patch that goes forward. -/
theorem patchTurn_forward {s : State} {n : Nat} {p : Patch} (hp : s.seq.patching = some p) (hu : s.seq.undoing = false)
    (h : ((patchOrder s).find? fun i => !(sqr s i).partly) = some n) : patchTurn s n = true := by
  simp [patchTurn, hp, hu, h]

/-- A sequencer that is to be restored has its turn while a patch is undone. -/
theorem patchTurn_undoing {s : State} {n : Nat} {p : Patch} (hp : s.seq.patching = some p) (hu : s.seq.undoing = true)
    (h : (sqr s n).partly = true) : patchTurn s n = true := by
  simp [patchTurn, hp, hu, h]

/-- A patch written on a sequencer: the words are in its store alone, and the master copy keeps the new level or returns to the
previous one as the store's CRC says (R329). -/
theorem patchWritten_leaves {s : State} (n : Fin 5) (p : Patch) {old : Store} (ho : s.seq.prevMaster = some old)
    (hu : s.seq.undoing = false) :
    let w := onSq s n (patchedSq p)
    let t := quietAll (if storeCrc (patchStore (sqr s n).store p) = p.crc then patchEnd w else patchAbandon w)
    KeepsStores w t ∧ (storeCrc (patchStore (sqr s n).store p) = p.crc → t.seq.master = s.seq.master ∧ t.seq.undoing = false) ∧
      (storeCrc (patchStore (sqr s n).store p) ≠ p.crc →
        t.seq.master = old ∧ t.seq.masterPatch = s.seq.prevPatch ∧ t.seq.undoing = true) := by
  intro w t
  by_cases hcrc : storeCrc (patchStore (sqr s n).store p) = p.crc
  · have ht : OnlyStarts (patchEnd w) t := by
      unfold t
      rw [if_pos hcrc]
      exact quietAll_onlyStarts _
    obtain ⟨hkeeps, hmaster, hundoing⟩ := patchEnd_forward (s := w) hu
    refine ⟨hkeeps.trans (.of_starts ht), fun _ => ⟨?_, ht.undoing.trans hundoing⟩, fun hne => absurd hcrc hne⟩
    exact ht.master.trans hmaster
  · have hq : (sqr w n).partly = true := congrArg Sqr.partly (sqr_onSq_same s n.isLt (patchedSq p))
    have ht : OnlyStarts (undone w old) t := by
      unfold t
      rw [if_neg hcrc, patchAbandon_undoes (s := w) ho hq]
      exact (patchHolds_onlyStarts _).trans (quietAll_onlyStarts _)
    have hkeeps : KeepsStores w (undone w old) := .of_sq rfl rfl
    exact ⟨hkeeps.trans (.of_starts ht), fun he => absurd he hcrc, fun _ => ⟨ht.master, ht.masterPatch, ht.undoing⟩⟩

/-- A sequencer restored from the previous level: its store alone is written, and it is no longer to be restored. -/
theorem patchRestored_leaves {s : State} (n : Fin 5) (old : Store) (hu : s.seq.undoing = true) :
    let w := onSq s n (restoredSq old s.seq.prevPatch)
    let t := quietAll (patchEnd w)
    KeepsStores w t ∧ (sqr t n).partly = (sqr w n).partly := by
  intro w t
  obtain ⟨honly, hsq⟩ := patchEnd_undoing (s := w) hu
  have ht : OnlyStarts (patchEnd w) t := quietAll_onlyStarts _
  exact ⟨.trans (.of_sq honly hsq) (.of_starts ht), (ht.partly n).trans (congrArg Sqr.partly (sqr_congr hsq n))⟩

/-- Settles O57: every sequencer's turn in the switch's and the patch's folds is its own alone (`foldl_turn`), and what the folds and
the end of a patch change leaves the stores. -/
theorem switchesAndPatches : Obligations.SwitchesAndPatches := by
  unfold Obligations.SwitchesAndPatches
  refine ⟨?_, ?_, ?_, ?_⟩
  · -- TABLE_SWITCH_REQUEST (R326, R327)
    intro s
    refine ⟨fun h => congrArg Host.Outcome.next (if_pos h),
      fun h => ⟨_, congrArg Host.Outcome.next (if_neg (Bool.eq_false_iff.mp h)), rfl, rfl, fun n => ?_⟩⟩
    exact (sqr_seqHolds { s with seq.switchReq := true } n).trans (heldIdle_eq _)
  · -- TABLE_SWITCH (R326)
    intro s ready
    refine ⟨fun h => congrArg Host.Outcome.next (tableSwitch_waits h),
      fun h => ⟨_, congrArg Host.Outcome.next (tableSwitch_ready h), ?_⟩⟩
    have ht := quietAll_onlyStarts (switched s)
    refine ⟨ht.switchReq, ht.ringMapCopy, ht.switches, OnlySeq.trans (t := switched s) rfl ht.onlySeq,
      fun n => ⟨fun hbusy => ?_, fun hm hr => ?_⟩⟩
    · exact sqr_quietAll_busy (s := switched s) n.isLt hbusy
    · refine ⟨(quietAll_hold (s := switched s) n.isLt hm hr).trans (mustHold_switched n), fun hal => ?_⟩
      have ha : ServesAlone (switched s) n := fun m hm5 hne => hal ⟨m, hm5⟩ fun e => hne (congrArg Fin.val e)
      refine ⟨fun hstay => sqr_quietAll_stays (s := switched s) n.isLt hm hr ha hstay, fun u rest hturn hp hx hfree => ?_⟩
      obtain ⟨⟨now, hsq⟩, hleft⟩ := quietAll_starts (s := switched s) n.isLt hm hr ha hturn hp hx hfree
      rw [hsq]
      exact ⟨rfl, rfl, rfl, hleft⟩
  · -- MICROCODE_PATCH (R328, R330, R331)
    intro s image
    refine ⟨_, rfl, ?_⟩
    split
    · next h => exact microcodePatch_unread h
    · next p h =>
      refine ⟨microcodePatch_unfit h, fun hv hb => ⟨microcodePatch_busy h hv hb, microcodePatch_banking h hv hb,
        fun h1 h2 h3 h4 => ?_⟩⟩
      have ht := patchHolds_onlyStarts (patchTaken s image p)
      rw [microcodePatch_accepts h hv hb h1 h2 h3 h4]
      refine ⟨ht.patchReason, ht.patching, ht.prevMaster, ht.masterPatch, ht.master, fun n => ?_, fun n hfirst hm hr => ?_, ?_⟩
      · rw [ht.store, sqr_patchTaken]
      · have hq : sqr (patchTaken s image p) n = { sqr s n with partly := false } := sqr_patchTaken n
        exact patchHolds_holds n.isLt (patchTurn_patchTaken hfirst) (by rw [hq]; exact hm) (by rw [hq]; exact hr)
      · rw [ht.rest]
        rfl
  · -- PATCH_APPLY_SEQUENCER (R329)
    intro s n p old hp ho q st
    refine ⟨fun h => congrArg Host.Outcome.next (patchApply_waits hp ho h), fun hr hm hb hc hu hfirst => ?_,
      fun hr hm hb hc hu hpartly => ?_⟩
    · obtain ⟨⟨honly, hstores⟩, hright, hwrong⟩ := patchWritten_leaves n p ho hu
      obtain ⟨hstore, hcrc, hlevel⟩ := hstores n
      rw [sqr_onSq_same s n.isLt] at hstore hcrc hlevel
      refine ⟨_, congrArg Host.Outcome.next (patchApply_writes hp ho hr hm hb hc hu (patchTurn_forward hp hu hfirst)), honly,
        hstore, hcrc, hlevel, fun m hne => ?_, hright, hwrong⟩
      rw [(hstores m).1, sqr_onSq_other s fun e => hne (Fin.ext e)]
    · obtain ⟨⟨honly, hstores⟩, hpart⟩ := patchRestored_leaves n old hu
      obtain ⟨hstore, -, hlevel⟩ := hstores n
      rw [sqr_onSq_same s n.isLt] at hstore hlevel hpart
      refine ⟨_, congrArg Host.Outcome.next (patchApply_restores hp ho hr hm hb hc hu (patchTurn_undoing hp hu hpartly)), honly,
        hstore, hlevel, hpart, fun m hne => ?_⟩
      rw [(hstores m).1, sqr_onSq_other s fun e => hne (Fin.ext e)]

end Sys2Proof.Machine
end

section
/-! PROOF. Queues and contexts by number: one added, one removed, and the context that a queue draws. -/
namespace Sys2Proof.Machine
open Sys2Proof

/-! ## Entries added and removed by number -/

/-- An entry looked up by number after one is added at the end. -/
theorem find_append_key {α : Type} (l : List (Nat × α)) (k d : Nat) (a : α) :
    ((l ++ [(k, a)]).find? fun x => x.1 = d).map (·.2) =
      ((l.find? fun x => x.1 = d).map (·.2)).or (if d = k then some a else none) := by
  rw [List.find?_append]
  cases h : l.find? fun x => decide (x.1 = d) with
  | some x => rfl
  | none =>
    by_cases hk : k = d
    · simp [hk]
    · simp [hk, Ne.symm hk]

/-- A context read after one is added under a free number. -/
theorem ctxBy_append {s : State} {c : Nat} (h : ctxBy s c = none) (x : Ctx) (d : Nat) :
    ctxBy { s with host.ctxs := s.host.ctxs ++ [(c, x)] } d = if d = c then some x else ctxBy s d := by
  refine (find_append_key s.host.ctxs c d x).trans ?_
  by_cases hd : d = c
  · rw [if_pos hd, if_pos hd, hd]
    exact congrArg (Option.or · (some x)) h
  · rw [if_neg hd, if_neg hd, Option.or_none]
    rfl

/-- A completion queue added under a free number. -/
theorem cqBy_append_same {s : State} {q : Nat} (h : cqBy s q = none) (x : CompQueue) :
    cqBy { s with host.cqs := s.host.cqs ++ [(q, x)] } q = some x := by
  refine (find_append_key s.host.cqs q q x).trans ?_
  rw [if_pos rfl]
  exact congrArg (Option.or · (some x)) h

/-- A submission queue added under a free number. -/
theorem sqBy_append_same {s : State} {q : Nat} (h : sqBy s q = none) (x : SubQueue) :
    sqBy { s with host.sqs := s.host.sqs ++ [(q, x)] } q = some x := by
  refine (find_append_key s.host.sqs q q x).trans ?_
  rw [if_pos rfl]
  exact congrArg (Option.or · (some x)) h

/-- A completion queue removed. -/
theorem cqBy_removed (s : State) (q : Nat) : cqBy { s with host.cqs := s.host.cqs.filter fun y => y.1 ≠ q } q = none :=
  Option.map_eq_none_iff.mpr <| List.find?_eq_none.mpr fun y hy => by
    simpa only [decide_eq_true_eq] using (List.mem_filter.mp hy).2

/-- A number under which a submission queue is found is one of the queues'. -/
theorem sqBy_isSome_mem {s : State} {q : Nat} (h : (sqBy s q).isSome = true) : q ∈ s.host.sqs.map (·.1) := by
  obtain ⟨y, hy⟩ := Option.isSome_iff_exists.mp h
  obtain ⟨p, hp, -⟩ := Option.map_eq_some_iff.mp hy
  have hq : p.1 = q := by simpa using List.find?_some hp
  exact hq ▸ List.mem_map_of_mem (List.mem_of_find?_eq_some hp)

/-! ## The context that a queue draws (R352) -/

/-- The context drawn is free. -/
theorem ctxDraw_free {s : State} {q c : Nat} {pooled : Bool} (h : ctxDraw s q = some (c, pooled)) : ctxBy s c = none := by
  have hdrawn : ∃ b, ((List.range 4096).find? fun i => !s.host.ctxs.any fun x => x.1 = i).map (·, b) = some (c, pooled) := by
    dsimp only [ctxDraw] at h
    by_cases hreserve : reserveUsed s q < if q = 0 then 32 else 8
    · rw [if_pos hreserve] at h
      exact ⟨false, h⟩
    · rw [if_neg hreserve] at h
      by_cases hpool : q ≠ 0 ∧ poolUsed s < poolSize s
      · rw [if_pos hpool] at h
        exact ⟨true, h⟩
      · rw [if_neg hpool] at h
        cases h
  obtain ⟨b, hb⟩ := hdrawn
  obtain ⟨i, hi, hic⟩ := Option.map_eq_some_iff.mp hb
  obtain rfl : i = c := congrArg Prod.fst hic
  have hunused := List.find?_some hi
  rw [Bool.not_eq_true'] at hunused
  exact Option.map_eq_none_iff.mpr (List.find?_eq_none.mpr (List.any_eq_false.mp hunused))

end Sys2Proof.Machine
end

section
/-! PROOF. The statement about acceptance. -/
namespace Sys2Proof.Machine
open Sys2Proof

/-! ## Arbitration passes over a queue (R348) -/

/-- A queue that waits is one that exists. -/
theorem eligible_exists {s : State} {q : Nat} (h : eligible s q = true) : (sqBy s q).isSome = true := by
  unfold eligible at h
  split at h
  · next x hx => rw [hx]; rfl
  · cases h

/-- With weighted round-robin every I/O queue is in a class after the admin queue's. -/
theorem arbClass_io {s : State} {q : Nat} (ha : s.host.ams = 1) (hq : q ≠ 0) : 0 < arbClass s q := by
  unfold arbClass
  rw [if_neg (not_not.mpr ha), if_neg hq]
  split
  · split <;> decide
  · decide

/-- Nothing is fetched from an I/O queue while the admin queue may be served. -/
theorem mayFetch_after_admin {s : State} {q : Nat} (ha : s.host.ams = 1) (hq : q ≠ 0) (h0 : eligible s 0 = true) :
    mayFetch s q = false := by
  have hadmin : arbClass s 0 = 0 := by simp [arbClass]
  have hmem : 0 ∈ (s.host.sqs.map (·.1)).filter fun i => i ≠ q ∧ eligible s i :=
    List.mem_filter.mpr ⟨sqBy_isSome_mem (eligible_exists h0), by simpa [h0] using Ne.symm hq⟩
  have hlater : ((s.host.sqs.map (·.1)).filter fun i => i ≠ q ∧ eligible s i).all
      (fun i => decide (arbClass s q ≤ arbClass s i)) = false :=
    List.all_eq_false.mpr ⟨0, hmem, by simpa [hadmin] using Nat.ne_of_gt (arbClass_io ha hq)⟩
  unfold mayFetch
  simp only [hlater, Bool.and_false, Bool.false_and]

/-- Nothing is fetched from a weighted class that has used up its weight in the round. -/
theorem mayFetch_weight_used {s : State} {q : Nat} (hc : arbClass s q = 2) (h : creditOf (creditsNow s) (prioOf s q) = 0) :
    mayFetch s q = false := by
  have hround : inRound s q = false := by simp [inRound, hc, h]
  unfold mayFetch
  simp only [hround, Bool.and_false, Bool.false_and]

/-! ## A command accepted (R352, R353, R377) -/

/-- The context of an entry that is fetched. -/
def fetchedCtx (s : State) (q : Nat) (e : SqEntry) (pooled : Bool) : Ctx :=
  { sq := q, pooled := pooled, accept := s.host.accept, entry := e, phase := .accepted, staged := false,
    inflight := s.host.ctxs.map (·.2.accept), ends := false, lines := [], clock := max s.obj.clock (hostTime q e), parts := [],
    recheck := false, stream := none, checked := false }

/-- The state once an entry has been fetched into a context, before the acceptance checks are answered. -/
def acceptFetch (s : State) (q : Nat) (e : SqEntry) (y : SubQueue) (c : Nat) (pooled : Bool) : State :=
  { onSubq s q (fun z => { z with head := (y.head + 1) % y.size }) with
    host.ctxs := s.host.ctxs ++ [(c, fetchedCtx s q e pooled)], host.accept := s.host.accept + 1,
    host.ceiling := if s.host.ceiling ≤ s.host.accept + 1 then s.host.ceiling + 2 ^ 20 else s.host.ceiling,
    host.peak := max s.host.peak (s.host.ctxs.length + 1), obj.clock := max s.obj.clock (hostTime q e),
    host.grant := if s.host.grant.1 = q then (q, s.host.grant.2 + 1) else (q, 1), host.credits := creditsAfter s q }

/-- What the acceptance checks make of a context: a refused command ends at once. -/
def acceptJudge (s : State) (c : Nat) : Option (Nat × Nat × Nat) → State
  | some (sct, sc, d) => finish s c sct sc d
  | none => s

section
variable {s : State} {q : Nat} {e : SqEntry}

/-- A grant that the rule forbids changes nothing (notes/assumptions/59.md). -/
theorem commandAccept_passes (h : mayFetch s q = false) (e : SqEntry) : commandAccept s q e = s := by
  unfold commandAccept
  split
  · exact if_pos (Or.inr (by simp [h]))
  · rfl

theorem commandAccept_grants {y : SubQueue} {c : Nat} {pooled : Bool} (hf : s.host.fetching = true) (hm : mayFetch s q = true)
    (hy : sqBy s q = some y) (hd : ctxDraw s q = some (c, pooled)) (e : SqEntry) :
    commandAccept s q e = acceptJudge (acceptFetch s q e y c pooled) c (acceptStatus s q e) := by
  unfold commandAccept
  rw [hy, hd]
  dsimp only
  rw [if_neg (by simp [hf, hm])]
  cases acceptStatus s q e <;> rfl

end

section
variable (s : State) (c : Nat) (v : Option (Nat × Nat × Nat))

@[simp] theorem acceptJudge_accept : (acceptJudge s c v).host.accept = s.host.accept := by cases v <;> rfl
@[simp] theorem acceptJudge_ceiling : (acceptJudge s c v).host.ceiling = s.host.ceiling := by cases v <;> rfl
@[simp] theorem acceptJudge_clock : (acceptJudge s c v).obj.clock = s.obj.clock := by cases v <;> rfl

theorem ctxBy_acceptJudge_other {d : Nat} (h : d ≠ c) : ctxBy (acceptJudge s c v) d = ctxBy s d := by
  cases v with
  | none => rfl
  | some st => exact (onlyCtx_finish s c st.1 st.2.1 st.2.2 []).2 d h

end

/-- The context of a fetched entry after the checks: it waits for its turn, or has ended with their status. -/
theorem acceptJudge_ctx {s : State} {c : Nat} {x : Ctx} (h : ctxBy s c = some x) (v : Option (Nat × Nat × Nat)) :
    ∃ z, ctxBy (acceptJudge s c v) c = some z ∧ z.accept = x.accept ∧ z.entry = x.entry ∧ z.sq = x.sq ∧
      (v = none → z.phase = x.phase) ∧ ∀ sct sc d, v = some (sct, sc, d) →
        ended (acceptJudge s c v) c = some (endOf z sct sc d []) := by
  match v with
  | none => exact ⟨x, h, rfl, rfl, rfl, fun _ => rfl, fun _ _ _ hv => nomatch hv⟩
  | some (sct, sc, d) =>
    refine ⟨{ x with phase := .done (endOf x sct sc d []) }, ?_, rfl, rfl, rfl, (nomatch ·), fun _ _ _ hv => ?_⟩
    · rw [acceptJudge, finish, ctxBy_onCtx, if_pos rfl, h]
      rfl
    · cases hv
      exact ended_finish h sct sc d []

/-- A fetched entry's context is the one drawn; every other is as it was. -/
theorem ctxBy_acceptFetch {s : State} {c : Nat} (h : ctxBy s c = none) (q : Nat) (e : SqEntry) (y : SubQueue) (pooled : Bool) (d : Nat) :
    ctxBy (acceptFetch s q e y c pooled) d = if d = c then some (fetchedCtx s q e pooled) else ctxBy s d :=
  ctxBy_append h _ d

/-- The next acceptance number stays below the ceiling, which rises before it is reached (R353). -/
theorem acceptFetch_below_ceiling {s : State} (h : s.host.accept ≤ s.host.ceiling) (q : Nat) (e : SqEntry) (y : SubQueue) (c : Nat)
    (pooled : Bool) : (acceptFetch s q e y c pooled).host.accept < (acceptFetch s q e y c pooled).host.ceiling := by
  change s.host.accept + 1 < if s.host.ceiling ≤ s.host.accept + 1 then s.host.ceiling + 2 ^ 20 else s.host.ceiling
  split <;> omega

/-- Settles O11: an entry granted is fetched into the free context drawn and then judged by the acceptance checks; the admin queue
and a used-up weight each make arbitration pass over the queue. -/
theorem acceptanceNumbersRise : Obligations.AcceptanceNumbersRise := by
  unfold Obligations.AcceptanceNumbersRise
  refine ⟨?_, ?_, ?_⟩
  · -- a grant (R352, R353, R377)
    intro s q e y c pooled hf hm hy hd hceil
    have hfree := ctxDraw_free hd
    have hother : ∀ d, d ≠ c → ctxBy (acceptFetch s q e y c pooled) d = ctxBy s d := fun d h =>
      (ctxBy_acceptFetch hfree q e y pooled d).trans (if_neg h)
    have hnew : ctxBy (acceptFetch s q e y c pooled) c = some (fetchedCtx s q e pooled) :=
      (ctxBy_acceptFetch hfree q e y pooled c).trans (if_pos rfl)
    refine ⟨hfree, _, congrArg Host.Outcome.next (commandAccept_grants hf hm hy hd e), ?_, ?_, ?_,
      fun d h => (ctxBy_acceptJudge_other _ c _ h).trans (hother d h), acceptJudge_ctx hnew _⟩
    · rw [acceptJudge_accept]
      rfl
    · rw [acceptJudge_accept, acceptJudge_ceiling]
      exact acceptFetch_below_ceiling hceil q e y c pooled
    · rw [acceptJudge_clock]
      rfl
  · -- the admin queue first (R348)
    intro s q e ha hq h0
    exact congrArg Host.Outcome.next (commandAccept_passes (mayFetch_after_admin ha hq h0) e)
  · -- the weights (R348, notes/assumptions/165.md)
    intro s q e hc h
    exact congrArg Host.Outcome.next (commandAccept_passes (mayFetch_weight_used hc h) e)

end Sys2Proof.Machine
end

section
/-! PROOF. The statement about doorbells. -/
namespace Sys2Proof.Machine
open Sys2Proof

section
variable {s : State} {q v : Nat}

theorem sqDoorbellWrite_moves {x : SubQueue} (h : sqBy s q = some x) (hv : v < x.size) :
    sqDoorbellWrite s q v = onSubq s q fun y => { y with tail := v } := by
  unfold sqDoorbellWrite
  rw [h]
  exact if_neg (Nat.not_le.mpr hv)

theorem sqDoorbellWrite_beyond {x : SubQueue} (h : sqBy s q = some x) (hv : x.size ≤ v) :
    sqDoorbellWrite s q v = badDoorbell s 1 := by
  unfold sqDoorbellWrite
  rw [h]
  exact if_pos hv

theorem sqDoorbellWrite_missing (h : sqBy s q = none) (v : Nat) : sqDoorbellWrite s q v = badDoorbell s 0 := by
  unfold sqDoorbellWrite
  rw [h]

theorem cqDoorbellWrite_moves {x : CompQueue} (h : cqBy s q = some x) (hv : v < x.size)
    (hn : (v + x.size - x.head) % x.size ≤ x.entries.length) :
    cqDoorbellWrite s q v =
      onCompq s q fun y => { y with head := v, entries := y.entries.drop ((v + x.size - x.head) % x.size) } := by
  unfold cqDoorbellWrite
  rw [h]
  exact if_neg (by omega)

theorem cqDoorbellWrite_beyond {x : CompQueue} (h : cqBy s q = some x)
    (hv : x.size ≤ v ∨ x.entries.length < (v + x.size - x.head) % x.size) : cqDoorbellWrite s q v = badDoorbell s 1 := by
  unfold cqDoorbellWrite
  rw [h]
  exact if_pos hv

theorem cqDoorbellWrite_missing (h : cqBy s q = none) (v : Nat) : cqDoorbellWrite s q v = badDoorbell s 0 := by
  unfold cqDoorbellWrite
  rw [h]

end

/-- Settles O10: a valid doorbell changes the queue it names (`sqBy_onSubq`, `cqBy_onCompq`), any other adds the event alone. -/
theorem doorbellsMoveTheirQueue : Obligations.DoorbellsMoveTheirQueue := by
  unfold Obligations.DoorbellsMoveTheirQueue
  refine ⟨?_, ?_, ?_, ?_, ?_, ?_⟩
  · intro s q v x h hv
    refine ⟨_, congrArg Host.Outcome.next (sqDoorbellWrite_moves h hv), ?_, fun r hr => ?_, rfl⟩
    · rw [sqBy_onSubq, if_pos rfl, h]
      rfl
    · rw [sqBy_onSubq, if_neg hr]
  · intro s q v x h hv
    exact congrArg Host.Outcome.next (sqDoorbellWrite_beyond h hv)
  · intro s q v h
    exact congrArg Host.Outcome.next (sqDoorbellWrite_missing h v)
  · intro s q v x h hv hn
    refine ⟨_, congrArg Host.Outcome.next (cqDoorbellWrite_moves h hv hn), ?_, fun r hr => ?_, rfl⟩
    · rw [cqBy_onCompq, if_pos rfl, h]
      rfl
    · rw [cqBy_onCompq, if_neg hr]
  · intro s q v x h hv
    exact congrArg Host.Outcome.next (cqDoorbellWrite_beyond h hv)
  · intro s q v h
    exact congrArg Host.Outcome.next (cqDoorbellWrite_missing h v)

end Sys2Proof.Machine
end

section
/-! PROOF. Admin commands that are ready: queues created and deleted, and the plain commands. -/
namespace Sys2Proof.Machine
open Sys2Proof

/-! ## What the end of a command leaves -/

/-- A command that ends with success leaves its completion in its context. -/
theorem ended_succeed {s : State} {c : Nat} {x : Ctx} (h : ctxBy s c = some x) (dw0 : Nat) (data : List Byte) :
    ended (succeed s c dw0 data) c = some (endOf x 0 0 dw0 data) := ended_finish h 0 0 dw0 data

theorem onlyCtx_succeed (s : State) (c dw0 : Nat) (data : List Byte) : OnlyCtx s (succeed s c dw0 data) c :=
  onlyCtx_finish s c 0 0 dw0 data

theorem onlyCtx_onCtx (s : State) (c : Nat) (f : Ctx → Ctx) : OnlyCtx s (onCtx s c f) c :=
  ⟨rfl, fun d h => by rw [ctxBy_onCtx, if_neg h]⟩

/-- A command that stays outstanding keeps its context. -/
theorem phase_outstanding {s : State} {c : Nat} {x : Ctx} (h : ctxBy s c = some x) :
    (ctxBy (onCtx s c fun y => { y with phase := .outstanding }) c).map (·.phase) = some .outstanding := by
  rw [ctxBy_onCtx, if_pos rfl, h]
  rfl

section
variable {s : State} {c : Fin 4096} {x : Ctx}

/-! ## Queues created and deleted (R347, R367) -/

/-- A completion queue as Create describes it. -/
def createdCq (e : SqEntry) : CompQueue :=
  ⟨dwBits e.dw10 31 16 + 1, 0, 0, dwBits e.dw11 31 16, decide (e.dw11.toNat / 2 % 2 = 1), []⟩

/-- A submission queue as Create describes it. -/
def createdSq (e : SqEntry) : SubQueue :=
  ⟨dwBits e.dw10 31 16 + 1, 0, 0, dwBits e.dw11 31 16, dwBits e.dw11 2 1, none, []⟩

/-- A submission queue closed by a Delete, with the entries that it has not fetched to abort. -/
def closedSq (c : Nat) (aborts : List (BitVec 16)) (y : SubQueue) : SubQueue :=
  { y with deleting := some c, head := y.tail, aborts := aborts }

theorem createIoCq_creates (h : Ready s c (isAdmin 0x05) x) (h1 : 1 ≤ dwBits x.entry.dw10 15 0)
    (h64 : dwBits x.entry.dw10 15 0 ≤ 64) (hq : cqBy s (dwBits x.entry.dw10 15 0) = none)
    (hn : 1 ≤ dwBits x.entry.dw10 31 16) (hn' : dwBits x.entry.dw10 31 16 ≤ 4095) (hpc : x.entry.dw11.toNat % 2 = 1)
    (hv : dwBits x.entry.dw11 31 16 ≤ 64) :
    createIoCq s c =
      succeed { s with host.cqs := s.host.cqs ++ [(dwBits x.entry.dw10 15 0, createdCq x.entry)] } c 0 := by
  unfold createIoCq
  rw [onTurn_ready h]
  dsimp only
  rw [if_neg (by simp [maxQueues, hq]; omega), if_neg (by omega), if_neg (by omega), if_neg (by omega)]
  rfl

theorem createIoSq_creates (h : Ready s c (isAdmin 0x01) x) (h1 : 1 ≤ dwBits x.entry.dw10 15 0)
    (h64 : dwBits x.entry.dw10 15 0 ≤ 64) (hq : sqBy s (dwBits x.entry.dw10 15 0) = none)
    (hn : 1 ≤ dwBits x.entry.dw10 31 16) (hn' : dwBits x.entry.dw10 31 16 ≤ 4095) (hpc : x.entry.dw11.toNat % 2 = 1)
    (hcq : dwBits x.entry.dw11 31 16 ≠ 0) (hcq' : (cqBy s (dwBits x.entry.dw11 31 16)).isSome = true) :
    createIoSq s c =
      succeed { s with host.sqs := s.host.sqs ++ [(dwBits x.entry.dw10 15 0, createdSq x.entry)] } c 0 := by
  unfold createIoSq
  rw [onTurn_ready h]
  dsimp only
  rw [if_neg (by simp [hcq, Option.isSome_iff_ne_none.mp hcq']), if_neg (by simp [maxQueues, hq]; omega),
    if_neg (by omega), if_neg (by omega)]
  rfl

theorem deleteIoCq_removes (h : Ready s c (isAdmin 0x04) x) (h0 : dwBits x.entry.dw10 15 0 ≠ 0)
    (hq : (cqBy s (dwBits x.entry.dw10 15 0)).isSome = true) (hfree : ∀ y ∈ s.host.sqs, y.2.cq ≠ dwBits x.entry.dw10 15 0) :
    deleteIoCq s c = succeed { s with host.cqs := s.host.cqs.filter fun y => y.1 ≠ dwBits x.entry.dw10 15 0 } c 0 := by
  have hunused : ¬ (s.host.sqs.any fun y => y.2.cq = dwBits x.entry.dw10 15 0) = true := by simpa using hfree
  unfold deleteIoCq
  rw [onTurn_ready h]
  dsimp only
  rw [if_neg (by simp [h0, Option.isSome_iff_ne_none.mp hq]), if_neg hunused]

theorem deleteIoSq_closes {y : SubQueue} (h : Ready s c (isAdmin 0x00) x) (h0 : dwBits x.entry.dw10 15 0 ≠ 0)
    (hq : sqBy s (dwBits x.entry.dw10 15 0) = some y) (hd : y.deleting = none) (cids : List (BitVec 16)) :
    deleteIoSq s c cids = onCtx (onSubq s (dwBits x.entry.dw10 15 0)
      (closedSq c (cids.take ((y.tail + y.size - y.head) % y.size)))) c fun z => { z with phase := .outstanding } := by
  unfold deleteIoSq
  rw [onTurn_ready h]
  dsimp only
  rw [if_neg h0, hq]
  exact if_neg (by simp [hd])

/-! ## Plain commands (R359 to R362) -/

theorem identify_answers (h : Ready s c (isAdmin 0x06) x) {d : List Byte}
    (hd : identifyData s (dwBits x.entry.dw10 7 0) x.entry.nsid.toNat = some d) : identify s c = succeed s c 0 d := by
  unfold identify
  rw [onTurn_ready h, hd]

theorem getLogPage_answers (h : Ready s c (isAdmin 0x02) x) {p : List Byte} (hp : logPage s (dwBits x.entry.dw10 7 0) = some p)
    (hs : sanitizing s = false) (ho : x.entry.dw12.toNat + x.entry.dw13.toNat * 2 ^ 32 ≤ p.length) :
    getLogPage s c = succeed s c 0 (padTo ((dataLen true x.entry).getD 0)
      (slice p (x.entry.dw12.toNat + x.entry.dw13.toNat * 2 ^ 32) ((dataLen true x.entry).getD 0))) := by
  unfold getLogPage
  rw [onTurn_ready h]
  dsimp only
  rw [hp]
  dsimp only
  rw [if_neg (by simp [hs]), if_neg (Nat.not_lt.mpr ho)]

theorem abortCmd_answers (h : Ready s c (isAdmin 0x08) x) : abortCmd s c = succeed s c 1 := onTurn_ready h _

theorem getFeatures_answers (h : Ready s c (isAdmin 0x0A) x) (hf : dwBits x.entry.dw10 7 0 ∈ features)
    (h9 : dwBits x.entry.dw10 7 0 ≠ 9) :
    getFeatures s c = succeed s c
      (if dwBits x.entry.dw10 7 0 = 7 then 0x003F003F else lookupD s.host.feats (dwBits x.entry.dw10 7 0) 0) := by
  unfold getFeatures
  rw [onTurn_ready h]
  dsimp only
  rw [if_neg (not_not.mpr hf), if_neg h9]
  split <;> rfl

/-- Features whose every value is stored. -/
theorem setFeatures_stores (h : Ready s c (isAdmin 0x09) x) (hf : dwBits x.entry.dw10 7 0 ∈ [0x01, 0x04, 0x08, 0x0B, 0x19]) :
    setFeatures s c = succeed { s with
      host.feats := assocSet s.host.feats (dwBits x.entry.dw10 7 0) x.entry.dw11.toNat } c 0 := by
  have hfeature : dwBits x.entry.dw10 7 0 ∈ features :=
    (by decide : [0x01, 0x04, 0x08, 0x0B, 0x19] ⊆ features) hf
  have hplain : dwBits x.entry.dw10 7 0 ≠ 2 ∧ dwBits x.entry.dw10 7 0 ≠ 6 ∧ dwBits x.entry.dw10 7 0 ≠ 7 ∧
      dwBits x.entry.dw10 7 0 ≠ 9 := by
    refine ⟨?_, ?_, ?_, ?_⟩ <;> exact fun e => absurd (e ▸ hf) (by decide)
  obtain ⟨h2, h6, h7, h9⟩ := hplain
  unfold setFeatures
  rw [onTurn_ready h]
  dsimp only
  rw [if_neg (by simp [hfeature, h2, h6, h9]), if_neg h7, if_neg h9]

/-- The Asynchronous Event Requests that are outstanding. -/
def eventRequests (s : State) : Nat := (s.host.ctxs.filter fun y => isAdmin 0x0C y.2 ∧ y.2.phase = .outstanding).length

theorem asyncEventRequest_waits (h : Ready s c (isAdmin 0x0C) x) (hn : eventRequests s < 4) :
    asyncEventRequest s c = onCtx s c fun y => { y with phase := .outstanding } := by
  unfold asyncEventRequest
  rw [onTurn_ready h]
  exact if_neg (Nat.not_le.mpr hn)

theorem asyncEventRequest_fifth (h : Ready s c (isAdmin 0x0C) x) (hn : 4 ≤ eventRequests s) :
    asyncEventRequest s c = finish s c 1 5 0 := by
  unfold asyncEventRequest
  rw [onTurn_ready h]
  exact if_pos hn

end

end Sys2Proof.Machine
end

section
/-! PROOF. The statements about queue management and the plain admin commands. -/
namespace Sys2Proof.Machine
open Sys2Proof

/-- Settles O14: each command's equation names the queue added, removed or closed, and the command's end is its context's alone. -/
theorem queueManagement : Obligations.QueueManagement := by
  unfold Obligations.QueueManagement
  refine ⟨?_, ?_, ?_, ?_⟩
  · -- CREATE_IO_CQ (R347)
    intro s c x h q n h1 h64 hq hn hn' hpc hv
    exact ⟨_, congrArg Host.Outcome.next (createIoCq_creates h h1 h64 hq hn hn' hpc hv), ended_succeed h.1 0 [], rfl,
      cqBy_append_same hq _⟩
  · -- CREATE_IO_SQ (R347)
    intro s c x h q n cq h1 h64 hq hn hn' hpc hcq hcq'
    exact ⟨_, congrArg Host.Outcome.next (createIoSq_creates h h1 h64 hq hn hn' hpc hcq hcq'), ended_succeed h.1 0 [], rfl,
      sqBy_append_same hq _⟩
  · -- DELETE_IO_CQ (R359)
    intro s c x h q h0 hq hfree
    exact ⟨_, congrArg Host.Outcome.next (deleteIoCq_removes h h0 hq hfree), ended_succeed h.1 0 [], rfl, cqBy_removed s q⟩
  · -- DELETE_IO_SQ (R367)
    intro s c cids x y h q h0 hq hd
    refine ⟨_, congrArg Host.Outcome.next (deleteIoSq_closes h h0 hq hd cids), phase_outstanding h.1, rfl, ?_⟩
    refine (sqBy_onSubq s q q (closedSq c (cids.take ((y.tail + y.size - y.head) % y.size)))).trans ?_
    rw [if_pos rfl, hq]
    rfl

/-- Settles O15: each command's equation names its end, or what stays outstanding. -/
theorem plainAdminCommands : Obligations.PlainAdminCommands := by
  unfold Obligations.PlainAdminCommands
  refine ⟨?_, ?_, ?_, ?_, ?_, ?_⟩
  · -- IDENTIFY (R359)
    intro s c x d h hd
    exact ⟨_, congrArg Host.Outcome.next (identify_answers h hd), ended_succeed h.1 0 d, onlyCtx_succeed s c 0 d⟩
  · -- GET_LOG_PAGE (R359)
    intro s c x p h off hp hs ho
    exact ⟨_, congrArg Host.Outcome.next (getLogPage_answers h hp hs ho), onlyCtx_succeed s c 0 _, ended_succeed h.1 0 _⟩
  · -- ABORT (R360)
    intro s c x h
    exact ⟨_, congrArg Host.Outcome.next (abortCmd_answers h), ended_succeed h.1 1 [], onlyCtx_succeed s c 1 []⟩
  · -- GET_FEATURES (R359)
    intro s c x h f hf h9
    exact ⟨_, congrArg Host.Outcome.next (getFeatures_answers h hf h9), onlyCtx_succeed s c _ [], ended_succeed h.1 _ []⟩
  · -- SET_FEATURES (R359)
    intro s c x h f hf
    exact ⟨_, congrArg Host.Outcome.next (setFeatures_stores h hf), ended_succeed h.1 0 [], rfl, lookupD_assocSet_same _ _ _ _⟩
  · -- ASYNCHRONOUS_EVENT_REQUEST (Table 12.5)
    intro s c x h n
    by_cases hn : n < 4
    · exact ⟨_, congrArg Host.Outcome.next (asyncEventRequest_waits h hn), onlyCtx_onCtx s c _, fun _ => phase_outstanding h.1,
        fun h4 => absurd hn (Nat.not_lt.mpr h4)⟩
    · exact ⟨_, congrArg Host.Outcome.next (asyncEventRequest_fifth h (Nat.not_lt.mp hn)), onlyCtx_finish s c 1 5 0 [],
        fun h4 => absurd h4 hn, fun _ => ended_finish h.1 1 5 0 []⟩

end Sys2Proof.Machine
end

section
/-! PROOF. The statement about aggregation times and Cyzon Receive. -/
namespace Sys2Proof.Machine
open Sys2Proof

/-! ## A vector's interrupt (R349) -/

/-- One interrupt on a vector: counted, and its completions signalled. -/
def interruptSent (s : State) (v : Nat) : State :=
  { s with
    host.msix := assocSet s.host.msix v (lookupD s.host.msix v 0 + 1), host.agg := s.host.agg.filter fun a => a.1 ≠ v }

theorem aggregationTimeExpire_sends {s : State} {v : Fin 65} {n since : Nat}
    (h : (s.host.agg.find? fun a => a.1 = v.val) = some (v.val, n, since)) :
    aggregationTimeExpire s v = interruptSent (s.at (since + 100 * (lookupD s.host.feats 8 0 / 256 % 256))) v := by
  unfold aggregationTimeExpire
  rw [h]
  rfl

/-! ## Replies held and closed (R428, R430) -/

/-- The reply that a Receive on the NVMe path returns for a tag: 07h for one that is not open (notes/assumptions/83.md). -/
def receivedReply (s : State) (tag : Nat) : CyzonReply := (heldReply s false tag).getD ⟨false, tag, 0, 0, 7, 0, [], true, true⟩

theorem heldReply_cyzClose (s : State) (mctp : Bool) (tag : Nat) : heldReply (cyzClose s mctp tag) mctp tag = none :=
  List.find?_eq_none.mpr fun r hr => by
    simpa only [decide_eq_true_eq] using (List.mem_filter.mp hr).2

theorem cyzClose_closes (s : State) (mctp : Bool) (tag : Nat) : (mctp, tag) ∉ (cyzClose s mctp tag).cyz.open_ := fun h => by
  simpa using (List.mem_filter.mp h).2

section
variable {s : State} {c : Fin 4096} {x : Ctx}

theorem cyzonReceive_held (h : Ready s c (isAdmin 0xC1) x) {r : CyzonReply}
    (hr : heldReply s false (dwBits x.entry.dw11 15 0) = some r) (hn : (replyPacket r).length ≤ x.entry.dw10.toNat) :
    cyzonReceive s c =
      succeed (if r.final then cyzClose s false (dwBits x.entry.dw11 15 0) else s) c 0 (replyPacket r) := by
  unfold cyzonReceive
  rw [onTurn_ready h]
  dsimp only
  rw [hr]
  exact if_neg (Nat.not_lt.mpr hn)

theorem cyzonReceive_unknown (h : Ready s c (isAdmin 0xC1) x) (hr : heldReply s false (dwBits x.entry.dw11 15 0) = none)
    (hn : (replyPacket (receivedReply s (dwBits x.entry.dw11 15 0))).length ≤ x.entry.dw10.toNat) :
    cyzonReceive s c = succeed s c 0 (replyPacket (receivedReply s (dwBits x.entry.dw11 15 0))) := by
  unfold receivedReply at hn ⊢
  unfold cyzonReceive
  rw [onTurn_ready h]
  dsimp only
  rw [hr] at hn ⊢
  exact if_neg (Nat.not_lt.mpr hn)

end

/-- Settles O17: the interrupt is the one that coalescing held back; a Receive answers a held reply, closing its tag where it is
final, or the reply for an unknown tag. -/
theorem aggregationAndCyzonReceive : Obligations.AggregationAndCyzonReceive := by
  unfold Obligations.AggregationAndCyzonReceive
  refine ⟨?_, ?_⟩
  · -- AGGREGATION_TIME_EXPIRE (R349)
    intro s v n since h
    exact ⟨_, congrArg Host.Outcome.next (aggregationTimeExpire_sends h), lookupD_assocSet_same _ _ _ _,
      fun a ha => by simpa using (List.mem_filter.mp ha).2⟩
  · -- CYZON_RECEIVE (R428)
    intro s c x h tag r hn
    cases hr : heldReply s false tag with
    | none =>
      exact ⟨_, congrArg Host.Outcome.next (cyzonReceive_unknown h hr hn), ended_succeed h.1 0 _,
        fun _ => ⟨hr, fun _ hheld => absurd rfl hheld⟩⟩
    | some held =>
      have hrheld : r = held := congrArg (Option.getD · _) hr
      rw [hrheld] at hn ⊢
      have ht := cyzonReceive_held h hr hn
      by_cases hfinal : held.final = true
      · rw [if_pos hfinal] at ht
        exact ⟨_, congrArg Host.Outcome.next ht, ended_succeed h.1 0 _,
          fun _ => ⟨heldReply_cyzClose s false tag, fun _ _ => cyzClose_closes s false tag⟩⟩
      · rw [if_neg hfinal] at ht
        exact ⟨_, congrArg Host.Outcome.next ht, ended_succeed h.1 0 _, fun h => absurd h hfinal⟩

end Sys2Proof.Machine
end

section
/-! PROOF. What the leaf store's operations leave: everything but the store and the places of the leaves that sessions and zones
name. -/
namespace Sys2Proof.Machine
open Sys2Proof

/-! ## A state without its leaf store -/

/-- A reference to a leaf, without its place. -/
def unplacedRef (r : LeafRef) : LeafRef := { r with place := none }

/-- A session, without the places of its leaves. -/
def unplacedSession (y : Session) : Session := { y with leaves := y.leaves.map unplacedRef }

/-- A session slot, without the places of its session's leaves. -/
def unplacedSlot (sl : SessSlot) : SessSlot := { sl with sess := sl.sess.map unplacedSession }

/-- A zone, without the places of its leaves. -/
def unplacedZone (z : Zone) : Zone := { z with leaves := z.leaves.map unplacedRef }

/-- A state without stripes, staging and write paths, and without the places that sessions and zones name. -/
def storeless (s : State) : State :=
  { s with
    str := default, stg := default, wrt := default
    obj.slots := s.obj.slots.map unplacedSlot, zns.zones := s.zns.zones.map unplacedZone }

/-- At most the leaf store and the places in it differ. -/
def KeepsRest (s t : State) : Prop := storeless t = storeless s

namespace KeepsRest

theorem refl (s : State) : KeepsRest s s := rfl

theorem trans {s t u : State} (h : KeepsRest s t) (k : KeepsRest t u) : KeepsRest s u := Eq.trans k h

theorem foldl {α : Type} {f : State → α → State} (hf : ∀ s a, KeepsRest s (f s a)) (l : List α) (s : State) :
    KeepsRest s (l.foldl f s) :=
  foldl_frame KeepsRest refl (fun _ _ _ => trans) f hf l s

section
variable {s t : State} (h : KeepsRest s t)
include h

/-- What is read of a state without its leaf store is the same. -/
theorem read {α : Type} (f : State → α) : f (storeless t) = f (storeless s) := congrArg f h

theorem host : t.host = s.host := read h State.host

theorem objs : t.obj.objs = s.obj.objs := read h (·.obj.objs)

theorem ctxBy (c : Nat) : ctxBy t c = ctxBy s c := read h (Machine.ctxBy · c)

theorem objBy (key : List Byte) : objBy t key = objBy s key := read h (Machine.objBy · key)

theorem hours : t.hours = s.hours := read h State.hours

end

end KeepsRest

theorem unplacedRef_placed (uid : Nat) (p : Nat × Nat) (r : LeafRef) :
    unplacedRef (if r.uid = uid then { r with place := some p } else r) = unplacedRef r := by
  split <;> rfl

theorem notePlace_keepsRest (s : State) (uid : Nat) (p : Nat × Nat) : KeepsRest s (notePlace s uid p) := by
  have hrefs (l : List LeafRef) :
      (l.map fun r => if r.uid = uid then { r with place := some p } else r).map unplacedRef = l.map unplacedRef := by
    rw [List.map_map]
    exact List.map_congr_left fun r _ => unplacedRef_placed uid p r
  have hslots : (notePlace s uid p).obj.slots.map unplacedSlot = s.obj.slots.map unplacedSlot := by
    refine (List.map_map ..).trans (List.map_congr_left fun sl _ => ?_)
    obtain ⟨gen, _ | y⟩ := sl
    · rfl
    · exact congrArg (fun l => (⟨gen, some { y with leaves := l }⟩ : SessSlot)) (hrefs y.leaves)
  have hzones : (notePlace s uid p).zns.zones.map unplacedZone = s.zns.zones.map unplacedZone :=
    (List.map_map ..).trans (List.map_congr_left fun z _ => congrArg (fun l => { z with leaves := l }) (hrefs z.leaves))
  have hstep : storeless (notePlace s uid p) = { storeless s with
      obj.slots := (notePlace s uid p).obj.slots.map unplacedSlot
      zns.zones := (notePlace s uid p).zns.zones.map unplacedZone } := rfl
  unfold KeepsRest
  rw [hstep, hslots, hzones]
  rfl

/-! ## The leaf store's operations -/

theorem skipDead_keepsRest (gid n : Nat) : ∀ s, KeepsRest s (skipDead gid n s) := by
  induction n with
  | zero => exact .refl
  | succ n ih =>
    intro s
    unfold skipDead
    split
    · exact .refl s
    · split
      · exact .trans (by rfl) (ih _)
      · exact .refl s

theorem groupFilled_keepsRest (s : State) (gid : Nat) : KeepsRest s (groupFilled s gid) := by
  unfold groupFilled
  split
  · split <;> rfl
  · exact .refl s

theorem formGroup_keepsRest (s : State) (role : RingRole) (z : Option Nat) : KeepsRest s (formGroup s role z).1 := by
  unfold formGroup
  dsimp only
  split <;> rfl

theorem groupFor_keepsRest (s : State) (role : RingRole) (z : Option Nat) : KeepsRest s (groupFor s role z).1 := by
  unfold groupFor
  split
  · next g _ =>
    have h := skipDead_keepsRest g.id 8192 s
    dsimp only
    split
    · split
      · exact h
      · exact (h.trans (groupFilled_keepsRest _ _)).trans (formGroup_keepsRest _ role z)
    · exact h
  · exact formGroup_keepsRest s role z

theorem placeIn_keepsRest (s : State) (gid uid : Nat) : KeepsRest s (placeIn s gid uid) := by
  have h := skipDead_keepsRest gid 8192 s
  unfold placeIn
  generalize skipDead gid 8192 s = u at h
  dsimp only
  split
  · exact h
  next g _ =>
    have hplaced (p : Nat × Nat) :
        KeepsRest u (notePlace (onStaged u uid fun l => { l with place := some p, formed := true }) uid p) :=
      .trans (t := onStaged u uid fun l => { l with place := some p, formed := true }) rfl (notePlace_keepsRest _ uid p)
    refine (h.trans ((hplaced (stripeNo g.id (g.next / g.k), g.next % g.k)).trans ?_)).trans (groupFilled_keepsRest _ gid)
    split <;> rfl

theorem formLeaf_keepsRest (s : State) (uid : Nat) : KeepsRest s (formLeaf s uid) := by
  unfold formLeaf
  split
  · next l _ =>
    have h := groupFor_keepsRest s (if l.kind = .index then .index else .data) (zoneOfId l.objectId)
    split
    · exact .refl s
    · split
      · next t g e => exact .trans (by simpa only [e] using h) (placeIn_keepsRest t g.id uid)
      · next t e => simpa only [e] using h
  · exact .refl s

theorem stagedGrow_keepsRest (s : State) (l : StagedLeaf) (b : List Byte) (a : List Byte × Nat) (f : StagedLeaf → StagedLeaf) :
    KeepsRest s (stagedGrow s l b a f) := rfl

theorem stagedPut_keepsRest (s : State) (l : StagedLeaf) : KeepsRest s (stagedPut s l) := by
  unfold stagedPut
  generalize slotTake _ _ _ = g
  rfl

theorem stageNew_keepsRest (s : State) (kind : LeafKind) (o v off r : Nat) (p key : List Byte) (a : Nat) :
    KeepsRest s (stageNew s kind o v off r p key a).1 := by
  unfold stageNew
  dsimp only
  exact Eq.trans (stagedPut_keepsRest _ _) rfl

theorem idxAdd_keepsRest (s : State) (key : List Byte) (accept : Nat) (r : List Byte) : KeepsRest s (idxAdd s key accept r) := by
  unfold idxAdd
  split
  · exact stagedGrow_keepsRest s _ _ _ _
  · dsimp only
    split
    · next l _ => exact (formLeaf_keepsRest s l.uid).trans (stageNew_keepsRest _ _ _ _ _ _ _ _ _)
    · exact stageNew_keepsRest s _ _ _ _ _ _ _ _

theorem idxWrite_keepsRest (s : State) (key : List Byte) (accept : Nat) (recs : List (List Byte)) :
    KeepsRest s (idxWrite s key accept recs) :=
  .trans (t := { s with str.newGroups := [] }) rfl
    ((KeepsRest.foldl (fun s r => idxAdd_keepsRest s [] 0 r) _ _).trans
      (KeepsRest.foldl (fun s r => idxAdd_keepsRest s key accept r) recs _))

theorem idxPending_keepsRest (s : State) : KeepsRest s (idxPending s) := by
  obtain h | h := idxPending_cases s <;> rw [h]
  · exact .refl s
  · exact idxWrite_keepsRest s [] 0 []

theorem closeStripe_keepsRest (s : State) (gid : Nat) : KeepsRest s (closeStripe s gid) := by
  unfold closeStripe
  split
  · split
    · exact .refl s
    · exact .trans (by rfl) (groupFilled_keepsRest _ gid)
  · exact .refl s

theorem forceLeaves_keepsRest (s : State) (uids : List Nat) : KeepsRest s (forceLeaves s uids) := by
  refine KeepsRest.foldl (fun s u => (formLeaf_keepsRest s u).trans ?_) uids s
  dsimp only
  split
  · split
    · split
      · split
        · exact closeStripe_keepsRest _ _
        · exact .refl _
      · exact .refl _
    · exact .refl _
  · exact .refl _

theorem writeHome_keepsRest (s : State) : KeepsRest s (writeHome s) :=
  (forceLeaves_keepsRest s _).trans (idxPending_keepsRest _)

theorem holdWrite_keepsRest (s : State) (c : Nat) :
    KeepsRest (onCtx s c fun x => { x with phase := .held }) (holdWrite s c) := by
  unfold holdWrite
  dsimp only
  split
  · exact .refl _
  · exact writeHome_keepsRest _

/-! ## Bytes staged (R289, R390) -/

theorem stageLeaf_keepsRest (s : State) (f : StageFor) (refs : List LeafRef) (i : Nat) (plain : List Byte) :
    KeepsRest s (stageLeaf s f refs i plain).1 := by
  unfold stageLeaf
  dsimp only
  split
  · exact stagedGrow_keepsRest s _ _ _ _
  · exact stageNew_keepsRest s _ _ _ _ _ _ _ _

theorem stageLeaves_keepsRest (f : StageFor) (plain : List Byte) (n : Nat) :
    ∀ (i : Nat) (st : State × List LeafRef), KeepsRest st.1 (stageLeaves f plain n i st).1 := by
  induction n with
  | zero => exact fun _ st => .refl st.1
  | succ n ih => exact fun i st => (stageLeaf_keepsRest st.1 f st.2 i _).trans (ih (i + 1) _)

theorem formFull_keepsRest (s : State) (refs : List LeafRef) : KeepsRest s (formFull s refs) :=
  .foldl (fun s (r : LeafRef) => formLeaf_keepsRest s r.uid) _ s

theorem sessionRecord_keepsRest (s : State) (y : Session) (accept : Nat) : KeepsRest s (sessionRecord s y accept) := by
  have hrecs : KeepsRest s (sessionRecs s y).1 := rfl
  unfold sessionRecord
  dsimp only
  split
  · exact hrecs
  · exact hrecs.trans (idxWrite_keepsRest _ _ _ _)

/-- A zone's record keeps the host's side. -/
theorem zoneRecord_host (s : State) (z accept : Nat) : (zoneRecord s z accept).host = s.host := by
  have hformed : KeepsRest s ((zoneBy s z).leaves.foldl (fun s r => formLeaf s r.uid) s) :=
    .foldl (fun s (r : LeafRef) => formLeaf_keepsRest s r.uid) _ s
  have hrecs : (zoneRecs s z).1.host = s.host := hformed.host
  exact (idxWrite_keepsRest _ _ _ _).host.trans hrecs

end Sys2Proof.Machine
end

section
/-! PROOF. Session slots, their sessions, and the versions of an object, read after a change. -/
namespace Sys2Proof.Machine
open Sys2Proof

/-! ## Session slots -/

theorem slot_onSlot (s : State) (n : Nat) (f : SessSlot → SessSlot) (m : Nat) :
    (onSlot s n f).obj.slots[m]? = (s.obj.slots[m]?).map fun sl => if m = n then f sl else sl := by
  unfold onSlot
  rw [List.getElem?_map, List.getElem?_zipIdx, Option.map_map]
  simp [Function.comp_def]

theorem slot_onSlot_same (s : State) (n : Nat) (f : SessSlot → SessSlot) :
    (onSlot s n f).obj.slots[n]? = (s.obj.slots[n]?).map f := by
  simp [slot_onSlot]

theorem slot_onSlot_other {n m : Nat} (h : m ≠ n) (s : State) (f : SessSlot → SessSlot) :
    (onSlot s n f).obj.slots[m]? = s.obj.slots[m]? := by
  simp [slot_onSlot, h]

theorem sessOf_of_slot {s : State} {n : Nat} {sl : SessSlot} (h : s.obj.slots[n]? = some sl) : sessOf s n = sl.sess := by
  unfold sessOf
  rw [h]
  rfl

theorem sessOf_onSession (s : State) (n : Nat) (f : Session → Session) : sessOf (onSession s n f) n = (sessOf s n).map f := by
  unfold sessOf onSession
  rw [slot_onSlot_same]
  cases s.obj.slots[n]? <;> rfl

/-- The slot that a handle names is under the handle's generation. -/
theorem slot_of_sessionAt {s : State} {handle n : Nat} {y : Session} (h : sessionAt s handle = some (n, y)) :
    s.obj.slots[n]? = some ⟨handle / 256, some y⟩ := by
  unfold sessionAt at h
  split at h
  · next sl hsl =>
    obtain ⟨gen, sess⟩ := sl
    split at h
    · next hgen =>
      obtain ⟨z, hz, e⟩ := Option.map_eq_some_iff.mp h
      obtain ⟨rfl, rfl⟩ := Prod.mk.inj e
      obtain ⟨hsess, -⟩ := Option.filter_eq_some_iff.mp hz
      rw [hsl, ← hgen, ← hsess]
    · cases h
  · cases h

theorem sessOf_of_sessionAt {s : State} {handle n : Nat} {y : Session} (h : sessionAt s handle = some (n, y)) :
    sessOf s n = some y := sessOf_of_slot (slot_of_sessionAt h)

theorem sessOf_storeless (s : State) (n : Nat) : sessOf (storeless s) n = (sessOf s n).map unplacedSession := by
  unfold sessOf storeless
  rw [List.getElem?_map]
  cases s.obj.slots[n]? <;> rfl

/-- A session keeps all but the places of its leaves where the leaf store alone changes. -/
theorem KeepsRest.sessOf {s t : State} (h : KeepsRest s t) {n : Nat} {y : Session} (hy : sessOf s n = some y) :
    ∃ refs, sessOf t n = some { y with leaves := refs } := by
  have hsame := h.read (Machine.sessOf · n)
  rw [sessOf_storeless, sessOf_storeless, hy] at hsame
  obtain ⟨z, hz, e⟩ := Option.map_eq_some_iff.mp hsame
  refine ⟨z.leaves, hz.trans (congrArg some ?_)⟩
  exact congrArg (fun w : Session => { w with leaves := z.leaves }) e

/-! ## Contexts -/

theorem ctxBy_congr {s t : State} (h : t.host = s.host) (c : Nat) : ctxBy t c = ctxBy s c := by
  unfold ctxBy
  rw [h]

/-- A command refused with an object status changes its context alone. -/
theorem refusedWith_refuse7 {s : State} {c : Nat} {x : Ctx} (h : ctxBy s c = some x) (sc dw0 : Nat) :
    RefusedWith s (refuse7 s c sc dw0) c x sc dw0 :=
  ⟨ended_finish h 7 sc dw0 [], onlyCtx_finish s c 7 sc dw0 []⟩

/-! ## Objects and versions -/

/-- An object looked up after one is changed that keeps its key. -/
theorem objBy_onObj (s : State) (key : List Byte) {f : Obj → Obj} (hf : ∀ o, (f o).key = o.key) (k : List Byte) :
    objBy (onObj s key f) k = (objBy s k).map fun o => if k = key then f o else o := by
  have hkey (o : Obj) : (if o.key = key then f o else o).key = o.key := by
    split
    · exact hf o
    · rfl
  unfold objBy onObj
  rw [List.find?_map]
  simp only [Function.comp_def, hkey]
  refine Option.map_congr fun o ho => ?_
  have hk : o.key = k := by simpa using List.find?_some ho
  rw [hk]

/-- An object with a version entered in order of numbers. -/
def withVersion (v : Version) (o : Obj) : Obj :=
  { o with versions := o.versions.filter (·.no < v.no) ++ v :: o.versions.filter (v.no < ·.no) }

theorem objBy_addVersion (s : State) (key : List Byte) (v : Version) (k : List Byte) :
    objBy (addVersion s key v) k = (objBy s k).map fun o => if k = key then withVersion v o else o :=
  objBy_onObj s key (f := withVersion v) (fun _ => rfl) k

/-- A version looked up by number among those whose number passes a test. -/
theorem find_filter_no (l : List Version) (p : Nat → Bool) (no : Nat) :
    (l.filter fun w => p w.no).find? (fun w => w.no = no) = if p no then l.find? (fun w => w.no = no) else none := by
  rw [List.find?_filter]
  split
  · next h =>
    refine congrArg (List.find? · l) (funext fun w => ?_)
    by_cases hw : w.no = no <;> simp [hw, h]
  · next h =>
    refine List.find?_eq_none.mpr fun w _ hw => h ?_
    obtain ⟨hp, hno⟩ : p w.no = true ∧ w.no = no := by simpa using hw
    exact hno ▸ hp

theorem verBy_withVersion (v : Version) (o : Obj) (no : Nat) :
    verBy (withVersion v o) no = if no = v.no then some v else verBy o no := by
  have hnew : [v].find? (fun w => w.no = no) = if no = v.no then some v else none := by simp [List.find?_singleton, eq_comm]
  have hbelow := find_filter_no o.versions (fun m => decide (m < v.no)) no
  have habove := find_filter_no o.versions (fun m => decide (v.no < m)) no
  unfold verBy withVersion
  rw [List.append_cons, List.find?_append, List.find?_append, hbelow, hnew, habove]
  obtain h | rfl | h := Nat.lt_trichotomy no v.no
  · simp [h, h.ne, h.not_gt]
  · simp
  · simp [h, h.ne', h.not_gt]

end Sys2Proof.Machine
end

section
/-! PROOF. Put sessions: opened, given bytes, aborted, and the statement about them. -/
namespace Sys2Proof.Machine
open Sys2Proof

/-! ## Put Open (R386) -/

section
variable {s : State}

theorem freeSlot_free {n : Nat} (h : freeSlot s = some n) : n < 256 ∧ sessOf s n = none := by
  obtain ⟨hn, hfree⟩ := List.mem_filter.mp (List.mem_of_getElem? h)
  exact ⟨List.mem_range.mp hn, Option.isNone_iff_eq_none.mp hfree⟩

/-- A slot is free just where one is picked. -/
theorem freeSlot_eq_none : freeSlot s = none ↔ ∀ m, m < 256 → sessOf s m ≠ none := by
  unfold freeSlot
  generalize hfr : (List.range 256).filter (fun n => ((s.obj.slots[n]?).bind (·.sess)).isNone) = fr
  have hempty : fr = [] ↔ ∀ m, m < 256 → sessOf s m ≠ none := by
    rw [← hfr, List.filter_eq_nil_iff]
    simp [sessOf]
  rw [← hempty]
  dsimp only
  rw [List.getElem?_eq_none_iff]
  refine ⟨fun h => ?_, fun h => by simp [h]⟩
  by_contra hne
  exact absurd (Nat.mod_lt (Config.slotPick s.freeCtr) (List.length_pos_of_ne_nil hne)) (Nat.not_lt.mpr h)

/-- A version number is taken on the objects' side alone, and no slot changes. -/
theorem assignVersion_changes (s : State) (key : List Byte) :
    (assignVersion s key).1 = { s with obj := (assignVersion s key).1.obj } ∧
    (assignVersion s key).1.obj.slots = s.obj.slots := by
  unfold assignVersion
  split <;> exact ⟨rfl, rfl⟩

theorem assignVersion_number (s : State) (key : List Byte) :
    (assignVersion s key).2.2 = match objBy s key with | some o => o.assigned + 1 | none => 1 := by
  unfold assignVersion
  split <;> simp [*]

/-- The session that a slot is taken by. -/
def newSession (s : State) (key : List Byte) (lrange : Nat) (hold : Bool) (retain : Nat) (copying : Bool) : Session :=
  { key := key, objectId := (assignVersion s key).2.1, version := (assignVersion s key).2.2, lrange := lrange, hold := hold,
    retain := retain, broken := false, damaged := false, accepted := 0, acked := 0, absorbed := [], leaves := [],
    copying := copying }

/-- A slot taken: of its slot and the objects nothing but the assignment and the session differs. -/
theorem openSession_changes (n : Nat) (key : List Byte) (lr : Nat) (hold : Bool) (retain : Nat) (copying : Bool) :
    let u := (openSession s n key lr hold retain copying).1
    u = { s with obj := u.obj, freeCtr := s.freeCtr + 1 } ∧
    u.obj.slots[n]? = (s.obj.slots[n]?).map (fun sl => { sl with sess := some (newSession s key lr hold retain copying) }) ∧
    ∀ m, m ≠ n → u.obj.slots[m]? = s.obj.slots[m]? := by
  obtain ⟨honly, hslots⟩ := assignVersion_changes s key
  have hu : (openSession s n key lr hold retain copying).1 = onSlot { (assignVersion s key).1 with
      freeCtr := (assignVersion s key).1.freeCtr + 1 } n fun sl =>
        { sl with sess := some (newSession s key lr hold retain copying) } := rfl
  dsimp only
  rw [hu]
  refine ⟨?_, ?_, fun m hm => ?_⟩
  · generalize newSession s key lr hold retain copying = y
    generalize (assignVersion s key).1 = a at honly
    rw [honly]
    rfl
  · rw [slot_onSlot_same, hslots]
  · rw [slot_onSlot_other hm, hslots]

end

section
variable {s : State} {c : Fin 4096} {x : Ctx} (h : Ready s c (isObj 0x80) x)
include h

theorem putOpen_unusable (hu : rangeUsable s (dwBits x.entry.dw11 6 0) = false) : putOpen s c = invalidField s c := by
  unfold putOpen
  rw [onTurn_ready h]
  exact if_pos (Bool.eq_false_iff.mp hu)

theorem putOpen_locked (hu : rangeUsable s (dwBits x.entry.dw11 6 0) = true)
    (hl : writeLocked s (dwBits x.entry.dw11 6 0) = true) : putOpen s c = denied s c := by
  unfold putOpen
  rw [onTurn_ready h]
  dsimp only
  rw [if_neg (not_not.mpr hu), if_pos hl]

variable (hu : rangeUsable s (dwBits x.entry.dw11 6 0) = true) (hl : writeLocked s (dwBits x.entry.dw11 6 0) = false)
include hu hl

theorem putOpen_full (hf : freeSlot s = none) : putOpen s c = refuse7 s c 0x84 0 := by
  unfold putOpen
  rw [onTurn_ready h]
  dsimp only
  rw [if_neg (not_not.mpr hu), if_neg (Bool.eq_false_iff.mp hl), hf]

theorem putOpen_opens {n : Nat} {sl : SessSlot} (hf : freeSlot s = some n) (hsl : s.obj.slots[n]? = some sl) : putOpen s c =
    succeed (openSession s n x.entry.key (dwBits x.entry.dw11 6 0) (x.entry.flags % 2 = 1) x.entry.argA false).1 c
      (n + 256 * sl.gen) := by
  unfold putOpen
  rw [onTurn_ready h]
  dsimp only
  rw [if_neg (not_not.mpr hu), if_neg (Bool.eq_false_iff.mp hl), hf]
  dsimp only
  rw [hsl]
  rfl

end

/-! ## Put Data (R388, R389) -/

section
variable {s : State} {c : Nat} {x : Ctx} {n : Nat} {y z : Session} {data : List Byte}

/-- What a session has absorbed after a Put Data. -/
def absorbedAfter (x : Ctx) (y : Session) (data : List Byte) : List Byte :=
  y.absorbed ++ padTo x.entry.dw11.toNat (data.take x.entry.dw11.toNat)

/-- Bytes staged: the session in the slot has absorbed them, its leaves name the staged ones, and the command has ended. -/
theorem putStage_stages (hz : sessOf s n = some z) : ∃ u refs, putStage s c x n y data = succeed u c 0 ∧ u.host = s.host ∧
    u.obj.objs = s.obj.objs ∧ sessOf u n = some { z with absorbed := absorbedAfter x y data, leaves := refs } := by
  unfold putStage
  dsimp only
  generalize hst : stageLeaves _ _ _ _ _ = st
  have hkeeps : KeepsRest s st.1 := hst ▸ stageLeaves_keepsRest _ _ _ _ (s, y.leaves)
  generalize htaken : onSession st.1 n _ = taken
  have hsess : sessOf taken n = some { z with absorbed := absorbedAfter x y data, leaves := st.2 } := by
    obtain ⟨refs, hleaves⟩ := hkeeps.sessOf hz
    rw [← htaken, sessOf_onSession, hleaves]
    rfl
  have hhost : taken.host = s.host := htaken ▸ hkeeps.host
  have hobjs : taken.obj.objs = s.obj.objs := htaken ▸ hkeeps.objs
  have hformed : KeepsRest taken (formFull taken st.2) := formFull_keepsRest taken st.2
  suffices hrecord : ∀ u, KeepsRest taken u → ∃ v refs, succeed u c 0 = succeed v c 0 ∧ v.host = s.host ∧
      v.obj.objs = s.obj.objs ∧ sessOf v n = some { z with absorbed := absorbedAfter x y data, leaves := refs } by
    refine hrecord _ ?_
    split
    · split
      · exact hformed.trans (sessionRecord_keepsRest _ _ _)
      · exact hformed
    · exact hformed
  intro u hu
  obtain ⟨refs, hleaves⟩ := hu.sessOf hsess
  exact ⟨u, refs, rfl, hu.host.trans hhost, hu.objs.trans hobjs, hleaves⟩

/-- A write held: its command is held, and its session keeps all but the places of its leaves. -/
theorem holdWrite_holds (hx : ctxBy s c = some x) (hz : sessOf s n = some z) :
    (ctxBy (holdWrite s c) c).map (·.phase) = some .held ∧ (holdWrite s c).obj.objs = s.obj.objs ∧
    ∃ refs, sessOf (holdWrite s c) n = some { z with leaves := refs } := by
  have hkeeps := holdWrite_keepsRest s c
  refine ⟨?_, hkeeps.objs, hkeeps.sessOf hz⟩
  rw [hkeeps.ctxBy, ctxBy_onCtx, if_pos rfl, hx]
  rfl

theorem heldBefore_congr {t : State} (h : t.host = s.host) (handle a : Nat) : heldBefore t handle a = heldBefore s handle a := by
  unfold heldBefore
  rw [h]

section
variable (hd : c ∉ s.host.dataErr)
include hd

theorem putGo_stages (hb : heldBefore s x.entry.handle x.accept = false) (ha : admits s (putStage s c x n y data) = true) :
    putGo s c x n y data = putStage s c x n y data := by
  unfold putGo
  rw [if_neg hd, if_neg (Bool.eq_false_iff.mp hb)]
  exact if_pos ha

theorem putGo_holds (h : ¬ (admits s (putStage s c x n y data) = true ∧ heldBefore s x.entry.handle x.accept = false)) :
    putGo s c x n y data = holdWrite s c := by
  unfold putGo
  rw [if_neg hd]
  split
  · rfl
  · next hb => exact if_neg fun ha => h ⟨ha, Bool.eq_false_iff.mpr hb⟩

end

end

section
variable {s : State} {c : Fin 4096} {x : Ctx} {n : Nat} {y : Session} {data : List Byte}

/-- A held Put Data that comes again. -/
theorem putData_held (hx : ctxBy s c = some x) (hop : isObj 0x81 x = true) (hp : x.phase = .held)
    (hs : sessionAt s x.entry.handle = some (n, y)) (hk : y.broken = false) : putData s c data = putGo s c x n y data := by
  unfold putData
  simp only [hx]
  rw [if_neg (not_not.mpr hop), if_pos hp, hs]
  exact if_neg (Bool.eq_false_iff.mp hk)

theorem turn_accepted (h : turn s x = true) : x.phase = .accepted := by
  simp only [turn, Bool.and_eq_true, decide_eq_true_eq] at h
  exact h.1.1

section
variable (h : Ready s c (isObj 0x81) x) (hs : sessionAt s x.entry.handle = some (n, y)) (hd : y.damaged = false)
  (hk : y.broken = false) (hl : writeLocked s y.lrange = false)
include h hs hd hk hl

/-- A ready Put Data of an unbroken, unlocked session is judged by its offset, its end and the capacity. -/
theorem putData_judged : putData s c data =
    if x.entry.argA ≠ y.accepted then refuse7 s c 0x85 (y.accepted % 2 ^ 32)
    else if 2 ^ 44 < y.accepted + x.entry.dw11.toNat then refuse7 s c 0x86 0
    else if freeCapacity s < reservedSlots s + heldSlots s +
        ((y.accepted + x.entry.dw11.toNat + 32767) / 32768 - (y.accepted + 32767) / 32768) then refuse7 s c 0x87 0
    else putGo (onSession s n fun y => { y with accepted := y.accepted + x.entry.dw11.toNat }) c x n y data := by
  obtain ⟨hx, hop, ht, -⟩ := h
  have hp : x.phase ≠ .held := by
    rw [turn_accepted ht]
    exact fun e => nomatch e
  unfold putData
  simp only [hx]
  rw [if_neg (not_not.mpr hop), if_neg hp, if_neg (not_not.mpr ht), hs]
  dsimp only
  rw [if_neg (Bool.eq_false_iff.mp hd), if_neg (Bool.eq_false_iff.mp hk), if_neg (Bool.eq_false_iff.mp hl)]

theorem putData_misplaced (ha : x.entry.argA ≠ y.accepted) : putData s c data = refuse7 s c 0x85 (y.accepted % 2 ^ 32) := by
  rw [putData_judged h hs hd hk hl, if_pos ha]

theorem putData_takes (ha : x.entry.argA = y.accepted) (h44 : y.accepted + x.entry.dw11.toNat ≤ 2 ^ 44)
    (hcap : reservedSlots s + heldSlots s +
      ((y.accepted + x.entry.dw11.toNat + 32767) / 32768 - (y.accepted + 32767) / 32768) ≤ freeCapacity s) :
    putData s c data = putGo (onSession s n fun y => { y with accepted := y.accepted + x.entry.dw11.toNat }) c x n y data := by
  rw [putData_judged h hs hd hk hl, if_neg (not_not.mpr ha), if_neg (Nat.not_lt.mpr h44), if_neg (Nat.not_lt.mpr hcap)]

end

end

/-! ## Put Abort (R394) -/

/-- At most the staging differs. -/
def OnlyStaging (s t : State) : Prop := t = { s with stg := t.stg }

theorem OnlyStaging.trans {s t u : State} (h : OnlyStaging s t) (k : OnlyStaging t u) : OnlyStaging s u :=
  Eq.trans k (congrArg (fun x => { x with stg := u.stg }) h)

theorem OnlyStaging.keeps {s t : State} (h : OnlyStaging s t) : t.host = s.host ∧ t.obj = s.obj := by
  unfold OnlyStaging at h
  rw [h]
  exact ⟨rfl, rfl⟩

theorem dropLeaf_onlyStaging (s : State) (uid : Nat) : OnlyStaging s (dropLeaf s uid) := by
  unfold dropLeaf
  split
  · split <;> rfl
  · rfl

theorem dropLeaves_onlyStaging (s : State) (refs : List LeafRef) :
    OnlyStaging s (refs.foldl (fun s r => dropLeaf s r.uid) s) :=
  foldl_frame OnlyStaging (fun _ => rfl) (fun _ _ _ => OnlyStaging.trans) _ (fun s r => dropLeaf_onlyStaging s r.uid) refs s

/-- A session ended: its slot is free under the next generation, and only it and the staging differ. -/
theorem endSession_frees {s : State} {n : Nat} {y : Session} (h : sessOf s n = some y) :
    (endSession s n).host = s.host ∧ (endSession s n).obj.objs = s.obj.objs ∧
    (endSession s n).obj.slots[n]? = (s.obj.slots[n]?).map (fun sl => ⟨(sl.gen + 1) % 256, none⟩) ∧
    ∀ m, m ≠ n → (endSession s n).obj.slots[m]? = s.obj.slots[m]? := by
  have hend : endSession s n =
      onSlot (y.leaves.foldl (fun s r => dropLeaf s r.uid) s) n fun sl => ⟨(sl.gen + 1) % 256, none⟩ := by
    unfold endSession
    rw [show (s.obj.slots[n]?).bind (·.sess) = some y from h]
  obtain ⟨hhost, hobj⟩ := (dropLeaves_onlyStaging s y.leaves).keeps
  rw [hend]
  generalize y.leaves.foldl (fun s r => dropLeaf s r.uid) s = u at hhost hobj
  have hobjs : u.obj.objs = s.obj.objs := congrArg ObjS.objs hobj
  refine ⟨hhost, hobjs, ?_, fun m hm => ?_⟩
  · rw [slot_onSlot_same, hobj]
  · rw [slot_onSlot_other hm, hobj]

theorem putAbort_ends {s : State} {c : Fin 4096} {x : Ctx} {n : Nat} {y : Session} (h : Ready s c (isObj 0x88) x)
    (hs : sessionAt s x.entry.handle = some (n, y)) (hb : heldBefore s x.entry.handle x.accept = false) :
    putAbort s c = succeed (endSession s n) c 0 := by
  unfold putAbort
  rw [onTurn_ready h, hs]
  exact if_neg fun hheld => Bool.eq_false_iff.mp hb hheld.1

/-! ## The statement about put sessions -/

/-- Settles O26: Put Open is judged by its range and the free slots; a Put Data that is taken is staged or held; Put Abort ends its
session. -/
theorem putSessionsTakeBytes : Obligations.PutSessionsTakeBytes := by
  unfold Obligations.PutSessionsTakeBytes
  refine ⟨?_, ?_, ?_, ?_, ?_, ?_⟩
  · -- PUT_OPEN of a usable range with a slot free (R386)
    intro s c x h hu hl h256 ⟨m, hm, hfree⟩
    obtain ⟨n, hf⟩ := Option.ne_none_iff_exists'.mp fun hnone => freeSlot_eq_none.mp hnone m hm hfree
    obtain ⟨hn, hnone⟩ := freeSlot_free hf
    have hsl : s.obj.slots[n]? = some s.obj.slots[n] := List.getElem?_eq_getElem (h256.symm ▸ hn)
    obtain ⟨honly, hslot, hothers⟩ :=
      openSession_changes (s := s) n x.entry.key (dwBits x.entry.dw11 6 0) (x.entry.flags % 2 = 1) x.entry.argA false
    have ht := putOpen_opens h hu hl hf hsl
    have hctx := (ctxBy_congr (congrArg State.host honly) c).trans h.1
    refine ⟨_, n, s.obj.slots[n].gen, _, congrArg Host.Outcome.next ht, hn, hnone, congrArg (Option.map _) hsl,
      ended_succeed hctx _ [], sessOf_of_slot (hslot.trans (congrArg (Option.map _) hsl)), rfl, assignVersion_number s _, rfl,
      rfl, rfl, rfl, hothers, ?_⟩
    generalize (openSession s n _ _ _ _ _).1 = u at honly
    rw [honly]
    rfl
  · -- PUT_OPEN with every slot open (R386)
    intro s c x h hu hl hfull
    exact ⟨_, congrArg Host.Outcome.next (putOpen_full h hu hl (freeSlot_eq_none.mpr hfull)), refusedWith_refuse7 h.1 0x84 0⟩
  · -- PUT_OPEN of a range that is unusable, or locked (R386)
    intro s c x h
    refine ⟨fun hu => ?_, fun hu hl => ?_⟩
    · exact ⟨_, congrArg Host.Outcome.next (putOpen_unusable h hu), ended_finish h.1 0 2 0 [], onlyCtx_finish s c 0 2 0 []⟩
    · exact ⟨_, congrArg Host.Outcome.next (putOpen_locked h hu hl), ended_finish h.1 2 0x86 0 [],
        onlyCtx_finish s c 2 0x86 0 []⟩
  · -- PUT_DATA (R388, R389)
    intro s c data x n y h hs hdam hk hl len
    refine ⟨fun ha => ?_, ?_⟩
    · exact ⟨_, congrArg Host.Outcome.next (putData_misplaced h hs hdam hk hl ha), refusedWith_refuse7 h.1 0x85 _⟩
    intro ha h44 hcap u room
    have hhost : u.host = s.host := rfl
    have hx : ctxBy u c = some x := (ctxBy_congr hhost c).trans h.1
    have hd : c.val ∉ u.host.dataErr := by
      obtain ⟨-, -, -, hdata⟩ := h
      rwa [hhost]
    have hu : sessOf u n = some { y with accepted := y.accepted + len } := by
      rw [sessOf_onSession, sessOf_of_sessionAt hs]
      rfl
    have ht : putData s c data = putGo u c x n y data := putData_takes h hs hdam hk hl ha h44 hcap
    by_cases hroom : room
    · obtain ⟨hadmits, hbefore⟩ := hroom
      obtain ⟨v, refs, hv, hvhost, hobjs, hsess⟩ := putStage_stages (c := c) (x := x) (y := y) (data := data) hu
      have hctx : ctxBy v c = some x := (ctxBy_congr hvhost c).trans hx
      rw [putGo_stages hd ((heldBefore_congr hhost _ _).trans hbefore) hadmits, hv] at ht
      exact ⟨_, _, congrArg Host.Outcome.next ht, hsess, rfl, hobjs, fun _ => ⟨ended_succeed hctx 0 [], rfl⟩,
        fun hno => absurd ⟨hadmits, hbefore⟩ hno⟩
    · obtain ⟨hheld, hobjs, refs, hsess⟩ := holdWrite_holds hx hu
      rw [putGo_holds hd (by rwa [heldBefore_congr hhost])] at ht
      exact ⟨_, _, congrArg Host.Outcome.next ht, hsess, rfl, hobjs, fun hyes => absurd hyes hroom, fun _ => ⟨hheld, rfl⟩⟩
  · -- PUT_DATA of a held write that is admitted (R389)
    intro s c data x n y hx hop hp hd hs hk hb ha
    obtain ⟨v, refs, hv, hhost, -, hsess⟩ :=
      putStage_stages (c := c) (x := x) (y := y) (data := data) (sessOf_of_sessionAt hs)
    have hctx : ctxBy v c = some x := (ctxBy_congr hhost c).trans hx
    have ht : putData s c data = succeed v c 0 := (putData_held hx hop hp hs hk).trans ((putGo_stages hd hb ha).trans hv)
    exact ⟨_, _, congrArg Host.Outcome.next ht, ended_succeed hctx 0 [], hsess, rfl, rfl⟩
  · -- PUT_ABORT (R394)
    intro s c x n y h hs hb
    obtain ⟨hhost, hobjs, hslot, hothers⟩ := endSession_frees (sessOf_of_sessionAt hs)
    have hctx : ctxBy (endSession s n) c = some x := (ctxBy_congr hhost c).trans h.1
    refine ⟨_, congrArg Host.Outcome.next (putAbort_ends h hs hb), ended_succeed hctx 0 [], hslot.trans ?_, hothers, hobjs⟩
    rw [slot_of_sessionAt hs]
    rfl

end Sys2Proof.Machine
end

section
/-! PROOF. Put Commit: what it makes live, and the statement about it. -/
namespace Sys2Proof.Machine
open Sys2Proof

/-! ## A session's version made live (R393) -/

/-- A version that a session makes live, with the extents and the write sequence of its record. -/
def liveVersion (y : Session) (digest : List Byte) (hours : Nat) (extents : List Extent) (wseq : Nat) : Version :=
  { no := y.version, state := .live, lrange := y.lrange, hold := y.hold, retain := y.retain, hours := hours,
    length := y.accepted, digest := digest, extents := extents, wseq := wseq, damaged := false, pinned := false }

/-- A version entered in an object commutes with what the leaf store's operations do. -/
theorem KeepsRest.addVersion {s t : State} (h : KeepsRest s t) (key : List Byte) (v : Version) :
    KeepsRest (addVersion s key v) (addVersion t key v) := by
  have hboth := congrArg (Machine.addVersion · key v) h
  exact hboth

/-- A commit: but for the leaf store, the version enters its object and the slot is free. -/
theorem commitVersion_enters (s : State) (n : Nat) (y : Session) (d : List Byte) (accept : Nat) : ∃ es w u,
    KeepsRest (addVersion s y.key (liveVersion y d s.hours es w)) u ∧
    commitVersion s n y d accept = onSlot u n fun sl => ⟨(sl.gen + 1) % 256, none⟩ := by
  unfold commitVersion
  have hformed : KeepsRest s (y.leaves.foldl (fun s r => formLeaf s r.uid) s) :=
    .foldl (fun s (r : LeafRef) => formLeaf_keepsRest s r.uid) y.leaves s
  generalize y.leaves.foldl (fun s r => formLeaf s r.uid) s = t at hformed
  have hsequence : KeepsRest s (nextWseq t).2 := hformed
  rw [← hsequence.hours]
  refine ⟨refExtents (nextWseq t).2 (refsNow t y.leaves), (nextWseq t).1, _, ?_, rfl⟩
  exact (hsequence.addVersion y.key _).trans (idxWrite_keepsRest _ _ _ _)

/-- A commit seen from outside: the host's side, the objects of other keys and other versions stand, the version is there, and the
slot holds no session. -/
theorem commitVersion_commits {s : State} {y : Session} {o : Obj} (ho : objBy s y.key = some o) (n : Nat) (d : List Byte)
    (accept : Nat) : ∃ es w, (commitVersion s n y d accept).host = s.host ∧ sessOf (commitVersion s n y d accept) n = none ∧
      versionOf (commitVersion s n y d accept) y.key y.version = some (liveVersion y d s.hours es w) ∧
      (∀ key, key ≠ y.key → objBy (commitVersion s n y d accept) key = objBy s key) ∧
      ∀ no, no ≠ y.version → versionOf (commitVersion s n y d accept) y.key no = versionOf s y.key no := by
  obtain ⟨es, w, u, hu, hcommit⟩ := commitVersion_enters s n y d accept
  have hobj (key : List Byte) : objBy (commitVersion s n y d accept) key =
      (objBy s key).map fun o => if key = y.key then withVersion (liveVersion y d s.hours es w) o else o := by
    rw [hcommit]
    exact (hu.objBy key).trans (objBy_addVersion s y.key _ key)
  have hversion (no : Nat) : versionOf (commitVersion s n y d accept) y.key no =
      if no = y.version then some (liveVersion y d s.hours es w) else verBy o no := by
    unfold versionOf
    rw [hobj, ho, Option.map_some, if_pos rfl]
    exact verBy_withVersion _ o no
  refine ⟨es, w, ?_, ?_, ?_, fun key hkey => ?_, fun no hno => ?_⟩
  · rw [hcommit]
    exact hu.host
  · unfold sessOf
    rw [hcommit, slot_onSlot_same]
    cases u.obj.slots[n]? <;> rfl
  · rw [hversion, if_pos rfl]
  · simp [hobj, hkey]
  · unfold versionOf at hversion ⊢
    rw [hversion, if_neg hno, ho]
    rfl

/-! ## Put Commit judged (R391, R393) -/

theorem withRoom_admits {s : State} {f : State → State} (h : admits s (f s) = true) : withRoom s f = f s := if_pos h

theorem withRoom_waits {s : State} {f : State → State} (h : admits s (f s) = false) :
    withRoom s f = if s.pwr.wrHeld then s else writeHome s := if_neg (Bool.eq_false_iff.mp h)

section
variable {s : State} {c : Fin 4096} {x : Ctx} {n : Nat} {y : Session} {expected : List Byte} (h : Ready s c (isObj 0x85) x)
  (hs : sessionAt s x.entry.handle = some (n, y)) (hd : y.damaged = false) (hk : y.broken = false)
  (hl : writeLocked s y.lrange = false)
include h hs hd hk hl

/-- A ready Put Commit of an unbroken, unlocked session is judged by its length, its transfers and its digest. -/
theorem putCommit_judged : putCommit s c expected =
    if x.entry.argA ≠ y.accepted then refuse7 s c 0x89 (y.accepted % 2 ^ 32)
    else if y.absorbed.length ≠ y.accepted then s
    else if x.entry.flags % 2 = 1 ∧ expected ≠ shake256 y.absorbed 64 then refuse7 s c 0x88 0
    else withRoom s fun s => succeed (commitVersion s n y (shake256 y.absorbed 64) (x.accept + 1)) c y.version := by
  unfold putCommit
  rw [onTurn_ready h]
  dsimp only
  rw [hs]
  dsimp only
  rw [if_neg (Bool.eq_false_iff.mp hd), if_neg (Bool.eq_false_iff.mp hk), if_neg (Bool.eq_false_iff.mp hl)]

theorem putCommit_otherLength (ha : x.entry.argA ≠ y.accepted) :
    putCommit s c expected = refuse7 s c 0x89 (y.accepted % 2 ^ 32) := by
  rw [putCommit_judged h hs hd hk hl, if_pos ha]

section
variable (ha : x.entry.argA = y.accepted)
include ha

theorem putCommit_unabsorbed (hb : y.absorbed.length ≠ y.accepted) : putCommit s c expected = s := by
  rw [putCommit_judged h hs hd hk hl, if_neg (not_not.mpr ha), if_pos hb]

variable (hb : y.absorbed.length = y.accepted)
include hb

theorem putCommit_otherDigest (hf : x.entry.flags % 2 = 1) (he : expected ≠ shake256 y.absorbed 64) :
    putCommit s c expected = refuse7 s c 0x88 0 := by
  rw [putCommit_judged h hs hd hk hl, if_neg (not_not.mpr ha), if_neg (not_not.mpr hb), if_pos ⟨hf, he⟩]

theorem putCommit_whole (he : x.entry.flags % 2 = 1 → expected = shake256 y.absorbed 64) : putCommit s c expected =
    withRoom s fun s => succeed (commitVersion s n y (shake256 y.absorbed 64) (x.accept + 1)) c y.version := by
  rw [putCommit_judged h hs hd hk hl, if_neg (not_not.mpr ha), if_neg (not_not.mpr hb), if_neg fun hno => hno.2 (he hno.1)]

end

end

/-- Settles O27: a Put Commit is refused or waits, or, where its record is admitted, leaves what `commitVersion_commits` says. -/
theorem putCommitMakesVersionLive : Obligations.PutCommitMakesVersionLive := by
  unfold Obligations.PutCommitMakesVersionLive
  intro s c expected x n y o h hs hdam hk hl ho d u
  refine ⟨fun ha => ?_, fun ha hb => ?_, fun ha hb hf he => ?_, fun ha hb he hroom => ?_, fun ha hb he hroom => ?_⟩
  · exact ⟨_, congrArg Host.Outcome.next (putCommit_otherLength h hs hdam hk hl ha), refusedWith_refuse7 h.1 0x89 _⟩
  · exact congrArg Host.Outcome.next (putCommit_unabsorbed h hs hdam hk hl ha hb)
  · exact ⟨_, congrArg Host.Outcome.next (putCommit_otherDigest h hs hdam hk hl ha hb hf he), refusedWith_refuse7 h.1 0x88 0⟩
  · exact congrArg Host.Outcome.next ((putCommit_whole h hs hdam hk hl ha hb he).trans (withRoom_waits hroom))
  · have ht : putCommit s c expected = u := (putCommit_whole h hs hdam hk hl ha hb he).trans (withRoom_admits hroom)
    obtain ⟨es, w, hhost, hsess, hlive, hothers, hversions⟩ := commitVersion_commits ho n d (x.accept + 1)
    clear hroom
    unfold u at ht
    generalize commitVersion s n y d (x.accept + 1) = v at ht hhost hsess hlive hothers hversions
    have hctx : ctxBy v c = some x := (ctxBy_congr hhost c).trans h.1
    exact ⟨_, _, congrArg Host.Outcome.next ht, ended_succeed hctx _ [], hlive, rfl, rfl, rfl, rfl, rfl, rfl, rfl, hsess, hothers,
      hversions⟩

end Sys2Proof.Machine
end

section
/-! PROOF. Sync, Flush and Receipt, the completion of a waiting command, and the statement about them. -/
namespace Sys2Proof.Machine
open Sys2Proof

/-! ## Lengths of byte strings -/

@[simp] theorem length_leBytes (n v : Nat) : (leBytes n v).length = n := by
  induction n generalizing v with
  | zero => rfl
  | succ n ih => simp [leBytes, ih]

theorem length_padTo {n : Nat} {l : List Byte} (h : l.length ≤ n) : (padTo n l).length = n := by
  simp [padTo, Nat.add_sub_cancel' h]

theorem length_keccakF (a : List DWord) : (keccakF a).length = 25 := by
  have hround (a : List DWord) (rc : DWord) : (kRound a rc).length = 25 := by simp [kRound]
  have hfold (l : List DWord) (rc : DWord) : ((l ++ [rc]).foldl kRound a).length = 25 := by
    rw [List.foldl_append]
    exact hround _ rc
  exact hfold kRc.dropLast 0x8000000080008008

theorem length_kAbsorbAll (n : Nat) : ∀ (a : List DWord) (m : List Byte), a.length = 25 → (kAbsorbAll n a m).length = 25 := by
  induction n with
  | zero => exact fun _ _ h => h
  | succ n ih => exact fun a m _ => ih _ _ (length_keccakF _)

theorem length_kOut (n : Nat) : ∀ a : List DWord, a.length = 25 → (kOut n a).length = 136 * n := by
  induction n with
  | zero => exact fun _ _ => rfl
  | succ n ih =>
    intro a h
    have hblock : (kSqueeze a).length = 136 := by simp [kSqueeze, List.length_flatMap, h]
    rw [kOut, List.length_append, hblock, ih _ (length_keccakF a)]
    omega

theorem length_shake256 (m : List Byte) (n : Nat) : (shake256 m n).length = n := by
  have hstate := length_kAbsorbAll ((kPad m).length / 136) (List.replicate 25 0) (kPad m) List.length_replicate
  unfold shake256
  rw [List.length_take, length_kOut _ _ hstate]
  omega

/-- A receipt's body has the 416 bytes of Table 13.6. -/
theorem length_receiptBody {s : State} {kind : Nat} {key : List Byte} {oid : Nat} {v : Version}
    (hserial : s.sec.serial.length = 16) (hkey : key.length ≤ 256) (hdigest : v.digest.length ≤ 64) :
    (receiptBody s kind key oid v).length = 416 := by
  simp [receiptBody, length_padTo hkey, length_padTo hdigest, length_shake256, hserial, zeroBytes]

/-! ## Sync and Flush (R363, R398) -/

section
variable {s : State} {c : Fin 4096} {x : Ctx}

theorem waitFor_host (s : State) (c : Nat) (us : List Nat) :
    (waitFor s c us).host = (onCtx s c fun y => { y with phase := .waitDurable us }).host := by
  have hforced : (if s.pwr.banking then s else forceLeaves s us).host = s.host := by
    split
    · rfl
    · exact (forceLeaves_keepsRest s us).host
  unfold waitFor onCtx
  dsimp only
  rw [hforced]

theorem waitFor_waits (hx : ctxBy s c = some x) (us : List Nat) :
    (ctxBy (waitFor s c us) c).map (·.phase) = some (.waitDurable us) := by
  rw [ctxBy_congr (waitFor_host s c us), ctxBy_onCtx, if_pos rfl, hx]
  rfl

theorem sync_damaged {d : List Byte × Nat × Nat} (h : Ready s c (isObj 0x98) x)
    (hd : damagedCover s x false x.entry.key = some d) :
    sync s c = refuse7 { s with obj.damagedLeaves := s.obj.damagedLeaves.erase d } c 0x8C d.2.1 := by
  unfold sync
  rw [onTurn_ready h]
  dsimp only
  rw [hd]

theorem sync_waits (h : Ready s c (isObj 0x98) x) (hd : damagedCover s x false x.entry.key = none) :
    sync s c = waitFor s c ((s.stg.leaves.filter fun l =>
      covers x x.entry.key l && (zoneOfId l.objectId).isNone).map (·.uid)) := by
  unfold sync
  rw [onTurn_ready h]
  dsimp only
  rw [hd]

theorem flush_damaged {d : List Byte × Nat × Nat} (h : Ready s c (fun x => isIo x && decide (x.entry.opc = 0)) x)
    (hd : damagedCover s x true [] = some d) :
    flush s c = refuse7 { s with obj.damagedLeaves := s.obj.damagedLeaves.erase d } c 0x8C d.2.1 := by
  unfold flush
  rw [onTurn_ready h]
  dsimp only
  rw [hd]

/-- The leaves that a Flush covers. -/
def flushCovers (s : State) (x : Ctx) : List Nat := (s.stg.leaves.filter (covers x [])).map (·.uid)

theorem flushRecords_host (s : State) (c : Nat) (x : Ctx) : (flushRecords s c x).host = (waitFor s c (flushCovers s x)).host :=
  foldl_frame (fun s t => t.host = s.host) (fun _ => rfl) (fun _ _ _ h k => k.trans h) _
    (fun s z => zoneRecord_host s z (x.accept + 1)) _ _

/-- A Flush that is admitted, or that takes no zone record while writes are held, waits for the leaves it covers. -/
theorem flush_waits (h : Ready s c (fun x => isIo x && decide (x.entry.opc = 0)) x) (hd : damagedCover s x true [] = none)
    (hroom : s.pwr.wrHeld = true ∨ admits s (flushRecords s c x) = true) :
    (flush s c).host = (waitFor s c (flushCovers s x)).host := by
  unfold flush
  rw [onTurn_ready h]
  dsimp only
  rw [hd]
  dsimp only
  split
  · rfl
  · next hheld =>
    rw [withRoom_admits (f := fun s => flushRecords s c x) (hroom.resolve_left hheld)]
    exact flushRecords_host s c x

end

/-! ## A completion posted (R349, R351, R385) -/

theorem interrupt_keeps (s : State) (v : Nat) :
    (interrupt s v).host.ctxs = s.host.ctxs ∧ (interrupt s v).host.cqs = s.host.cqs := by
  unfold interrupt
  dsimp only
  split
  · exact ⟨rfl, rfl⟩
  · split
    · split <;> exact ⟨rfl, rfl⟩
    · split <;> exact ⟨rfl, rfl⟩

theorem acknowledge_host (s : State) (x : Ctx) (r : Completion) : (acknowledge s x r).host = s.host := by
  unfold acknowledge
  split
  · split <;> rfl
  · rfl

theorem ctxBy_freeCtx (s : State) (c : Nat) (x : Ctx) : ctxBy (freeCtx s c x) c = none :=
  Option.map_eq_none_iff.mpr <| List.find?_eq_none.mpr fun y hy => by
    simpa only [decide_eq_true_eq] using (List.mem_filter.mp hy).2

/-- A completion queue with an entry posted. -/
def postedCq (e : CqEntry) (q : CompQueue) : CompQueue := { q with tail := (q.tail + 1) % q.size, entries := q.entries ++ [e] }

/-- A success posted: its entry, what it acknowledges, its context freed, and the interrupt. -/
def posted (s : State) (c : Nat) (x : Ctx) (r : Completion) (qid : Nat) (cq : CompQueue) : State :=
  let t := acknowledge (freeCtx (onCompq s qid (postedCq ⟨x.sq, x.entry.cid, r⟩)) c x) x r
  if cq.irq then interrupt t cq.vector else t

theorem posted_host (s : State) (c : Nat) (x : Ctx) (r : Completion) (qid : Nat) (cq : CompQueue) :
    (posted s c x r qid cq).host.ctxs = (freeCtx s c x).host.ctxs ∧
    (posted s c x r qid cq).host.cqs = (onCompq s qid (postedCq ⟨x.sq, x.entry.cid, r⟩)).host.cqs := by
  have hack := acknowledge_host (freeCtx (onCompq s qid (postedCq ⟨x.sq, x.entry.cid, r⟩)) c x) x r
  unfold posted
  dsimp only
  split
  · obtain ⟨hctxs, hcqs⟩ :=
      interrupt_keeps (acknowledge (freeCtx (onCompq s qid (postedCq ⟨x.sq, x.entry.cid, r⟩)) c x) x r) cq.vector
    rw [hctxs, hcqs, hack]
    exact ⟨rfl, rfl⟩
  · rw [hack]
    exact ⟨rfl, rfl⟩

section
variable {s u : State} {c : Fin 4096} {x z : Ctx} {r : Completion} {y : SubQueue} {cq : CompQueue}

theorem ctxBy_posted (s : State) (c : Nat) (x : Ctx) (r : Completion) (qid : Nat) (cq : CompQueue) :
    ctxBy (posted s c x r qid cq) c = none := by
  have hfreed := ctxBy_freeCtx s c x
  unfold ctxBy at hfreed ⊢
  rwa [(posted_host s c x r qid cq).1]

theorem cqBy_posted {qid : Nat} (hq : cqBy s qid = some cq) (c : Nat) (x : Ctx) (r : Completion) (q : CompQueue) :
    cqBy (posted s c x r qid q) qid = some (postedCq ⟨x.sq, x.entry.cid, r⟩ cq) := by
  have hentry := cqBy_onCompq s qid qid (postedCq ⟨x.sq, x.entry.cid, r⟩)
  rw [if_pos rfl, hq] at hentry
  unfold cqBy at hentry ⊢
  rwa [(posted_host s c x r qid q).2]

/-- A command that is no outstanding one settles; where it has ended with success, its completion may be posted and its queue has
room, that completion is posted. -/
theorem completionPost_posts (hx : ctxBy s c = some x) (ho : x.phase ≠ .outstanding) (hsettle : settleCtx s c = u)
    (hz : ctxBy u c = some z) (hdone : z.phase = .done r) (hr : r.sct = 0 ∧ r.sc = 0) (hsq : sqBy u z.sq = some y)
    (hcq : cqBy u y.cq = some cq) (hroom : (cq.tail + 1) % cq.size ≠ cq.head) (hd : c.val ∉ u.host.dataErr)
    (hpost : mayPost u z = true) : completionPost s c = posted u c z r y.cq cq := by
  have hfirst : (if isAdmin 0 x ∧ x.phase = .outstanding ∧ ¬ s.flt.class3 then postAbort s (dwBits x.entry.dw10 15 0)
      else s) = s := if_neg fun h => ho h.2.1
  have hqueue : ((sqBy u z.sq).bind fun q => (cqBy u q.cq).map fun cq => (q.cq, cq)) = some (y.cq, cq) := by
    rw [hsq, Option.bind_some, hcq, Option.map_some]
  have hdata : (if c.val ∈ u.host.dataErr ∧ r.data ≠ [] then ⟨0, 4, 0, r.dw1, []⟩ else r) = r := if_neg fun h => hd h.1
  unfold completionPost
  simp only [hx, hfirst, hsettle, hz, hdone, hqueue, hdata]
  rw [if_neg (not_not.mpr hpost), if_neg hroom, if_pos hr]
  rfl

/-- A command whose covered leaves are all clean has ended. -/
theorem settleCtx_durable {us : List Nat} (hx : ctxBy s c = some x) (hp : x.phase = .waitDurable us)
    (hclean : ∀ u ∈ us, ∀ l, stagedBy s u = some l → l.dirty = false) : settleCtx s c = succeed s c 0 := by
  have hall : us.all (fun u => !(stagedBy s u).any (·.dirty)) = true := by
    refine List.all_eq_true.mpr fun u hu => ?_
    cases hl : stagedBy s u with
    | none => rfl
    | some l => simp [hclean u hu l hl]
  unfold settleCtx
  simp only [hx, hp]
  exact if_pos hall

end

/-! ## Receipts (R412, R467) -/

/-- A receipt whose signing has ended is returned signed. -/
theorem receiptSign_signs {s : State} {c : Nat} (hm : maySign s = true) (hop : s.sec.op = some (.signing (some c)))
    (hretry : s.sec.opRetry = false) (kind : Nat) (o : Obj) (v : Version) : receiptSign s c kind o v =
      let r := receiptBody s kind o.key o.id v ++ falconSig s (shake256 (receiptBody s kind o.key o.id v) 64)
      succeed { s with sec.op := none, freeCtr := s.freeCtr + 1 } c r.length r := by
  unfold receiptSign signStep hsStep
  rw [if_neg (not_not.mpr hm), hop]
  exact if_pos ⟨rfl, Bool.eq_false_iff.mp hretry⟩

theorem receiptCmd_checked {s : State} {c : Fin 4096} {x : Ctx} {o : Obj} {v : Version} (hx : ctxBy s c = some x)
    (hop : isObj 0x9E x = true) (hp : x.phase = .reading o.id v.no) (hc : x.checked = true)
    (ho : (s.obj.objs.find? fun q => q.id = o.id) = some o) (hv : verBy o v.no = some v) :
    receiptCmd s c = receiptSign s c (1 + x.entry.flags % 2) o v := by
  unfold receiptCmd
  simp only [hx, hp]
  rw [if_neg (not_not.mpr hop)]
  unfold receiptGo
  rw [ho]
  dsimp only
  rw [hv]
  exact if_pos hc

/-! ## The statement about Sync, Flush and Receipt -/

/-- Settles O30: Sync and Flush wait for what they cover, a wait that is over is posted, and a checked Receipt is signed. -/
theorem syncFlushReceipt : Obligations.SyncFlushReceipt := by
  unfold Obligations.SyncFlushReceipt
  refine ⟨?_, ?_, ?_, ?_, ?_, ?_⟩
  · -- SYNC waits (R398)
    intro s c x h hd
    refine ⟨_, _, congrArg Host.Outcome.next (sync_waits h hd), waitFor_waits h.1 _, fun u => ?_⟩
    simp only [List.mem_map, List.mem_filter, Bool.and_eq_true, Option.isNone_iff_eq_none]
    exact exists_congr fun l =>
      ⟨fun ⟨⟨hl, hcov, hz⟩, hu⟩ => ⟨hl, hu, hcov, hz⟩, fun ⟨hl, hu, hcov, hz⟩ => ⟨⟨hl, hcov, hz⟩, hu⟩⟩
  · -- SYNC told of a damaged leaf (R399)
    intro s c x d h hd
    exact ⟨_, congrArg Host.Outcome.next (sync_damaged h hd), ended_finish h.1 7 0x8C _ [], rfl⟩
  · -- FLUSH waits (R363)
    intro s c x h hd hroom
    refine ⟨_, flushCovers s x, rfl, ?_, fun u => ?_⟩
    · exact (congrArg (Option.map _) (ctxBy_congr (flush_waits h hd hroom) c)).trans (waitFor_waits h.1 _)
    · simp only [flushCovers, List.mem_map, List.mem_filter]
      exact exists_congr fun l => ⟨fun ⟨⟨hl, hcov⟩, hu⟩ => ⟨hl, hu, hcov⟩, fun ⟨hl, hu, hcov⟩ => ⟨⟨hl, hcov⟩, hu⟩⟩
  · -- FLUSH told of a damaged leaf (R399)
    intro s c x d h hd
    exact ⟨_, congrArg Host.Outcome.next (flush_damaged h hd), ended_finish h.1 7 0x8C _ [], rfl⟩
  · -- COMPLETION_POST of a wait that is over (R351, R398)
    intro s c x us y cq hx hp hclean _ hsq hcq hroom hd hpost
    have hend : ctxBy (succeed s c 0) c = some { x with phase := .done (endOf x 0 0 0 []) } := by
      unfold succeed finish
      rw [ctxBy_onCtx, if_pos rfl, hx]
      rfl
    have hwaiting : x.phase ≠ .outstanding := by
      rw [hp]
      exact fun e => nomatch e
    have hcq' : cqBy (succeed s c 0) y.cq = some cq := hcq
    have ht := completionPost_posts hx hwaiting (settleCtx_durable hx hp hclean) hend rfl ⟨rfl, rfl⟩ hsq hcq' hroom hd hpost
    exact ⟨_, congrArg Host.Outcome.next ht, ctxBy_posted _ _ _ _ _ _, congrArg (Option.map _) (cqBy_posted hcq' _ _ _ _)⟩
  · -- RECEIPT (R412, R467)
    intro s c x o v hx hop hp hc ho hv hm hsign hretry r
    have ht := (receiptCmd_checked hx hop hp hc ho hv).trans (receiptSign_signs hm hsign hretry _ o v)
    exact ⟨_, congrArg Host.Outcome.next ht, ended_succeed hx _ _, rfl, length_receiptBody⟩

end Sys2Proof.Machine
end

section
/-! PROOF. What the leaf store's operations leave of the zones, and zones read after they change. -/
namespace Sys2Proof.Machine
open Sys2Proof

/-! ## The host's side and the zones kept -/

/-- The host's side stands, and of the zones at most the places of their leaves differ. -/
def KeepsZones (s t : State) : Prop := t.host = s.host ∧ t.zns.zones.map unplacedZone = s.zns.zones.map unplacedZone

namespace KeepsZones

theorem refl (s : State) : KeepsZones s s := ⟨rfl, rfl⟩

theorem trans {s t u : State} (h : KeepsZones s t) (k : KeepsZones t u) : KeepsZones s u :=
  ⟨k.1.trans h.1, k.2.trans h.2⟩

theorem foldl {α : Type} {f : State → α → State} (hf : ∀ s a, KeepsZones s (f s a)) (l : List α) (s : State) :
    KeepsZones s (l.foldl f s) :=
  foldl_frame KeepsZones refl (fun _ _ _ => trans) f hf l s

theorem length {s t : State} (h : KeepsZones s t) : t.zns.zones.length = s.zns.zones.length := by
  simpa using congrArg List.length h.2

end KeepsZones

theorem KeepsRest.keepsZones {s t : State} (h : KeepsRest s t) : KeepsZones s t := ⟨h.host, h.read (·.zns.zones)⟩

/-- A zone by number, without the places of its leaves. -/
theorem unplacedZone_zoneBy (s : State) (z : Nat) :
    unplacedZone (zoneBy s z) = (s.zns.zones.map unplacedZone).getD z default := by
  simp only [zoneBy, List.getD_eq_getElem?_getD, List.getElem?_map]
  cases s.zns.zones[z]? <;> rfl

theorem state_wp_of_unplacedZone {a b : Zone} (h : unplacedZone a = unplacedZone b) : a.state = b.state ∧ a.wp = b.wp :=
  ⟨(congrArg Zone.state h :), (congrArg Zone.wp h :)⟩

theorem KeepsZones.zone {s t : State} (h : KeepsZones s t) (z : Nat) :
    unplacedZone (zoneBy t z) = unplacedZone (zoneBy s z) := by
  rw [unplacedZone_zoneBy, unplacedZone_zoneBy, h.2]

theorem groupFull_keepsRest (s : State) (gid : Nat) : KeepsRest s (groupFull s gid) :=
  .trans (t := groupDue (onGroup s gid fun g => { g with state := .full }) gid) rfl (idxPending_keepsRest _)

theorem freeGroup_keepsZones (s : State) (gid : Nat) : KeepsZones s (freeGroup s gid) := by
  unfold freeGroup
  split
  · exact .refl s
  · exact .trans (t := idxPending (groupDue (onGroup s gid fun g => { g with state := .freed }) gid))
      (KeepsRest.keepsZones (.trans (t := groupDue (onGroup s gid fun g => { g with state := .freed }) gid) rfl
        (idxPending_keepsRest _))) ⟨rfl, rfl⟩

theorem dropLeaves_keepsZones (s : State) (refs : List LeafRef) :
    KeepsZones s (refs.foldl (fun s r => dropLeaf s r.uid) s) := by
  have h := dropLeaves_onlyStaging s refs
  unfold OnlyStaging at h
  rw [h]
  exact ⟨rfl, rfl⟩

/-! ## A zone changed -/

theorem length_onZone (s : State) (z : Nat) (f : Zone → Zone) : (onZone s z f).zns.zones.length = s.zns.zones.length := by
  simp [onZone]

theorem zoneBy_onZone_same {s : State} {z : Nat} (h : z < s.zns.zones.length) (f : Zone → Zone) :
    zoneBy (onZone s z f) z = f (zoneBy s z) := by
  simp [zoneBy, onZone, List.getD_eq_getElem?_getD, List.getElem?_zipIdx, List.getElem?_eq_getElem h]

theorem zoneBy_onZone_other {y z : Nat} (h : y ≠ z) (s : State) (f : Zone → Zone) : zoneBy (onZone s z f) y = zoneBy s y := by
  simp only [zoneBy, onZone, List.getD_eq_getElem?_getD, List.getElem?_map, List.getElem?_zipIdx]
  cases s.zns.zones[y]? <;> simp [h]

/-! ## Zones taken through a change -/

/-- Each zone of a list has changed as `R` says, seen through `v`; of the other zones, and of what `g` reads, nothing differs. -/
structure ZonesTaken {α : Type} (g : State → α) (v : Zone → Zone) (R : Zone → Zone → Prop) (zs : List Nat)
    (s t : State) : Prop where
  keeps : g t = g s
  length : t.zns.zones.length = s.zns.zones.length
  takes : ∀ z ∈ zs, R (v (zoneBy s z)) (v (zoneBy t z))
  others : ∀ y, y ∉ zs → v (zoneBy t y) = v (zoneBy s y)

namespace ZonesTaken

section
variable {α : Type} {g : State → α} {v : Zone → Zone} {R Q P : Zone → Zone → Prop} {zs : List Nat} {s t u : State}

/-- Two changes of the same zones, one after the other. -/
theorem comp (h : ZonesTaken g v R zs s t) (k : ZonesTaken g v Q zs t u) (hP : ∀ a b c, R a b → Q b c → P a c) :
    ZonesTaken g v P zs s u :=
  ⟨k.keeps.trans h.keeps, k.length.trans h.length, fun z hz => hP _ _ _ (h.takes z hz) (k.takes z hz),
    fun y hy => (k.others y hy).trans (h.others y hy)⟩

/-- A zone taken, then others. -/
theorem cons {z : Nat} (hz : z ∉ zs) (h : ZonesTaken g v R [z] s t) (k : ZonesTaken g v R zs t u) :
    ZonesTaken g v R (z :: zs) s u := by
  refine ⟨k.keeps.trans h.keeps, k.length.trans h.length, fun y hy => ?_, fun y hy => ?_⟩
  · obtain rfl | hy := List.mem_cons.mp hy
    · rw [k.others y hz]
      exact h.takes y (List.mem_singleton_self y)
    · have hne : y ≠ z := fun e => hz (e ▸ hy)
      rw [← h.others y (List.mem_singleton.not.mpr hne)]
      exact k.takes y hy
  · obtain ⟨hne, hy⟩ := not_or.mp (List.mem_cons.not.mp hy)
    rw [k.others y hy, h.others y (List.mem_singleton.not.mpr hne)]

end

theorem of_keepsZones {s t : State} (h : KeepsZones s t) (zs : List Nat) :
    ZonesTaken State.host unplacedZone (fun a b => b = a) zs s t :=
  ⟨h.1, h.length, fun z _ => h.zone z, fun y _ => h.zone y⟩

theorem onZone {α : Type} {g : State → α} {v : Zone → Zone} {R : Zone → Zone → Prop} {s : State} {z : Nat}
    (h : z < s.zns.zones.length) {f : Zone → Zone} (hg : g (onZone s z f) = g s) (hR : R (v (zoneBy s z)) (v (f (zoneBy s z)))) :
    ZonesTaken g v R [z] s (onZone s z f) := by
  refine ⟨hg, length_onZone s z f, fun y hy => ?_, fun y hy => ?_⟩
  · rw [List.mem_singleton.mp hy, zoneBy_onZone_same h]
    exact hR
  · rw [zoneBy_onZone_other (List.mem_singleton.not.mp hy)]

end ZonesTaken

end Sys2Proof.Machine
end

section
/-! PROOF. A Zone Management Send over its zones, its actions, and the statement about them. -/
namespace Sys2Proof.Machine
open Sys2Proof

/-! ## The zones named (R422 to R424) -/

section
variable {s : State} {e : SqEntry} {sel : Zone → Bool} {z : Nat} {zs : List Nat}

theorem zmsZones_one (hall : dwBits e.dw13 8 8 = 0) (hz : e.slba = z * zoneLbas) (hlt : z < s.zns.zones.length) :
    zmsZones s e sel = some [z] := by
  have hpos : 0 < zoneLbas := by decide
  have hin : e.slba < znsSize s := hz ▸ Nat.mul_lt_mul_of_pos_right hlt hpos
  have hstart : e.slba % zoneLbas = 0 := hz ▸ Nat.mul_mod_left z zoneLbas
  unfold zmsZones
  rw [if_neg (by omega), if_neg (by omega), hz, Nat.mul_div_cancel z hpos]

theorem zmsZones_all (hall : dwBits e.dw13 8 8 = 1) :
    zmsZones s e sel = some ((List.range s.zns.zones.length).filter fun z => sel (zoneBy s z)) := if_pos hall

theorem zmsZones_misplaced (hall : dwBits e.dw13 8 8 = 0) (h : znsSize s ≤ e.slba ∨ e.slba % zoneLbas ≠ 0) :
    zmsZones s e sel = none := by
  unfold zmsZones
  rw [if_neg (by omega), if_pos h]

/-- A Zone Management Send names one zone, or zones of the states it takes. -/
theorem zmsZones_cases (h : zmsZones s e sel = some zs) :
    (∃ z, zs = [z]) ∨ zs = (List.range s.zns.zones.length).filter fun z => sel (zoneBy s z) := by
  unfold zmsZones at h
  split at h
  · exact .inr (Option.some.inj h).symm
  · split at h
    · cases h
    · exact .inl ⟨_, (Option.some.inj h).symm⟩

theorem zmsZones_nodup (h : zmsZones s e sel = some zs) : zs.Nodup := by
  obtain ⟨z, rfl⟩ | rfl := zmsZones_cases h
  · exact List.nodup_singleton z
  · exact List.nodup_range.filter _

end

/-! ## Its zones one after the other -/

/-- A fold that stops at the first error, as a fold of the exception monad. -/
theorem foldl_ok_eq_foldlM {α ε σ : Type} {f : Except ε σ → α → Except ε σ} {step : σ → α → Except ε σ}
    (hok : ∀ s a, f (.ok s) a = step s a) (herr : ∀ e a, f (.error e) a = .error e) (l : List α) :
    ∀ s, l.foldl f (.ok s) = l.foldlM step s := by
  have hstays (l : List α) (e : ε) : l.foldl f (.error e) = .error e := by
    induction l with
    | nil => rfl
    | cons a l ih => rw [List.foldl_cons, herr, ih]
  induction l with
  | nil => exact fun _ => rfl
  | cons a l ih =>
    intro s
    rw [List.foldl_cons, hok, List.foldlM_cons]
    cases step s a with
    | error e => exact hstays l e
    | ok t => exact ih t

section
variable {s t : State} {c : Nat} {e : SqEntry} {sel : Zone → Bool} {step : State → Nat → Except Nat State} {zs : List Nat}

theorem zmsRun_misplaced (h : zmsZones s e sel = none) :
    zmsRun s c e sel step = if znsSize s ≤ e.slba then finish s c 0 0x80 0 else invalidField s c := by
  unfold zmsRun
  rw [h]

theorem zmsRun_ok (h : zmsZones s e sel = some zs) (hsteps : zs.foldlM step s = .ok t) :
    zmsRun s c e sel step = succeed t c 0 := by
  unfold zmsRun
  rw [h]
  dsimp only
  rw [foldl_ok_eq_foldlM (step := step) (fun _ _ => rfl) (fun _ _ => rfl) zs s, hsteps]

theorem zmsRun_error {sc : Nat} (h : zmsZones s e sel = some zs) (hsteps : zs.foldlM step s = .error sc) :
    zmsRun s c e sel step = zoneStatus s c sc := by
  unfold zmsRun
  rw [h]
  dsimp only
  rw [foldl_ok_eq_foldlM (step := step) (fun _ _ => rfl) (fun _ _ => rfl) zs s, hsteps]

end

section
variable {α : Type} {g : State → α} {v : Zone → Zone} {R : Zone → Zone → Prop} {ready : Zone → Prop}
  {step : State → Nat → Except Nat State}

/-- Zones that are each ready for a step are all taken through it, since a step leaves the other zones ready. -/
theorem foldlM_zonesTaken
    (hstep : ∀ s z, z < s.zns.zones.length → ready (v (zoneBy s z)) → ∃ t, step s z = .ok t ∧ ZonesTaken g v R [z] s t) :
    ∀ (zs : List Nat) (s : State), zs.Nodup → (∀ z ∈ zs, z < s.zns.zones.length) → (∀ z ∈ zs, ready (v (zoneBy s z))) →
      ∃ t, zs.foldlM step s = .ok t ∧ ZonesTaken g v R zs s t := by
  intro zs
  induction zs with
  | nil => exact fun s _ _ _ => ⟨s, rfl, rfl, rfl, fun _ h => absurd h List.not_mem_nil, fun _ _ => rfl⟩
  | cons z zs ih =>
    intro s hnodup hlt hready
    obtain ⟨hz, hnodup⟩ := List.nodup_cons.mp hnodup
    obtain ⟨t, hst, htaken⟩ := hstep s z (hlt z List.mem_cons_self) (hready z List.mem_cons_self)
    obtain ⟨u, htu, hrest⟩ := ih t hnodup (fun y hy => htaken.length ▸ hlt y (List.mem_cons_of_mem z hy)) fun y hy => by
      rw [htaken.others y (List.mem_singleton.not.mpr fun e => hz (e ▸ hy))]
      exact hready y (List.mem_cons_of_mem z hy)
    refine ⟨u, ?_, htaken.cons hz hrest⟩
    rw [List.foldlM_cons, hst]
    exact htu

end

/-! ## A zone leaves Empty (R415) -/

/-- A zone formed: in the state asked for, its write pointer where it was. -/
theorem zoneForm_takes {s u : State} {z : Nat} {st : ZoneState} (hlt : z < s.zns.zones.length) (h : zoneForm s z st = some u) :
    ZonesTaken State.host unplacedZone (fun a b => b.state = st ∧ b.wp = a.wp) [z] s u := by
  have hformed := (formGroup_keepsRest s .data (some z)).keepsZones
  unfold zoneForm at h
  generalize formGroup s .data (some z) = formed at h hformed
  obtain ⟨t, _ | grp⟩ := formed
  · cases h
  · have hzone : ZonesTaken State.host unplacedZone (fun a b => b.state = st ∧ b.wp = a.wp) [z] t
        (onZone t z fun x => { x with state := st, zcap := grp.k * 65536 }) :=
      .onZone (hformed.length.symm ▸ hlt) rfl ⟨rfl, rfl⟩
    rw [← Option.some.inj h]
    exact (ZonesTaken.of_keepsZones hformed [z]).comp hzone fun _ _ _ hab hbc => hab ▸ hbc

/-! ## Finish and Reset of one zone (R423, R424) -/

/-- A zone after its Finish: Full, its write pointer at its capacity. -/
def ZoneEnded (a b : Zone) : Prop := b.state = .full ∧ b.wp = b.zcap ∧ b.zcap = a.zcap

/-- A zone that its record leaves in its state, at its write pointer and capacity. -/
def ZoneStands (a b : Zone) : Prop := b.state = a.state ∧ b.wp = a.wp ∧ b.zcap = a.zcap

theorem zoneRecs_takes {s : State} {z : Nat} (hlt : z < s.zns.zones.length) :
    ZonesTaken State.host unplacedZone ZoneStands [z] s (zoneRecs s z).1 := by
  have hformed : KeepsZones s (nextWseq ((zoneBy s z).leaves.foldl (fun s r => formLeaf s r.uid) s)).2 :=
    KeepsRest.keepsZones (.foldl (fun s (r : LeafRef) => formLeaf_keepsRest s r.uid) _ s)
  have hrecorded (u : State) (hltu : z < u.zns.zones.length) (w hours : Nat) : ZonesTaken State.host unplacedZone ZoneStands [z] u
      (onZone u z fun x => { x with recordWseq := w, recLen := x.written, recHours := hours }) :=
    .onZone hltu rfl ⟨rfl, rfl, rfl⟩
  exact (ZonesTaken.of_keepsZones hformed [z]).comp (hrecorded _ (hformed.length.symm ▸ hlt) _ _)
    fun _ _ _ hab hbc => hab ▸ hbc

theorem zoneRecord_takes {s : State} {z : Nat} (hlt : z < s.zns.zones.length) (accept : Nat) :
    ZonesTaken State.host unplacedZone ZoneStands [z] s (zoneRecord s z accept) :=
  (zoneRecs_takes hlt).comp (.of_keepsZones (idxWrite_keepsRest _ _ accept _).keepsZones [z]) fun _ _ _ hab hbc => hbc ▸ hab

theorem zoneEnd_takes {s : State} {z : Nat} (hlt : z < s.zns.zones.length) (accept : Nat) :
    ZonesTaken State.host unplacedZone ZoneEnded [z] s (zoneEnd s z accept) := by
  unfold zoneEnd zoneFilled
  dsimp only
  generalize ht : (zoneBy s z).leaves.foldl (fun s r => formLeaf s r.uid) s = t
  have hformed : KeepsRest s t := ht ▸ .foldl (fun s (r : LeafRef) => formLeaf_keepsRest s r.uid) _ s
  generalize hu : (zoneGroups t z).foldl (fun s g => groupFull (closeStripe s g) g) t = u
  have hclosed : KeepsRest t u :=
    hu ▸ .foldl (fun s g => (closeStripe_keepsRest s g).trans (groupFull_keepsRest _ g)) _ t
  have hkeeps := (hformed.trans hclosed).keepsZones
  have hltu : z < u.zns.zones.length := hkeeps.length.symm ▸ hlt
  have hwp : ZonesTaken State.host unplacedZone (fun a b => b.wp = b.zcap ∧ b.zcap = a.zcap) [z] s
      (onZone u z fun y => { y with wp := y.zcap }) :=
    (ZonesTaken.of_keepsZones hkeeps [z]).comp (.onZone hltu rfl ⟨rfl, rfl⟩) fun _ _ _ hab hbc => hab ▸ hbc
  generalize onZone u z (fun y => { y with wp := y.zcap }) = w at hwp
  have hltw : z < w.zns.zones.length := hwp.length.symm ▸ hlt
  have hfull : ZonesTaken State.host unplacedZone ZoneEnded [z] s (onZone w z fun x => { x with state := .full }) :=
    hwp.comp (Q := fun a b => b = { a with state := .full }) (.onZone hltw rfl rfl) fun _ _ _ hab hbc => by
      subst hbc
      exact ⟨rfl, hab⟩
  exact hfull.comp (zoneRecord_takes (hfull.length.symm ▸ hlt) accept) fun _ _ _ hab hbc => by
    obtain ⟨hstate, hpos, hcap⟩ := hab
    obtain ⟨kstate, kwp, kcap⟩ := hbc
    exact ⟨kstate.trans hstate, kwp.trans (hpos.trans kcap.symm), kcap.trans hcap⟩

/-- What a Finish makes of a zone that is not Empty. -/
def ZoneFinished (a b : Zone) : Prop :=
  b.state = .full ∧ (a.state ≠ .full → b.wp = b.zcap) ∧ (a.state ≠ .empty → b.zcap = a.zcap)

theorem finishOne_takes {s : State} {z : Nat} (hlt : z < s.zns.zones.length)
    (hform : (zoneBy s z).state = .empty → zoneForm s z .full ≠ none) (accept : Nat) :
    ∃ t, finishOne accept s z = .ok t ∧ ZonesTaken State.host unplacedZone ZoneFinished [z] s t := by
  unfold finishOne
  split
  · next hfull =>
    refine ⟨s, rfl, rfl, rfl, fun y hy => ?_, fun _ _ => rfl⟩
    obtain rfl := List.mem_singleton.mp hy
    exact ⟨hfull, fun h => absurd hfull h, fun _ => rfl⟩
  · next hempty =>
    obtain ⟨u, hu⟩ := Option.ne_none_iff_exists'.mp (hform hempty)
    have hformed := zoneForm_takes hlt hu
    have hend := hformed.comp (zoneEnd_takes (hformed.length.symm ▸ hlt) accept)
      (P := fun _ b => b.state = .full ∧ b.wp = b.zcap) fun _ _ _ _ hbc => ⟨hbc.1, hbc.2.1⟩
    rw [hu]
    refine ⟨_, rfl, hend.keeps, hend.length, fun y hy => ?_, hend.others⟩
    obtain ⟨hstate, hwp⟩ := hend.takes y hy
    obtain rfl := List.mem_singleton.mp hy
    exact ⟨hstate, fun _ => hwp, fun h => absurd hempty h⟩
  · have hend := zoneEnd_takes hlt accept
    refine ⟨_, rfl, hend.keeps, hend.length, fun y hy => ?_, hend.others⟩
    obtain ⟨hstate, hwp, hcap⟩ := hend.takes y hy
    exact ⟨hstate, fun _ => hwp, fun _ => hcap⟩

theorem finishOne_unformed {s : State} {z accept : Nat} (hempty : (zoneBy s z).state = .empty)
    (hform : zoneForm s z .full = none) : finishOne accept s z = .error 0xBD := by
  unfold finishOne
  rw [hempty]
  dsimp only
  rw [hform]

/-- What a Reset makes of a zone. -/
def ZoneWasReset (a b : Zone) : Prop := b.state = .empty ∧ (a.state ≠ .empty → b.wp = 0 ∧ b.resets = a.resets + 1)

theorem zoneEmptied_takes {s : State} {z : Nat} (hlt : z < s.zns.zones.length) (accept : Nat) :
    ZonesTaken State.host unplacedZone ZoneWasReset [z] s (zoneEmptied s z accept) := by
  unfold zoneEmptied
  dsimp only
  generalize ht : (zoneBy s z).leaves.foldl (fun s r => dropLeaf s r.uid) s = t
  have hdropped : KeepsZones s (nextWseq t).2 := ht ▸ dropLeaves_keepsZones s _
  generalize hu : idxWrite _ (zoneKey z) accept _ = u
  have hrecorded : KeepsZones (nextWseq t).2 u := hu ▸ (idxWrite_keepsRest _ _ _ _).keepsZones
  generalize hw : (zoneGroups u z).foldl freeGroup u = w
  have hfreed : KeepsZones u w := hw ▸ .foldl freeGroup_keepsZones _ u
  have hkeeps : KeepsZones s { w with zns.damage := w.zns.damage.filter fun d => d.1 ≠ z } :=
    ((hdropped.trans hrecorded).trans hfreed).trans ⟨rfl, rfl⟩
  generalize { w with zns.damage := w.zns.damage.filter fun d => d.1 ≠ z : State } = x at hkeeps
  have hfresh := zoneBy_onZone_same (hkeeps.length.symm ▸ hlt)
    fun _ => { (default : Zone) with resets := (zoneBy s z).resets + 1 }
  refine ⟨hkeeps.1, (length_onZone x z _).trans hkeeps.length, fun y hy => ?_, fun y hy => ?_⟩
  · obtain rfl := List.mem_singleton.mp hy
    rw [hfresh]
    exact ⟨rfl, fun _ => ⟨rfl, rfl⟩⟩
  · rw [zoneBy_onZone_other (List.mem_singleton.not.mp hy)]
    exact hkeeps.zone y

theorem resetOne_takes (accept : Nat) (s : State) (z : Nat) (hlt : z < s.zns.zones.length) :
    ∃ t, resetOne accept s z = .ok t ∧ ZonesTaken State.host unplacedZone ZoneWasReset [z] s t := by
  refine ⟨_, rfl, ?_⟩
  split
  · next hempty =>
    refine ⟨rfl, rfl, fun y hy => ?_, fun _ _ => rfl⟩
    obtain rfl := List.mem_singleton.mp hy
    exact ⟨hempty, fun h => absurd hempty h⟩
  · exact zoneEmptied_takes hlt accept

/-! ## Open and Close of one zone (R422) -/

theorem openOne_opens {s : State} {z : Nat}
    (h : (zoneBy s z).state = .implicitOpen ∨ (zoneBy s z).state = .explicitOpen ∨ (zoneBy s z).state = .closed) :
    openOne s z = .ok (onZone s z fun y => { y with state := .explicitOpen }) := by
  unfold openOne
  obtain h | h | h := h <;> rw [h]

theorem openOne_full {s : State} {z : Nat} (h : (zoneBy s z).state = .full) : openOne s z = .error 0xBF := by
  unfold openOne
  rw [h]

theorem openOne_empty_active {s : State} {z : Nat} (h : (zoneBy s z).state = .empty) (hactive : 16 ≤ activeZones s) :
    openOne s z = .error 0xBD := by
  unfold openOne
  rw [h]
  exact if_pos hactive

theorem openOne_empty {s u : State} {z : Nat} (h : (zoneBy s z).state = .empty) (hactive : activeZones s < 16)
    (hform : zoneForm s z .explicitOpen = some u) : openOne s z = .ok u := by
  unfold openOne
  rw [h]
  dsimp only
  rw [if_neg (Nat.not_le.mpr hactive), hform]

theorem closeOne_closes {s : State} {z : Nat} (hne : (zoneBy s z).state ≠ .empty) (hnf : (zoneBy s z).state ≠ .full) :
    closeOne s z = .ok (onZone s z fun y => { y with state := .closed }) := by
  unfold closeOne
  split
  · next h => exact absurd h hne
  · next h => exact absurd h hnf
  · rfl

theorem closeOne_refuses {s : State} {z : Nat} (h : (zoneBy s z).state = .empty ∨ (zoneBy s z).state = .full) :
    closeOne s z = .error 0xBF := by
  unfold closeOne
  obtain h | h := h <;> rw [h]

/-! ## What a Zone Management Send leaves -/

section
variable {s t : State} {c : Nat} {x : Ctx} (hx : ctxBy s c = some x) {sel : Zone → Bool}
  {step : State → Nat → Except Nat State}
include hx

/-- Zones taken through a Zone Management Send that ends with success. -/
theorem zmsRun_taken {zs : List Nat} {R : Zone → Zone → Prop} (hzs : zmsZones s x.entry sel = some zs)
    (hsteps : zs.foldlM step s = .ok t) (htaken : ZonesTaken State.host unplacedZone R zs s t) :
    let u := zmsRun s c x.entry sel step
    ended u c = some (endOf x 0 0 0 []) ∧
      (∀ z ∈ zs, R (unplacedZone (zoneBy s z)) (unplacedZone (zoneBy u z))) ∧
      ∀ y, y ∉ zs → (zoneBy u y).state = (zoneBy s y).state ∧ (zoneBy u y).wp = (zoneBy s y).wp := by
  dsimp only
  rw [zmsRun_ok hzs hsteps]
  exact ⟨ended_succeed ((ctxBy_congr htaken.keeps c).trans hx) 0 [], htaken.takes,
    fun y hy => state_wp_of_unplacedZone (htaken.others y hy)⟩

/-- One zone changed by a Zone Management Send that ends with success. -/
theorem zmsRun_one {z : Nat} {f : Zone → Zone} (hz : zmsZones s x.entry sel = some [z]) (hlt : z < s.zns.zones.length)
    (hstep : step s z = .ok (onZone s z f)) :
    let u := zmsRun s c x.entry sel step
    ended u c = some (endOf x 0 0 0 []) ∧ zoneBy u z = f (zoneBy s z) ∧ (∀ y, y ≠ z → zoneBy u y = zoneBy s y) ∧
      u = { s with host.ctxs := u.host.ctxs, zns := u.zns } := by
  have hsteps : [z].foldlM step s = .ok (onZone s z f) := by
    rw [List.foldlM_cons, hstep]
    rfl
  dsimp only
  rw [zmsRun_ok hz hsteps]
  exact ⟨ended_succeed (s := onZone s z f) hx 0 [], zoneBy_onZone_same hlt f, fun y hy => zoneBy_onZone_other hy s f, rfl⟩

/-- One zone refuses a Zone Management Send, and the command ends with the zone's status. -/
theorem zmsRun_refused {z sc : Nat} (hz : zmsZones s x.entry sel = some [z]) (hstep : step s z = .error sc) :
    let u := zmsRun s c x.entry sel step
    ended u c = some (endOf x 1 sc 0 []) ∧ OnlyCtx s u c := by
  have hsteps : [z].foldlM step s = .error sc := by
    rw [List.foldlM_cons, hstep]
    rfl
  dsimp only
  rw [zmsRun_error hz hsteps]
  exact ⟨ended_finish hx 1 sc 0 [], onlyCtx_finish s c 1 sc 0 []⟩

/-- A Zone Management Send that names no zone's start, or an LBA beyond the namespace (R422). -/
theorem zmsRun_stray (hall : dwBits x.entry.dw13 8 8 = 0) (hstray : znsSize s ≤ x.entry.slba ∨ x.entry.slba % zoneLbas ≠ 0) :
    let u := zmsRun s c x.entry sel step
    ended u c = some (endOf x 0 (if znsSize s ≤ x.entry.slba then 0x80 else 2) 0 []) ∧ OnlyCtx s u c := by
  dsimp only
  rw [zmsRun_misplaced (zmsZones_misplaced hall hstray)]
  split
  · exact ⟨ended_finish hx 0 0x80 0 [], onlyCtx_finish s c 0 0x80 0 []⟩
  · exact ⟨ended_finish hx 0 2 0 [], onlyCtx_finish s c 0 2 0 []⟩

/-- Select All: the zones of the states taken go into a state, and no other zone differs. -/
theorem zmsRun_all {st : ZoneState} (hall : dwBits x.entry.dw13 8 8 = 1) (hdefault : sel default = false)
    (hstep : ∀ s z, sel (zoneBy s z) = true → step s z = .ok (onZone s z fun y => { y with state := st })) :
    let u := zmsRun s c x.entry sel step
    ended u c = some (endOf x 0 0 0 []) ∧ u = { s with host.ctxs := u.host.ctxs, zns := u.zns } ∧
      ∀ z, zoneBy u z = if sel (zoneBy s z) = true then { zoneBy s z with state := st } else zoneBy s z := by
  obtain ⟨t, hsteps, htaken⟩ := foldlM_zonesTaken (g := fun s : State => { s with zns.zones := [] }) (v := id)
    (R := fun a b => b = { a with state := st }) (ready := fun a => sel a = true)
    (fun s z hlt hz => ⟨_, hstep s z hz, .onZone hlt rfl rfl⟩)
    ((List.range s.zns.zones.length).filter fun z => sel (zoneBy s z)) s (List.nodup_range.filter _)
    (fun z hz => List.mem_range.mp (List.mem_filter.mp hz).1) fun z hz => (List.mem_filter.mp hz).2
  obtain ⟨w, rfl⟩ : ∃ w, t = { s with zns := w } :=
    ⟨t.zns, congrArg (fun w : State => { w with zns := t.zns }) htaken.keeps⟩
  dsimp only
  rw [zmsRun_ok (zmsZones_all hall) hsteps]
  refine ⟨ended_succeed (s := { s with zns := w }) hx 0 [], rfl, fun z => ?_⟩
  split
  · next hz =>
    refine htaken.takes z (List.mem_filter.mpr ⟨List.mem_range.mpr ?_, hz⟩)
    by_contra hbeyond
    have hnone : zoneBy s z = default := List.getD_eq_default _ _ (Nat.not_lt.mp hbeyond)
    rw [hnone, hdefault] at hz
    cases hz
  · next hz => exact htaken.others z fun h => hz (List.mem_filter.mp h).2

end

/-! ## Finish and Reset (R423, R424) -/

section
variable {s : State} {c : Fin 4096} {x : Ctx} {zs : List Nat}

theorem zoneFinish_denied (h : Ready s c (isZms 2) x) (hzs : zmsZones s x.entry zoneActive = some zs)
    (hlocked : (zs.any fun z => lbasLocked s writeLocked (z * zoneLbas) ((z + 1) * zoneLbas)) = true) :
    zoneFinish s c = denied s c := by
  unfold zoneFinish
  rw [onTurn_ready h, hzs]
  exact if_pos hlocked

theorem zoneReset_denied (h : Ready s c (isZms 4) x) (hzs : zmsZones s x.entry zoneUsed = some zs)
    (hlocked : (zs.any fun z => lbasLocked s writeLocked (z * zoneLbas) ((z + 1) * zoneLbas)) = true) :
    zoneReset s c = denied s c := by
  unfold zoneReset
  rw [onTurn_ready h, hzs]
  exact if_pos hlocked

section
variable (hlocked : (zs.any fun z => lbasLocked s writeLocked (z * zoneLbas) ((z + 1) * zoneLbas)) = false)
include hlocked

theorem zoneFinish_waits (h : Ready s c (isZms 2) x) (hzs : zmsZones s x.entry zoneActive = some zs)
    (hheld : ∃ z ∈ zs, zoneHeld s z x.accept = true) : zoneFinish s c = s := by
  unfold zoneFinish
  rw [onTurn_ready h, hzs]
  exact (if_neg (Bool.eq_false_iff.mp hlocked)).trans (if_pos (List.any_eq_true.mpr hheld))

theorem zoneFinish_runs (h : Ready s c (isZms 2) x) (hzs : zmsZones s x.entry zoneActive = some zs)
    (hheld : ∀ z ∈ zs, zoneHeld s z x.accept = false) :
    zoneFinish s c = withRoom s fun s => zmsRun s c x.entry zoneActive (finishOne (x.accept + 1)) := by
  have hclear : (zs.any fun z => zoneHeld s z x.accept) = false :=
    List.any_eq_false.mpr fun z hz => Bool.eq_false_iff.mp (hheld z hz)
  unfold zoneFinish
  rw [onTurn_ready h, hzs]
  exact (if_neg (Bool.eq_false_iff.mp hlocked)).trans (if_neg (Bool.eq_false_iff.mp hclear))

theorem zoneReset_waits (h : Ready s c (isZms 4) x) (hzs : zmsZones s x.entry zoneUsed = some zs)
    (hreading : (zs.any fun z => (zoneGroups s z).any (groupRead s)) = true) : zoneReset s c = s := by
  unfold zoneReset
  rw [onTurn_ready h, hzs]
  exact (if_neg (Bool.eq_false_iff.mp hlocked)).trans (if_pos hreading)

theorem zoneReset_runs (h : Ready s c (isZms 4) x) (hzs : zmsZones s x.entry zoneUsed = some zs)
    (hreading : (zs.any fun z => (zoneGroups s z).any (groupRead s)) = false) :
    zoneReset s c = withRoom s fun s => zmsRun s c x.entry zoneUsed (resetOne (x.accept + 1)) := by
  unfold zoneReset
  rw [onTurn_ready h, hzs]
  exact (if_neg (Bool.eq_false_iff.mp hlocked)).trans (if_neg (Bool.eq_false_iff.mp hreading))

end

/-- The zones that a Finish names are finished, where each that is Empty can be formed: with Select All none is. -/
theorem finish_steps (hzs : zmsZones s x.entry zoneActive = some zs) (hlt : ∀ z ∈ zs, z < s.zns.zones.length)
    (hform : ∀ z ∈ zs, (zoneBy s z).state = .empty → zoneForm s z .full ≠ none) (accept : Nat) :
    ∃ t, zs.foldlM (finishOne accept) s = .ok t ∧ ZonesTaken State.host unplacedZone ZoneFinished zs s t := by
  obtain ⟨z, rfl⟩ | hall := zmsZones_cases hzs
  · obtain ⟨t, ht, htaken⟩ := finishOne_takes (hlt z (List.mem_singleton_self z)) (hform z (List.mem_singleton_self z)) accept
    refine ⟨t, ?_, htaken⟩
    rw [List.foldlM_cons, ht]
    rfl
  · refine foldlM_zonesTaken (ready := fun a => a.state ≠ .empty)
      (fun s z hlt hz => finishOne_takes hlt (fun h => absurd h hz) accept) zs s (zmsZones_nodup hzs) hlt fun z hz hempty => ?_
    rw [hall, List.mem_filter] at hz
    obtain ⟨-, hactive⟩ := hz
    have hstate : (zoneBy s z).state = .empty := hempty
    simp [zoneActive, hstate] at hactive

/-- The zones that a Reset names are reset. -/
theorem reset_steps (hzs : zmsZones s x.entry zoneUsed = some zs) (hlt : ∀ z ∈ zs, z < s.zns.zones.length) (accept : Nat) :
    ∃ t, zs.foldlM (resetOne accept) s = .ok t ∧ ZonesTaken State.host unplacedZone ZoneWasReset zs s t :=
  foldlM_zonesTaken (ready := fun _ => True) (fun s z hlt _ => resetOne_takes accept s z hlt) zs s (zmsZones_nodup hzs) hlt
    fun _ _ => trivial

end

/-! ## The statement about zone management -/

/-- Settles O33: each action's step on one zone is followed through the zones that the command names (`foldlM_zonesTaken`). -/
theorem zoneManagement : Obligations.ZoneManagement := by
  unfold Obligations.ZoneManagement
  refine ⟨?_, ?_, ?_, ?_, ?_, ?_, ?_⟩
  · -- ZONE_OPEN of one zone (R422)
    intro s c x z h hall hz hlt st
    have hzone : zmsZones s x.entry (fun z => z.state = .closed) = some [z] := zmsZones_one hall hz hlt
    have ht : exec (.zoneOpen c) s = .next (zmsRun s c x.entry (fun z => z.state = .closed) openOne) :=
      congrArg Host.Outcome.next (onTurn_ready h _)
    refine ⟨fun hopen => ?_, fun hfull => ?_, fun hempty hactive => ?_, fun u hempty hactive hform => ?_⟩
    · exact ⟨_, ht, zmsRun_one h.1 hzone hlt (openOne_opens hopen)⟩
    · exact ⟨_, ht, zmsRun_refused h.1 hzone (openOne_full hfull)⟩
    · exact ⟨_, ht, zmsRun_refused h.1 hzone (openOne_empty_active hempty hactive)⟩
    · have hformed := zoneForm_takes hlt hform
      obtain ⟨hstate, -⟩ := hformed.takes z (List.mem_singleton_self z)
      have hsteps : [z].foldlM openOne s = .ok u := by
        rw [List.foldlM_cons, openOne_empty hempty hactive hform]
        rfl
      rw [zmsRun_ok hzone hsteps] at ht
      exact ⟨_, ht, ended_succeed ((ctxBy_congr hformed.keeps c).trans h.1) 0 [], hstate, rfl⟩
  · -- ZONE_CLOSE of one zone (R422)
    intro s c x z h hall hz hlt st
    have hzone : zmsZones s x.entry (fun z => z.state = .implicitOpen ∨ z.state = .explicitOpen) = some [z] :=
      zmsZones_one hall hz hlt
    have ht : exec (.zoneClose c) s =
        .next (zmsRun s c x.entry (fun z => z.state = .implicitOpen ∨ z.state = .explicitOpen) closeOne) :=
      congrArg Host.Outcome.next (onTurn_ready h _)
    refine ⟨fun hne hnf => ?_, fun hrefused => ?_⟩
    · exact ⟨_, ht, zmsRun_one h.1 hzone hlt (closeOne_closes hne hnf)⟩
    · exact ⟨_, ht, zmsRun_refused h.1 hzone (closeOne_refuses hrefused)⟩
  · -- ZONE_OPEN with Select All (R422)
    intro s c x h hall
    obtain ⟨hended, honly, hzones⟩ := zmsRun_all (sel := fun z => z.state = .closed) (step := openOne) h.1 hall rfl
      fun s z hz => openOne_opens (.inr (.inr (of_decide_eq_true hz)))
    simp only [decide_eq_true_eq] at hzones
    exact ⟨_, congrArg Host.Outcome.next (onTurn_ready h _), hended, honly, hzones⟩
  · -- ZONE_CLOSE with Select All (R422)
    intro s c x h hall
    obtain ⟨hended, honly, hzones⟩ := zmsRun_all (sel := fun z => z.state = .implicitOpen ∨ z.state = .explicitOpen)
      (step := closeOne) h.1 hall rfl fun s z hz => by
        obtain hopen | hopen : (zoneBy s z).state = .implicitOpen ∨ (zoneBy s z).state = .explicitOpen := of_decide_eq_true hz
        · exact closeOne_closes (by simp [hopen]) (by simp [hopen])
        · exact closeOne_closes (by simp [hopen]) (by simp [hopen])
    simp only [decide_eq_true_eq] at hzones
    exact ⟨_, congrArg Host.Outcome.next (onTurn_ready h _), hended, honly, hzones⟩
  · -- ZONE_FINISH (R423)
    intro s c x zs h hzs locked u
    refine ⟨fun hlocked => ?_, fun hlocked hheld => ?_, fun hlocked hheld => ?_⟩
    · exact ⟨_, congrArg Host.Outcome.next (zoneFinish_denied h hzs hlocked), ended_finish h.1 2 0x86 0 [],
        onlyCtx_finish s c 2 0x86 0 []⟩
    · exact congrArg Host.Outcome.next (zoneFinish_waits hlocked h hzs hheld)
    have hruns := zoneFinish_runs hlocked h hzs hheld
    refine ⟨fun hroom => ?_, fun hroom hlt hform => ?_, fun hroom z hz hempty hform => ?_⟩
    · exact congrArg Host.Outcome.next (hruns.trans (withRoom_waits hroom))
    · obtain ⟨t, hsteps, htaken⟩ := finish_steps hzs hlt hform (x.accept + 1)
      exact ⟨u, congrArg Host.Outcome.next (hruns.trans (withRoom_admits hroom)), zmsRun_taken h.1 hzs hsteps htaken⟩
    · obtain ⟨hended, -⟩ := zmsRun_refused h.1 (hz ▸ hzs) (finishOne_unformed (accept := x.accept + 1) hempty hform)
      exact ⟨u, congrArg Host.Outcome.next (hruns.trans (withRoom_admits hroom)), hended⟩
  · -- ZONE_RESET (R424)
    intro s c x zs h hzs locked reading u
    refine ⟨fun hlocked => ?_, fun hlocked hreading => ?_, fun hlocked hreading hroom => ?_,
      fun hlocked hreading hroom hlt => ?_⟩
    · exact ⟨_, congrArg Host.Outcome.next (zoneReset_denied h hzs hlocked), ended_finish h.1 2 0x86 0 [],
        onlyCtx_finish s c 2 0x86 0 []⟩
    · exact congrArg Host.Outcome.next (zoneReset_waits hlocked h hzs hreading)
    · exact congrArg Host.Outcome.next ((zoneReset_runs hlocked h hzs hreading).trans (withRoom_waits hroom))
    · obtain ⟨t, hsteps, htaken⟩ := reset_steps hzs hlt (x.accept + 1)
      exact ⟨u, congrArg Host.Outcome.next ((zoneReset_runs hlocked h hzs hreading).trans (withRoom_admits hroom)),
        zmsRun_taken h.1 hzs hsteps htaken⟩
  · -- ZONE_OPEN and ZONE_CLOSE of no zone's start (R422)
    intro s c x hall hstray st
    exact ⟨fun h => ⟨_, congrArg Host.Outcome.next (onTurn_ready h _), zmsRun_stray h.1 hall hstray⟩,
      fun h => ⟨_, congrArg Host.Outcome.next (onTurn_ready h _), zmsRun_stray h.1 hall hstray⟩⟩

end Sys2Proof.Machine
end

section
/-! PROOF. A held zoned write with no zone to write, and the statement about zoned writes and appends. -/
namespace Sys2Proof.Machine
open Sys2Proof

/-! ## A held write whose place lies beyond the namespace (R416) -/

/-- A zoned Write of one LBA, held with its place at the start of zone 0. -/
def heldWrite : Ctx :=
  { (default : Ctx) with
    sq := 1, entry := { (default : SqEntry) with opc := 0x01, nsid := 2 }, phase := .held, parts := [⟨some (0, 0), 0, 1, []⟩] }

/-- The held Write before a namespace that has no zone. -/
def heldWriteOfNoZone : State := { State.reset with host.ctxs := [(0, heldWrite)] }

/-- Its turn has come, and the dirty limit admits it. -/
theorem heldWriteOfNoZone_admitted :
    zoneHeld heldWriteOfNoZone 0 heldWrite.accept = false ∧
      admits heldWriteOfNoZone (zoneStage heldWriteOfNoZone 0 heldWrite 0 0 []) = true := by
  decide +kernel

/-- No zone takes its bytes. -/
theorem zoneWrite_heldWriteOfNoZone_absorbed : (zoneBy (zoneWrite heldWriteOfNoZone 0 []) 0).absorbed = [] := by
  decide +kernel

/-- Refutes O31 in its clause on a held write that comes again, which has the zone of the write's place absorb the bytes but does
not ask that the namespace has that zone: the write is admitted to the staging, and no zone absorbs its bytes. -/
theorem not_zonedWritesAndAppends : ¬ Obligations.ZonedWritesAndAppends := by
  unfold Obligations.ZonedWritesAndAppends
  rintro ⟨-, hheld, -⟩
  obtain ⟨hstaged, -⟩ :=
    hheld heldWriteOfNoZone 0 [] heldWrite false 0 0 ⟨some (0, 0), 0, 1, []⟩ rfl rfl rfl rfl rfl List.not_mem_nil
  obtain ⟨hturn, hroom⟩ := heldWriteOfNoZone_admitted
  obtain ⟨t, ht, -, habsorbed⟩ := hstaged rfl rfl hturn hroom
  have hstep : zoneWrite heldWriteOfNoZone 0 [] = t := Host.Outcome.next.inj ht
  rw [← hstep, zoneWrite_heldWriteOfNoZone_absorbed] at habsorbed
  obtain ⟨-, hpadded⟩ := List.append_eq_nil_iff.mp habsorbed.symm
  have hlength : (padTo (heldWrite.entry.nlb * 4096) (([] : List Byte).take (heldWrite.entry.nlb * 4096))).length =
      heldWrite.entry.nlb * 4096 := length_padTo (by simp)
  rw [hpadded] at hlength
  exact absurd hlength (by decide)

end Sys2Proof.Machine
end
